-- ==== Sys2Proof/Word.lean ====
section
/-!
DEFINITION. The machine's words: 32-bit registers, bytes, vectors of 32 lanes, and physical addresses.
-/

namespace Sys2Proof

/-- A 32-bit register value. -/
abbrev Word := BitVec 32

/-- A byte of memory. -/
abbrev Byte := BitVec 8

/-- A vector register: the words of lanes 0 to 31, lane 0 first (R15). -/
abbrev Vec := List Word

/-- The stores of the machine that an address can lie in (Table B.5): device memory, host memory, the
memory of the peer reached by a LINK record, a team's window (R143), and three that are no memory: a plane region of
a team (R236), a context's kick page (R321) and its first-touch port (R306). -/
inductive Space where
  | dev
  | host
  | peer (link : Nat)
  | win (team : Nat)
  | plane (team region : Nat)
  | kick (ctx : Nat)
  | port (ctx : Nat)
  deriving DecidableEq, Repr

/-- A location: a byte address in one of the spaces. -/
structure PAddr where
  sp : Space
  a : Nat
  deriving DecidableEq, Repr

/-- The location `n` bytes further on. -/
def PAddr.plus (p : PAddr) (n : Nat) : PAddr := { p with a := p.a + n }

end Sys2Proof
end

