-- ==== Sys2Proof/Config.lean ====
section
/-!
DEFINITION. What the spec leaves to the implementation, and the free values: every `opaque` constant here has
no body a proof could see, so a statement holds whatever it is.  The counter they are applied to is
`State.freeCount`, which each use advances.
-/

namespace Sys2Proof.Config

/-- A free 64-bit value: what the spec calls undefined or not specified, where the machine goes on (R189 the
value an MMA sees of a register written under it, R257 the shared items of a switched chain, R336 NEXT and
handle of a sequence written while pending, R138 and R139 orders that are not fixed, R347 bytes that may or may
not land). -/
opaque freeValue : Nat → BitVec 64

/-- A free choice between two allowed courses. -/
opaque freeBool : Nat → Bool

/-- The identity key of R379, which is not given: the identifier of each tree, by its level and number, the secret of each
hash chain of each leaf, and the salt of each leaf's signature. (Log entry 17 DESIGN CHOICE.) -/
opaque identityTree : Nat → Nat → Nat
/-- (Log entry 17 DESIGN CHOICE.) -/
opaque identitySecret : Nat → Nat → Nat → Nat → Nat
/-- (Log entry 17 DESIGN CHOICE.) -/
opaque identitySalt : Nat → Nat → Nat → Nat

/-- The fused SHA-256 hash of the root public key (R378). (Log entry 17 DESIGN CHOICE.) -/
opaque rootKeyHash : List (BitVec 8)

/-- Where a firmware image carries the root public key, its HSS signature and what that signs (R378): the layout of an image
is not given. (Log entry 17 DESIGN CHOICE.) -/
opaque firmwareKey : List (BitVec 8) → List (BitVec 8)
/-- (Log entry 17 DESIGN CHOICE.) -/
opaque firmwareSignature : List (BitVec 8) → List (BitVec 8)
/-- (Log entry 17 DESIGN CHOICE.) -/
opaque firmwareSigned : List (BitVec 8) → List (BitVec 8)

/-- The 64-bit security version that a firmware image carries (R378): the layout of an image is not given.
(Log entry 17 DESIGN CHOICE.) -/
opaque firmwareVersion : List (BitVec 8) → Nat

/-- The build id that a firmware image carries (Table D.3). (Log entry 17 DESIGN CHOICE.) -/
opaque firmwareBuild : List (BitVec 8) → Nat

/-- Firmware policy (R326, R267): which of the allowed forms POLICY asks for. (Log entry 51 DESIGN CHOICE.) -/
opaque policyFolded : Nat → Bool

/-- Physical address of a context's page-table root, whose format is internal (R296, R302).
(Log entry 17 DESIGN CHOICE.) -/
opaque pageRoot : Nat → Nat

/-- Thermal design power of the package in watts (R374, Table 0.1), by ordering code: 0 VXC-36, 1 VXP-144,
2 VXM-144. -/
def designPower : Nat → Nat
  | 0 => 560
  | 1 => 2150
  | _ => 2400

end Sys2Proof.Config
end

