-- ==== Sys2Proof/Syntax.lean ====
section
/-!
DEFINITION. The abstract syntax of Ictin and of the device's hardware steps: one constructor per row of
the opcode table.  The rows of instruction words carry the operand fields of their encoding (Tables A.8 to
A.21), each at its width and in ascending bit order.  The stall count SC and the length belong to the word
and not to the operation (Table A.8, R47): the issue in progress holds them (`Issue` of the machine), and so
it does the widening of an EXT pair.  `ext` is the prefix of R56 with the 32-bit word that follows it.  The
rows of hardware steps have no encoding; the object a step is taken for and the outside input it delivers
stand in the machine's event arguments (`EvArg`), and each docstring says which of them the step reads.
Constructors with fields stand first: Lean's runtime numbers at most 245 of those in one type.
-/

namespace Sys2Proof

/-- One constructor per row of the opcode table. -/
inductive Instr where
  /-- R111: Adds two vector registers lane by lane, modulo 2^32. -/
  | vaddI (d : BitVec 7) (a : BitVec 7) (b : BitVec 7)
  /-- R111: Subtracts vb from va lane by lane, modulo 2^32. -/
  | vsubI (d : BitVec 7) (a : BitVec 7) (b : BitVec 7)
  /-- R111: Writes the low 32 bits of each lane product. -/
  | vmullo (d : BitVec 7) (a : BitVec 7) (b : BitVec 7)
  /-- R111: Writes the high 32 bits of each signed lane product. -/
  | vmulhiS (d : BitVec 7) (a : BitVec 7) (b : BitVec 7)
  /-- R111: Writes the high 32 bits of each unsigned lane product. -/
  | vmulhiZ (d : BitVec 7) (a : BitVec 7) (b : BitVec 7)
  /-- R111: Bitwise AND of two vector registers. -/
  | vand (d : BitVec 7) (a : BitVec 7) (b : BitVec 7)
  /-- R111: Bitwise OR of two vector registers. -/
  | vor (d : BitVec 7) (a : BitVec 7) (b : BitVec 7)
  /-- R111: Bitwise XOR of two vector registers. -/
  | vxor (d : BitVec 7) (a : BitVec 7) (b : BitVec 7)
  /-- R111: Shifts each lane left by vb[4:0]. -/
  | vshl (d : BitVec 7) (a : BitVec 7) (b : BitVec 7)
  /-- R111: Shifts each lane right with zero fill. -/
  | vshrz (d : BitVec 7) (a : BitVec 7) (b : BitVec 7)
  /-- R111: Shifts each lane right with sign fill. -/
  | vshrs (d : BitVec 7) (a : BitVec 7) (b : BitVec 7)
  /-- R111: Signed minimum of each lane pair. -/
  | vminS (d : BitVec 7) (a : BitVec 7) (b : BitVec 7)
  /-- R111: Signed maximum of each lane pair. -/
  | vmaxS (d : BitVec 7) (a : BitVec 7) (b : BitVec 7)
  /-- R111: Unsigned minimum of each lane pair. -/
  | vminZ (d : BitVec 7) (a : BitVec 7) (b : BitVec 7)
  /-- R111: Unsigned maximum of each lane pair. -/
  | vmaxZ (d : BitVec 7) (a : BitVec 7) (b : BitVec 7)
  /-- R111: Rotates each lane left by vb[4:0]. -/
  | vrotl (d : BitVec 7) (a : BitVec 7) (b : BitVec 7)
  /-- R113: FP32 addition rounded once by fmt.RM. -/
  | vaddF (d : BitVec 7) (a : BitVec 7) (b : BitVec 7)
  /-- R113: FP32 subtraction rounded once by fmt.RM. -/
  | vsubF (d : BitVec 7) (a : BitVec 7) (b : BitVec 7)
  /-- R113: FP32 multiplication rounded once by fmt.RM. -/
  | vmulF (d : BitVec 7) (a : BitVec 7) (b : BitVec 7)
  /-- R113: Fused FP32 multiply-add with vd as addend. -/
  | vfmaF (d : BitVec 7) (a : BitVec 7) (b : BitVec 7)
  /-- R113: Fused FP32 vd minus the product of va and vb. -/
  | vfnmaF (d : BitVec 7) (a : BitVec 7) (b : BitVec 7)
  /-- R113: IEEE minimumNumber of each lane pair. -/
  | vminF (d : BitVec 7) (a : BitVec 7) (b : BitVec 7)
  /-- R113: IEEE maximumNumber of each lane pair. -/
  | vmaxF (d : BitVec 7) (a : BitVec 7) (b : BitVec 7)
  /-- R113: Copies the sign bit of vb onto va. -/
  | vcpsgn (d : BitVec 7) (a : BitVec 7) (b : BitVec 7)
  /-- R114: Adds packed FP16 element pairs. -/
  | vaddH (d : BitVec 7) (a : BitVec 7) (b : BitVec 7)
  /-- R114: Multiplies packed FP16 element pairs. -/
  | vmulH (d : BitVec 7) (a : BitVec 7) (b : BitVec 7)
  /-- R114: Fused multiply-add on packed FP16 elements. -/
  | vfmaH (d : BitVec 7) (a : BitVec 7) (b : BitVec 7)
  /-- R114: Two-element FP16 dot product added to an FP32 lane. -/
  | vdot2H (d : BitVec 7) (a : BitVec 7) (b : BitVec 7)
  /-- R114: Adds packed BF16 element pairs. -/
  | vaddBf (d : BitVec 7) (a : BitVec 7) (b : BitVec 7)
  /-- R114: Multiplies packed BF16 element pairs. -/
  | vmulBf (d : BitVec 7) (a : BitVec 7) (b : BitVec 7)
  /-- R114: Fused multiply-add on packed BF16 elements. -/
  | vfmaBf (d : BitVec 7) (a : BitVec 7) (b : BitVec 7)
  /-- R114: Two-element BF16 dot product added to an FP32 lane. -/
  | vdot2Bf (d : BitVec 7) (a : BitVec 7) (b : BitVec 7)
  /-- R115: Writes to sd the mask of lanes where va and vb are ordered and equal. -/
  | vcmpEqF (d : BitVec 6) (a : BitVec 7) (b : BitVec 7)
  /-- R115: Mask of lanes unordered or unequal as FP32. -/
  | vcmpNeF (d : BitVec 6) (a : BitVec 7) (b : BitVec 7)
  /-- R115: Mask of lanes where va is less than vb as FP32. -/
  | vcmpLtF (d : BitVec 6) (a : BitVec 7) (b : BitVec 7)
  /-- R115: Mask of lanes where va is at most vb as FP32. -/
  | vcmpLeF (d : BitVec 6) (a : BitVec 7) (b : BitVec 7)
  /-- R115: Mask of lanes where va exceeds vb as FP32. -/
  | vcmpGtF (d : BitVec 6) (a : BitVec 7) (b : BitVec 7)
  /-- R115: Mask of lanes where va is at least vb as FP32. -/
  | vcmpGeF (d : BitVec 6) (a : BitVec 7) (b : BitVec 7)
  /-- R115: Mask of lanes where either operand is NaN. -/
  | vcmpUnF (d : BitVec 6) (a : BitVec 7) (b : BitVec 7)
  /-- R115: Mask of lanes where neither operand is NaN. -/
  | vcmpOrF (d : BitVec 6) (a : BitVec 7) (b : BitVec 7)
  /-- R115: Mask of lanes whose 32-bit patterns are equal. -/
  | vcmpEqI (d : BitVec 6) (a : BitVec 7) (b : BitVec 7)
  /-- R115: Mask of lanes whose 32-bit patterns differ. -/
  | vcmpNeI (d : BitVec 6) (a : BitVec 7) (b : BitVec 7)
  /-- R115: Mask of lanes where va is less than vb, signed. -/
  | vcmpLtS (d : BitVec 6) (a : BitVec 7) (b : BitVec 7)
  /-- R115: Mask of lanes where va is at most vb, signed. -/
  | vcmpLeS (d : BitVec 6) (a : BitVec 7) (b : BitVec 7)
  /-- R115: Mask of lanes where va is less than vb, unsigned. -/
  | vcmpLtZ (d : BitVec 6) (a : BitVec 7) (b : BitVec 7)
  /-- R115: Mask of lanes where va is at most vb, unsigned. -/
  | vcmpLeZ (d : BitVec 6) (a : BitVec 7) (b : BitVec 7)
  /-- R115: Mask of lanes where va AND vb is non-zero. -/
  | vcmpTst (d : BitVec 6) (a : BitVec 7) (b : BitVec 7)
  /-- R115: Mask of lanes where va AND vb is zero. -/
  | vcmpNtst (d : BitVec 6) (a : BitVec 7) (b : BitVec 7)
  /-- R112: Adds an immediate to each lane. -/
  | vaddi (d : BitVec 7) (a : BitVec 7) (i : BitVec 7)
  /-- R112: ANDs an immediate into each lane. -/
  | vandi (d : BitVec 7) (a : BitVec 7) (i : BitVec 7)
  /-- R112: ORs an immediate into each lane. -/
  | vori (d : BitVec 7) (a : BitVec 7) (i : BitVec 7)
  /-- R112: XORs an immediate into each lane. -/
  | vxori (d : BitVec 7) (a : BitVec 7) (i : BitVec 7)
  /-- R112: Shifts each lane left by an immediate. -/
  | vshli (d : BitVec 7) (a : BitVec 7) (i : BitVec 7)
  /-- R112: Shifts each lane right by an immediate with zero fill. -/
  | vshrzi (d : BitVec 7) (a : BitVec 7) (i : BitVec 7)
  /-- R112: Shifts each lane right by an immediate with sign fill. -/
  | vshrsi (d : BitVec 7) (a : BitVec 7) (i : BitVec 7)
  /-- R112: Multiplies each lane by an immediate, low 32 bits. -/
  | vmuli (d : BitVec 7) (a : BitVec 7) (i : BitVec 7)
  /-- R116: Converts elements from fmt.AF to fmt.CF across one or more registers. -/
  | vcvt (d : BitVec 7) (a : BitVec 7)
  /-- R118: Converts signed INT32 lanes to FP32. -/
  | vcvtfS (d : BitVec 7) (a : BitVec 7)
  /-- R118: Converts FP32 lanes to signed INT32. -/
  | vcvtsF (d : BitVec 7) (a : BitVec 7)
  /-- R118: Converts unsigned 32-bit lanes to FP32. -/
  | vcvtfZ (d : BitVec 7) (a : BitVec 7)
  /-- R118: Converts FP32 lanes to unsigned 32-bit integers. -/
  | vcvtzF (d : BitVec 7) (a : BitVec 7)
  /-- R120: Encodes four registers of FP32 into BX8 blocks and headers. -/
  | vpkbx8 (d : BitVec 7) (a : BitVec 7)
  /-- R121: Decodes BX8 blocks to four registers of FP32. -/
  | vupbx8 (d : BitVec 7) (a : BitVec 7)
  /-- R120: Encodes eight registers of FP32 into BX4 blocks and headers. -/
  | vpkbx4 (d : BitVec 7) (a : BitVec 7)
  /-- R121: Decodes BX4 blocks to eight registers of FP32. -/
  | vupbx4 (d : BitVec 7) (a : BitVec 7)
  /-- R119: Packs four FP32 registers into one FP8 register in element order. -/
  | vpkf8 (d : BitVec 7) (a : BitVec 7)
  /-- R119: Unpacks one FP8 register to four FP32 registers in element order. -/
  | vupf8 (d : BitVec 7) (a : BitVec 7)
  /-- R122: Correctly rounded FP32 reciprocal per lane. -/
  | vrcp (d : BitVec 7) (a : BitVec 7)
  /-- R122: FP32 reciprocal square root per lane. -/
  | vrsq (d : BitVec 7) (a : BitVec 7)
  /-- R122: Correctly rounded FP32 square root per lane. -/
  | vsqrt (d : BitVec 7) (a : BitVec 7)
  /-- R122: FP32 base-2 exponential per lane. -/
  | vexp2 (d : BitVec 7) (a : BitVec 7)
  /-- R122: FP32 base-2 logarithm per lane. -/
  | vlog2 (d : BitVec 7) (a : BitVec 7)
  /-- R122: FP32 sin(pi x) per lane. -/
  | vsinpi (d : BitVec 7) (a : BitVec 7)
  /-- R122: FP32 cos(pi x) per lane. -/
  | vcospi (d : BitVec 7) (a : BitVec 7)
  /-- R122: FP32 hyperbolic tangent per lane. -/
  | vtanh (d : BitVec 7) (a : BitVec 7)
  /-- R123: Clears the sign bit of each lane. -/
  | vabsF (d : BitVec 7) (a : BitVec 7)
  /-- R123: Inverts the sign bit of each lane. -/
  | vnegF (d : BitVec 7) (a : BitVec 7)
  /-- R123: Largest integral FP32 value not above each lane. -/
  | vfloor (d : BitVec 7) (a : BitVec 7)
  /-- R123: Fractional part of each FP32 lane, rounded towards zero. -/
  | vfract (d : BitVec 7) (a : BitVec 7)
  /-- R123: Integer absolute value of each lane, modulo 2^32. -/
  | vabsI (d : BitVec 7) (a : BitVec 7)
  /-- R123: Integer negation of each lane, modulo 2^32. -/
  | vnegI (d : BitVec 7) (a : BitVec 7)
  /-- R123: Bitwise NOT of each lane, 32-bit form. -/
  | vnot (d : BitVec 7) (a : BitVec 7)
  /-- R123: Counts the 1 bits of each lane. -/
  | vpopc (d : BitVec 7) (a : BitVec 7)
  /-- R123: Counts the leading 0 bits of each lane. -/
  | vclz (d : BitVec 7) (a : BitVec 7)
  /-- R123: Reverses the bit order of each lane. -/
  | vbrev (d : BitVec 7) (a : BitVec 7)
  /-- R124: Writes each lane from the va lane that vb names. -/
  | vshfl (d : BitVec 7) (a : BitVec 7) (b : BitVec 7)
  /-- R124: Writes each lane from the va lane at l xor imm. -/
  | vshflx (d : BitVec 7) (a : BitVec 7) (i : BitVec 7)
  /-- R124: Writes each lane from the va lane imm below it. -/
  | vshflup (d : BitVec 7) (a : BitVec 7) (i : BitVec 7)
  /-- R124: Writes each lane from the va lane imm above it. -/
  | vshfldn (d : BitVec 7) (a : BitVec 7) (i : BitVec 7)
  /-- R124: Broadcasts lane imm of va to every lane in exec. -/
  | vbcast (d : BitVec 7) (a : BitVec 7) (i : BitVec 7)
  /-- R125: Sums the FP32 lanes in a fixed butterfly order. -/
  | vraddF (d : BitVec 7) (a : BitVec 7)
  /-- R125: Takes the maximumNumber over the FP32 lanes. -/
  | vrmaxF (d : BitVec 7) (a : BitVec 7)
  /-- R125: Inclusive FP32 prefix sum over the lanes in fixed order. -/
  | vscanF (d : BitVec 7) (a : BitVec 7)
  /-- R126: Broadcasts a scalar register to every lane in exec. -/
  | vbcs (d : BitVec 7) (s : BitVec 6)
  /-- R126: Copies one lane of a vector register to a scalar register. -/
  | vmovsl (a : BitVec 7) (s : BitVec 6) (i : BitVec 5)
  /-- R126: Writes each lane's own index. -/
  | vlaneid (d : BitVec 7)
  /-- R126: Writes a scalar into one lane if that lane is in exec. -/
  | vsetl (d : BitVec 7) (s : BitVec 6) (i : BitVec 5)
  /-- R80: Scalar addition modulo 2^32. -/
  | sadd (d : BitVec 6) (a : BitVec 6) (b : BitVec 6)
  /-- R80: Scalar subtraction modulo 2^32. -/
  | ssub (d : BitVec 6) (a : BitVec 6) (b : BitVec 6)
  /-- R80: Low 32 bits of the scalar product. -/
  | smul (d : BitVec 6) (a : BitVec 6) (b : BitVec 6)
  /-- R80: High 32 bits of the signed scalar product. -/
  | smulhs (d : BitVec 6) (a : BitVec 6) (b : BitVec 6)
  /-- R80: High 32 bits of the unsigned scalar product. -/
  | smulhz (d : BitVec 6) (a : BitVec 6) (b : BitVec 6)
  /-- R80: Scalar bitwise AND. -/
  | sand (d : BitVec 6) (a : BitVec 6) (b : BitVec 6)
  /-- R80: Scalar bitwise OR. -/
  | sor (d : BitVec 6) (a : BitVec 6) (b : BitVec 6)
  /-- R80: Scalar bitwise XOR. -/
  | sxor (d : BitVec 6) (a : BitVec 6) (b : BitVec 6)
  /-- R80: Scalar sa AND NOT sb. -/
  | sandn (d : BitVec 6) (a : BitVec 6) (b : BitVec 6)
  /-- R80: Scalar left shift by sb[4:0]. -/
  | sshl (d : BitVec 6) (a : BitVec 6) (b : BitVec 6)
  /-- R80: Scalar right shift with zero fill. -/
  | sshrz (d : BitVec 6) (a : BitVec 6) (b : BitVec 6)
  /-- R80: Scalar right shift with sign fill. -/
  | sshrs (d : BitVec 6) (a : BitVec 6) (b : BitVec 6)
  /-- R80: Signed scalar minimum. -/
  | smins (d : BitVec 6) (a : BitVec 6) (b : BitVec 6)
  /-- R80: Signed scalar maximum. -/
  | smaxs (d : BitVec 6) (a : BitVec 6) (b : BitVec 6)
  /-- R80: Unsigned scalar minimum. -/
  | sminz (d : BitVec 6) (a : BitVec 6) (b : BitVec 6)
  /-- R80: Unsigned scalar maximum. -/
  | smaxz (d : BitVec 6) (a : BitVec 6) (b : BitVec 6)
  /-- R80: 1 if sa is less than sb, signed. -/
  | sslts (d : BitVec 6) (a : BitVec 6) (b : BitVec 6)
  /-- R80: 1 if sa is less than sb, unsigned. -/
  | ssltz (d : BitVec 6) (a : BitVec 6) (b : BitVec 6)
  /-- R80: 1 if sa equals sb. -/
  | sseq (d : BitVec 6) (a : BitVec 6) (b : BitVec 6)
  /-- R80: Counts the 1 bits of sa. -/
  | spopc (d : BitVec 6) (a : BitVec 6)
  /-- R80: Counts the trailing 0 bits of sa. -/
  | sctz (d : BitVec 6) (a : BitVec 6)
  /-- R80: Counts the leading 0 bits of sa. -/
  | sclz (d : BitVec 6) (a : BitVec 6)
  /-- R80: Extracts a bit field of sa given by sb. -/
  | sbfe (d : BitVec 6) (a : BitVec 6) (b : BitVec 6)
  /-- R80: Inserts a bit field of sa into sd. -/
  | sbfi (d : BitVec 6) (a : BitVec 6) (b : BitVec 6)
  /-- R80: 64-bit addition of register pairs. -/
  | sadd64 (d : BitVec 6) (a : BitVec 6) (b : BitVec 6)
  /-- R80: 64-bit subtraction of register pairs. -/
  | ssub64 (d : BitVec 6) (a : BitVec 6) (b : BitVec 6)
  /-- R80: 64-bit left shift of a register pair. -/
  | sshl64 (d : BitVec 6) (a : BitVec 6) (b : BitVec 6)
  /-- R80: 64-bit right shift of a register pair with zero fill. -/
  | sshrz64 (d : BitVec 6) (a : BitVec 6) (b : BitVec 6)
  /-- R80: Selects sa if sd is non-zero, else sb. -/
  | ssel (d : BitVec 6) (a : BitVec 6) (b : BitVec 6)
  /-- R81: Adds an immediate to a scalar register. -/
  | saddi (d : BitVec 6) (a : BitVec 6) (i : BitVec 10)
  /-- R81: ANDs an immediate into a scalar register. -/
  | sandi (d : BitVec 6) (a : BitVec 6) (i : BitVec 10)
  /-- R81: ORs an immediate into a scalar register. -/
  | sori (d : BitVec 6) (a : BitVec 6) (i : BitVec 10)
  /-- R81: XORs an immediate into a scalar register. -/
  | sxori (d : BitVec 6) (a : BitVec 6) (i : BitVec 10)
  /-- R82: Places an 18-bit immediate in bits [31:14] of sd. -/
  | slui (d : BitVec 6) (i : BitVec 18)
  /-- R98: Holds the group for sa plus imm beats. -/
  | dly (a : BitVec 6) (i : BitVec 12)
  /-- R97: Reads a special register into sd. -/
  | srd (d : BitVec 6) (x : BitVec 6)
  /-- R97: Writes sa to a special register. -/
  | swr (a : BitVec 6) (x : BitVec 6)
  /-- R96: Sets exec to sa. -/
  | sexec (a : BitVec 6)
  /-- R96: ANDs sa into exec. -/
  | sexecand (a : BitVec 6)
  /-- R96: ANDs NOT sa into exec. -/
  | sexecandn (a : BitVec 6)
  /-- R96: Copies exec to sd. -/
  | sgetexec (d : BitVec 6)
  /-- R96: Writes fmt from sa after checking reserved bits and codes. -/
  | fmtset (a : BitVec 6)
  /-- R96: Copies fmt to sd. -/
  | fmtget (d : BitVec 6)
  /-- R86: Jumps to the address in sa. -/
  | jmpr (a : BitVec 6)
  /-- R84: Calls the address in sa, writing s61 and raising the call depth. -/
  | callr (a : BitVec 6)
  /-- R105: Raises SOFTWARE with an 18-bit code. -/
  | trap (i : BitVec 18)
  /-- R105: Raises BREAK with an 18-bit code. -/
  | brk (i : BitVec 18)
  /-- R103: Takes a commit-buffer entry that will kick a launch-queue slot at release. -/
  | launch (a : BitVec 6) (b : BitVec 6)
  /-- R104: Resolves a team guard to true or false. -/
  | gset (g : BitVec 4) (v : BitVec 2)
  /-- R104: Returns a team guard to unresolved. -/
  | gclr (g : BitVec 4)
  /-- R83: Branches unconditionally. -/
  | brAlways (o : BitVec 14)
  /-- R83: Branches when sa is zero. -/
  | brSz (a : BitVec 6) (o : BitVec 14)
  /-- R83: Branches when sa is non-zero. -/
  | brSnz (a : BitVec 6) (o : BitVec 14)
  /-- R83: Branches when sa is negative. -/
  | brSneg (a : BitVec 6) (o : BitVec 14)
  /-- R83: Branches when sa is not negative. -/
  | brSnneg (a : BitVec 6) (o : BitVec 14)
  /-- R83: Branches when exec is zero. -/
  | brExecz (o : BitVec 14)
  /-- R83: Branches when exec is non-zero. -/
  | brExecnz (o : BitVec 14)
  /-- R83: Branches when every exec bit is set. -/
  | brExecall (o : BitVec 14)
  /-- R88: Divergent branch running the not-taken path first. -/
  | dbr (a : BitVec 6) (o : BitVec 14)
  /-- R88: Divergent branch running the taken path first. -/
  | dbrT (a : BitVec 6) (o : BitVec 14)
  /-- R84: PC-relative call writing s61 and raising the call depth. -/
  | call (o : BitVec 24)
  /-- R92: Pushes a loop-stack entry or skips the body for a count of 0. -/
  | loop (a : BitVec 6) (i : BitVec 8) (e : BitVec 10)
  /-- R135: Per-lane vector load through a translation register. -/
  | ld (d : BitVec 7) (b : BitVec 3) (o : BitVec 7) (w : BitVec 3) (h : BitVec 3) (x : BitVec 1)
  /-- R136: Per-lane vector store through a translation register. -/
  | st (d : BitVec 7) (b : BitVec 3) (o : BitVec 7) (w : BitVec 3) (h : BitVec 3)
  /-- R138: Per-lane atomic integer add returning the old word. -/
  | atomAdd (d : BitVec 7) (b : BitVec 3) (o : BitVec 7) (s : BitVec 3)
  /-- R138: Per-lane atomic signed minimum. -/
  | atomMinS (d : BitVec 7) (b : BitVec 3) (o : BitVec 7) (s : BitVec 3)
  /-- R138: Per-lane atomic signed maximum. -/
  | atomMaxS (d : BitVec 7) (b : BitVec 3) (o : BitVec 7) (s : BitVec 3)
  /-- R138: Per-lane atomic unsigned minimum. -/
  | atomMinZ (d : BitVec 7) (b : BitVec 3) (o : BitVec 7) (s : BitVec 3)
  /-- R138: Per-lane atomic unsigned maximum. -/
  | atomMaxZ (d : BitVec 7) (b : BitVec 3) (o : BitVec 7) (s : BitVec 3)
  /-- R138: Per-lane atomic AND. -/
  | atomAnd (d : BitVec 7) (b : BitVec 3) (o : BitVec 7) (s : BitVec 3)
  /-- R138: Per-lane atomic OR. -/
  | atomOr (d : BitVec 7) (b : BitVec 3) (o : BitVec 7) (s : BitVec 3)
  /-- R138: Per-lane atomic XOR. -/
  | atomXor (d : BitVec 7) (b : BitVec 3) (o : BitVec 7) (s : BitVec 3)
  /-- R138: Per-lane atomic exchange. -/
  | atomXchg (d : BitVec 7) (b : BitVec 3) (o : BitVec 7) (s : BitVec 3)
  /-- R138: Per-lane atomic compare-and-swap with the new value in vd+1. -/
  | atomCas (d : BitVec 7) (b : BitVec 3) (o : BitVec 7) (s : BitVec 3)
  /-- R138: Per-lane atomic FP32 add rounded to nearest even. -/
  | atomAddF (d : BitVec 7) (b : BitVec 3) (o : BitVec 7) (s : BitVec 3)
  /-- R138: Per-lane atomic FP32 maximumNumber. -/
  | atomMaxF (d : BitVec 7) (b : BitVec 3) (o : BitVec 7) (s : BitVec 3)
  /-- R138: Per-lane atomic FP32 minimumNumber. -/
  | atomMinF (d : BitVec 7) (b : BitVec 3) (o : BitVec 7) (s : BitVec 3)
  /-- R141: Scalar 32-bit load through the L1. -/
  | sld (d : BitVec 6) (b : BitVec 3) (i : BitVec 12)
  /-- R141: Scalar 64-bit load into a register pair. -/
  | sld64 (d : BitVec 6) (b : BitVec 3) (i : BitVec 12)
  /-- R141: Scalar 32-bit store performed at TEAM. -/
  | sst (d : BitVec 6) (b : BitVec 3) (i : BitVec 12)
  /-- R141: Scalar 64-bit store of a register pair. -/
  | sst64 (d : BitVec 6) (b : BitVec 3) (i : BitVec 12)
  /-- R141: Scalar atomic add at DEVICE scope returning the old word. -/
  | satadd (d : BitVec 6) (b : BitVec 3) (i : BitVec 12)
  /-- R141: Scalar atomic compare-and-swap at DEVICE scope. -/
  | satcas (d : BitVec 6) (b : BitVec 3) (i : BitVec 12)
  /-- R142: Starts a watch on a word until it differs from sd or the poll window ends. -/
  | spollne (d : BitVec 6) (b : BitVec 3) (i : BitVec 12)
  /-- R141: Scalar load that acquires at DEVICE scope. -/
  | sldacq (d : BitVec 6) (b : BitVec 3) (i : BitVec 12)
  /-- R144: Per-lane load of a team-window word. -/
  | spld (d : BitVec 7) (a : BitVec 7) (i : BitVec 6)
  /-- R144: Per-lane load of four team-window words. -/
  | spldq (d : BitVec 7) (a : BitVec 7) (i : BitVec 6)
  /-- R144: Per-lane store of a team-window word. -/
  | spst (d : BitVec 7) (a : BitVec 7) (i : BitVec 6)
  /-- R144: Per-lane store of four team-window words. -/
  | spstq (d : BitVec 7) (a : BitVec 7) (i : BitVec 6)
  /-- R146: Looks up each lane's key in the tag table. -/
  | vtaglk (d : BitVec 7) (a : BitVec 7) (i : BitVec 6)
  /-- R146: Enters each lane's key at the entry vd names. -/
  | tagset (d : BitVec 7) (a : BitVec 7) (i : BitVec 6)
  /-- R146: Invalidates each lane's key in the tag table. -/
  | tagclr (d : BitVec 7) (a : BitVec 7) (i : BitVec 6)
  /-- R144: Per-lane atomic integer add on a team-window word. -/
  | spatadd (d : BitVec 7) (a : BitVec 7) (i : BitVec 6)
  /-- R144: Per-lane atomic FP32 add on a team-window word. -/
  | spataddF (d : BitVec 7) (a : BitVec 7) (i : BitVec 6)
  /-- R149: Full, acquire or release fence at a scope. -/
  | fence (s : BitVec 3) (k : BitVec 2)
  /-- R153: Arrives at a team barrier and starts the TEAM release. -/
  | bara (b : BitVec 4)
  /-- R153: Waits for a new barrier generation and acquires at TEAM. -/
  | barw (b : BitVec 4)
  /-- R153: Arrives at a team barrier and waits on it. -/
  | bars (b : BitVec 4)
  /-- R156: Arrives at a grid barrier and waits for the package release. -/
  | gbar (g : BitVec 2)
  /-- R150: Holds the group until an in-flight counter is at most sa. -/
  | waitcnt (p : BitVec 3) (a : BitVec 6)
  /-- R151: Waits while a copy token is BUSY, then acquires the job's writes. -/
  | waitk (k : BitVec 3)
  /-- R147: Starts a fill of a translation register from a 64-bit address. -/
  | xlate (b : BitVec 3) (a : BitVec 6)
  /-- R148: Sets a translation register INVALID. -/
  | xinv (b : BitVec 3)
  /-- R153: Sets a barrier's expected count and SET mode. -/
  | bari (b : BitVec 4) (a : BitVec 6)
  /-- R161: Binds a queue register to a published queue handle. -/
  | qbind (q : BitVec 4) (n : BitVec 2) (d : BitVec 6)
  /-- R162: Posts a pop of one entry and raises QRD. -/
  | qget (q : BitVec 4) (r : BitVec 7) (n : BitVec 2)
  /-- R164: Pushes one entry, held in the commit buffer or direct on a chain link. -/
  | qput (q : BitVec 4) (r : BitVec 7) (n : BitVec 2)
  /-- R163: Pops an entry if one is present, writing a status to sd. -/
  | qtry (q : BitVec 4) (r : BitVec 7) (n : BitVec 2) (d : BitVec 6)
  /-- R163: Copies the head entry without removing it, writing a status. -/
  | qtryp (q : BitVec 4) (r : BitVec 7) (n : BitVec 2) (d : BitVec 6)
  /-- R165: Writes a snapshot of the bound queue's state to sd. -/
  | qstat (q : BitVec 4) (d : BitVec 6)
  /-- R161: Sets a queue register UNBOUND after its pops return. -/
  | qunbind (q : BitVec 4)
  /-- R179: Reads and checks a job card, releases prior stores and queues the copy job. -/
  | cpy (k : BitVec 3) (b : BitVec 3) (a : BitVec 6) (g : BitVec 4) (v : BitVec 1)
  /-- R180: Reads a token's state and skipped flag. -/
  | kstat (k : BitVec 3) (a : BitVec 6)
  /-- R180: Reads a token's landed-byte count into a pair. -/
  | kbytes (k : BitVec 3) (a : BitVec 6)
  /-- R180: Returns a non-BUSY token to IDLE. -/
  | kclr (k : BitVec 3)
  /-- R180: Re-enters a PARTIAL job to copy its missing sectors. -/
  | kreplay (k : BitVec 3)
  /-- R184: Per-lane read of a plane region's present value. -/
  | pld (p : BitVec 3) (v : BitVec 7) (o : BitVec 7)
  /-- R184: Per-lane write of a plane region's next value under its rule. -/
  | pst (p : BitVec 3) (v : BitVec 7) (o : BitVec 7)
  /-- R185: Arrives at a region's step and waits for the swap. -/
  | pstep (p : BitVec 3)
  /-- R186: Reads the next value and its W and C bits. -/
  | pqry (p : BitVec 3) (v : BitVec 7) (o : BitVec 7)
  /-- R77: Matrix-stream multiply-accumulate of two fragments into a tile. -/
  | mma (t : BitVec 4) (a : BitVec 8) (b : BitVec 8)
  /-- R191: Sets every element of a tile to +0.0. -/
  | mzero (t : BitVec 4)
  /-- R191: Matrix stream waits on a team barrier. -/
  | mwaitb (b : BitVec 4)
  /-- R191: Matrix stream opens a team barrier after earlier MMAs read operands. -/
  | msigb (b : BitVec 4)
  /-- R191: Matrix-stream loop over a body. -/
  | mloop (c : BitVec 8) (e : BitVec 12)
  /-- R191: Copies a group's fmt into the matrix stream. -/
  | mfmt (g : BitVec 8)
  /-- R195: Reads one tile row into a vector register after the tile interlock. -/
  | accrd (t : BitVec 4) (v : BitVec 7) (r : BitVec 5)
  /-- R195: Writes a vector register into one tile row. -/
  | accwr (t : BitVec 4) (v : BitVec 7) (r : BitVec 5)
  /-- R196: Reads one tile row converted to fmt.CF. -/
  | accrdc (t : BitVec 4) (v : BitVec 7) (r : BitVec 5)
  /-- R56: Prefix widening the immediate of the following 32-bit word. -/
  | ext (x : BitVec 24) (w2 : Word)
  /-- R46: 16-bit copy of va into vd. -/
  | vmov (d : BitVec 6) (a : BitVec 5)
  /-- R46: 16-bit form of VADD.I with vd as first source. -/
  | vaddI16 (d : BitVec 6) (a : BitVec 5)
  /-- R46: 16-bit form of VSUB.I. -/
  | vsubI16 (d : BitVec 6) (a : BitVec 5)
  /-- R46: 16-bit form of VAND. -/
  | vand16 (d : BitVec 6) (a : BitVec 5)
  /-- R46: 16-bit form of VOR. -/
  | vor16 (d : BitVec 6) (a : BitVec 5)
  /-- R46: 16-bit form of VXOR. -/
  | vxor16 (d : BitVec 6) (a : BitVec 5)
  /-- R46: 16-bit form of VSHL. -/
  | vshl16 (d : BitVec 6) (a : BitVec 5)
  /-- R46: 16-bit form of VSHRZ. -/
  | vshrz16 (d : BitVec 6) (a : BitVec 5)
  /-- R46: 16-bit form of VADD.F with implicit SC 1. -/
  | vaddF16 (d : BitVec 6) (a : BitVec 5)
  /-- R46: 16-bit form of VSUB.F with implicit SC 1. -/
  | vsubF16 (d : BitVec 6) (a : BitVec 5)
  /-- R46: 16-bit form of VMUL.F with implicit SC 1. -/
  | vmulF16 (d : BitVec 6) (a : BitVec 5)
  /-- R46: 16-bit form of VMAX.F with implicit SC 1. -/
  | vmaxF16 (d : BitVec 6) (a : BitVec 5)
  /-- R46: 16-bit form of VMIN.F with implicit SC 1. -/
  | vminF16 (d : BitVec 6) (a : BitVec 5)
  /-- R46: 16-bit form of VMULLO with implicit SC 1. -/
  | vmullo16 (d : BitVec 6) (a : BitVec 5)
  /-- R46: 16-bit form of VSHRS. -/
  | vshrs16 (d : BitVec 6) (a : BitVec 5)
  /-- R46: 16-bit form of VNOT reading only va. -/
  | vnot16 (d : BitVec 6) (a : BitVec 5)
  /-- R98: Does nothing. -/
  | nop
  /-- R89: Consumes U or pops the path stack, restoring exec and fmt. -/
  | join
  /-- R85: Checks depth and path stack and returns to s61. -/
  | ret
  /-- R101: Performs the implicit team COMMIT and begins ending the group. -/
  | endI
  /-- R36: Marks the team committed, finalises tentative pops and releases held entries in order. -/
  | commit
  /-- R107: Leaves the handler, re-issuing per-lane faults or resuming at EPC. -/
  | eret
  /-- R99: Gives the group the lowest issue rank and holds it. -/
  | yield
  /-- R100: Lowers effective priority by one and records the backoff anchor. -/
  | backoff
  /-- R108: Posts the group's fault records to the die's batcher and parks the group. -/
  | fpost
  /-- R191: Ends the matrix stream. -/
  | mend
  /-- R191: Matrix-stream no-operation. -/
  | mnop
  /-- R130: The translation, rights and alignment checks of an access end after a TLB or walk and any trap is taken.
  Arguments: a the g. -/
  | checkPhaseEnd
  /-- R147: A translation-register fill completes, setting frame, limit and perm and lowering GLD. Arguments: a the
  acc. -/
  | xlateFillEnd
  /-- R211: A missed instruction-cache line arrives and the group becomes fetchable. Arguments: a the core, b the line. -/
  | icacheFill
  /-- R224: A store's reach widens to the next scope point, joining co(x) at home. Arguments: a the sid. -/
  | perform
  /-- R226: A pending load lane returns a store and its counter may fall. Arguments: a the acc, b the lane, c the
  flips, flag the useLine; with flag2, a group a and the place d of on-chip state. -/
  | read
  /-- R234: An atomic lane reads and updates a word at home in one step. Arguments: a the acc, b the lane. -/
  | atomic
  /-- R224: A core's L1 line takes the current store of a location. Arguments: a the core, loc the a. -/
  | fill
  /-- R224: A core's L1 line is removed. Arguments: a the core, loc the a. -/
  | evict
  /-- R162: The queue serves a waiting pop with an entry and the registers are written. Arguments: a the acc. -/
  | pop
  /-- R258: A spread chain link entry becomes poppable 16 clk after its QPUT. Arguments: a the chain, b the link. -/
  | linkEntryReady
  /-- R142: An SPOLLNE watch ends after 1,880 clk and returns the word read then. Arguments: a the acc. -/
  | spollneWindowEnd
  /-- R142: A watch on a host or peer page rereads the word every 256 clk. Arguments: a the acc. -/
  | spollneReread
  /-- R98: A DLY wait of n beats expires and the group may issue. Arguments: a the g. -/
  | dlyEnd
  /-- R99: A YIELD hold ends after 8 beats. Arguments: a the g. -/
  | yieldEnd
  /-- R101: A group whose COMMIT has returned and counters reached 0 ends. Arguments: a the g. -/
  | groupEnd
  /-- R153: A barrier whose count is complete and releases performed opens a new generation. Arguments: a the t, b. -/
  | barrierOpen
  /-- R155: A wave of released groups becomes eligible D clk after the previous one. Arguments: a the g. -/
  | barrierWave
  /-- R156: A die forwards its grid-barrier arrival to the package level. Arguments: a the grid, b the die, c the n. -/
  | gbarDieArrival
  /-- R156: The package level releases a grid barrier down to every die. Arguments: a the grid, b the n. -/
  | gbarRelease
  /-- R185: A plane step with every member arrived swaps present and next planes. Arguments: a the t, b the p. -/
  | swap
  /-- R36: A held commit-buffer entry is released once its target has room. Arguments: a the t. -/
  | heldEntryRelease
  /-- R337: A complete token at NEXT is pushed to its result queue and NEXT advances. Arguments: a the q, b the seq. -/
  | reorderRelease
  /-- R235: A copy job whose guard and footprint edges are clear starts. Arguments: a the j. -/
  | jobStart
  /-- R235: A running job reads source bytes from co(x). Arguments: a the j, b the run. -/
  | jobRead
  /-- R235: A running job writes converted destination bytes. Arguments: a the j, b the run. -/
  | jobWrite
  /-- R177: A job ends, writes its completion area with a release and sets its token. Arguments: a the j. -/
  | jobEnd
  /-- R216: An MMA retires 16 clk after issue, releasing tile interlocks. Arguments: a the t. -/
  | mmaRetire
  /-- R217: A matrix lease ends by count or time and passes to the next holder. Arguments: a the core. -/
  | leaseEnd
  /-- R326: A core's firmware agent claims the next ready team by fetch-and-add. Arguments: a the launch, pairs the
  places. -/
  | ticketClaim
  /-- R202: All groups and the stream of a placed team start in one clk with a DEVICE acquire. Arguments: a the launch. -/
  | teamStart
  /-- R203: A team whose groups, stream and jobs are done retires and releases resources. Arguments: a the t. -/
  | teamRetire
  /-- R332: The firing unit chooses an eligible expert queue and launches a sheaf with its batch. Arguments: a the die. -/
  | expertFire
  /-- R332: A queue's head age reaches T or 2T, making it eligible or overdue. Arguments: a the q. -/
  | expertAgeLimit
  /-- R108: A posting group's pages are applied and it performs ERET. Arguments: a the g. -/
  | fpostResume
  /-- R303: A parked instruction replays for its lanes when their pages become usable. Arguments: a the g. -/
  | parkReplay
  /-- R308: The oldest pending fault reaches 20 µs and a batch is written. Arguments: a the die. -/
  | faultBatchAge
  /-- R307: A posted fault waits FWAIT ms and the context ends. Arguments: a the ctx. -/
  | faultTimeout
  /-- R355: The host-absence clock reaches HOSTABS and the context ends. Arguments: a the ctx. -/
  | hostAbsence
  /-- R306: A store to the port's REQ maps a pool page for a first-touch address. Arguments: a the ctx. -/
  | firstTouchRequest
  /-- R306: A read of STATUS returns, waiting if needed, the latest request's outcome. Arguments: a the acc. -/
  | firstTouchStatus
  /-- R282: The Harrow captures a published record edit, accepting or refusing it. -/
  | capture
  /-- R294: The oldest pending notification reaches NHOLD µs and a message issues. -/
  | notifyHoldExpiry
  /-- R294: The host unmasks a vector and the held message issues. Arguments: a the v. -/
  | msixUnmask
  /-- R293: The host advances CONS and held notification events are written. Arguments: a the v. -/
  | notifyConsWrite
  /-- R308: The host advances the fault ring's CONS and held records are written. Arguments: a the v. -/
  | faultRingConsWrite
  /-- R293: A host write sets the count threshold, storing 1 for 0. Arguments: a the v. -/
  | ncountWrite
  /-- R294: A host write sets T_hold with clamping, applying to pending entries. Arguments: a the v. -/
  | nholdWrite
  /-- R274: A write to a register without a row of its own, writing only writable bytes. Arguments: a the reg, b the v. -/
  | registerWrite
  /-- R296: The CONTEXT admission step checks number, clusters and memory. Arguments: a the slot. -/
  | contextAdmit
  /-- R296: Creates the page table and reserves and maps the context's areas. Arguments: a the slot. -/
  | contextAllocate
  /-- R296: Binds a confidential context to its TDISP interface and IDE stream. Arguments: a the slot. -/
  | contextBind
  /-- R319: A CONTEXT DELETE reaches its first deletion step and the context ends as DELETED. Arguments: a the slot. -/
  | contextDelete
  /-- R301: One MAPPING creation step allocates or takes a frame and installs one page. Arguments: a the slot. -/
  | mappingPageApply
  /-- R301: One MAPPING deletion step releases a page after its shoot-down. Arguments: a the slot. -/
  | mappingPageRelease
  /-- R301: A PERM edit removes a right from one page with a shoot-down. Arguments: a the slot. -/
  | mappingPermNarrow
  /-- R312: Every core has acknowledged and the shoot-down completes. Arguments: a the sd. -/
  | shootdownAck
  /-- R276: The QUEUE admission step checks capacity. Arguments: a the slot. -/
  | queueAdmit
  /-- R161: Allocates queue storage and publishes the handle. Arguments: a the slot. -/
  | handlePublish
  /-- R276: Opens a queue for pushes and pops. Arguments: a the slot. -/
  | queueOpen
  /-- R359: First deletion step closes the queue and returns waiting empty pops. Arguments: a the slot. -/
  | queueClose
  /-- R359: Once empty with no pending pop, storage is released and the handle withdrawn. Arguments: a the slot. -/
  | queueRelease
  /-- R359: Ends the queue's admission and converges it as a tombstone. Arguments: a the slot. -/
  | queueEndAdmission
  /-- R335: Deletes an expert queue, draining by firings or returning tokens as failed. Arguments: a the slot. -/
  | expertQueueDelete
  /-- R344: The LINK admission step checks the named ports. Arguments: a the slot. -/
  | linkAdmit
  /-- R344: The connection step completes when the peer presents a matching LINK record. Arguments: a the slot, nats
  the peer's record, flag that it names this device. -/
  | linkConnect
  /-- R276: The PROGRAM admission step checks resources. Arguments: a the slot. -/
  | programAdmit
  /-- R381: Chooses the image variant by defect-map signature. Arguments: a the slot. -/
  | selectVariant
  /-- R402: Checks and relocates the image and checks FORM. Arguments: a the slot. -/
  | loadImage
  /-- R276: Binds the PROGRAM record's queue handles. Arguments: a the slot. -/
  | bindQueues
  /-- R404: Launches the grid, or completes for a running grid or expert program. Arguments: a the slot. -/
  | programLaunch
  /-- R265: At an equivalence point the chain's state moves between spread and folded. Arguments: a the chain, pairs
  the places. -/
  | chainMove
  /-- R266: The move completes and the chain runs in its new form. Arguments: a the chain. -/
  | chainMoveDone
  /-- R288: A PAUSE edit stops a record's work and pre-empts its teams. Arguments: a the slot. -/
  | pauseStep
  /-- R288: Clearing PAUSE resumes the record's work. Arguments: a the slot. -/
  | unpauseStep
  /-- R314: A pre-emption request stops a unit of teams and drains them. Arguments: a the t. -/
  | preempt
  /-- R318: A saved team resumes on a core meeting its needs. Arguments: a the t, b the core, c the partner. -/
  | teamResume
  /-- R310: The arbiter settles page requests once per 1 µs cycle and may start a move. Arguments: a the die. -/
  | migrationCycle
  /-- R311: A page move completes, writing LOC and clearing MOVING. Arguments: a the mv. -/
  | moveDone
  /-- R310: A page's REMOTE or PINNED hold ends after 10 ms. Arguments: a the ctx, b the va. -/
  | lockHoldExpiry
  /-- R353: A host link loss or reset revokes host translations and ends confidential contexts. -/
  | hostWarmRestart
  /-- R239: A host store joins co(x) with reach SYSTEM when its link write completes. Arguments: a the address, bytes,
  flag for host memory, nats the comparison value of an atomic. -/
  | hostWrite
  /-- R239: A host read returns the last SYSTEM-reach store. Arguments: a the address, b the len, flag for host memory. -/
  | hostRead
  /-- R340: An SPDM message from an interface owner loads an AES-GCM key slot. Arguments: a the tdi, b the ctx, c the
  slot, d the sender, bytes the key. -/
  | keyset
  /-- R342: Halts a core's groups and streams. Arguments: a the die, b the core, flag the session. -/
  | dbgHalt
  /-- R342: Returns an item of a group on a halted core. Arguments: a the die, b the core, c the slot, d the item, e
  the idx, flag the session. -/
  | dbgRead
  /-- R342: Writes an item of a group on a halted core. Arguments: a the die, b the core, c the slot, d the item, e
  the idx, nats the v, flag the session. -/
  | dbgWrite
  /-- R342: Issues one instruction of a halted group and halts again. Arguments: a the die, b the core, c the slot,
  flag the session. -/
  | dbgStep
  /-- R342: Makes a halted core's groups eligible again. Arguments: a the die, b the core, flag the session. -/
  | dbgResume
  /-- R378: A host chunk of a firmware image is written to the inactive bank and verified. Arguments: flag the
  session, bytes, flag2 the last. -/
  | fwstage
  /-- R379: Signs an SPDM measurement or challenge with the next one-time key. Arguments: bytes the msg. -/
  | spdmSign
  /-- R343: An Mbaux port loses lock and retrains. Arguments: a the port. -/
  | portLossOfLock
  /-- R347: A LINK port stays down over 1 ms and the record fails with in-flight work. Arguments: a the port. -/
  | linkDown
  /-- R346: An inbound REMOTE job's payload lands and the arrival word is incremented. Arguments: a the link, flag the
  add, flag2 the fint, b the va, c whether more of the payload follows, bytes. -/
  | inboundRemoteJob
  /-- R345: A peer access is performed or refused by the export window. Arguments: a the link, b the kind, c the va,
  bytes, d the op, e the len. -/
  | inboundAccess
  /-- R351: A received ST 2110 packet is stamped, judged against the reference and written. Arguments: a the q, b the
  ts, c the seq, d the stamp, e the line, f the byte in it, bytes, nats the addresses. -/
  | streamPacket
  /-- R351: A frame's DEADLINE expires and it closes PARTIAL. Arguments: a the q. -/
  | streamDeadline
  /-- R364: The scrubber reads and corrects a granule of its die's memory. Arguments: a the address, b the flips. -/
  | gleanerScrub
  /-- R370: A 250 ms normal-mode window ends and the island trims or backs off. Arguments: a the isl. -/
  | trimWindowEnd
  /-- R371: An island's one-hour bar ends. Arguments: a the isl. -/
  | barendExpiry
  /-- R372: An island whose groups mostly wait 2 µs enters near-threshold mode. Arguments: a the isl. -/
  | nearThresholdEntry
  /-- R220: An island leaves near-threshold mode when a group is ready with a vector instruction. Arguments: a the isl. -/
  | nearThresholdExit
  /-- R221: A register bank with no active user goes drowsy. Arguments: a the core, b the bank. -/
  | bankDrowsy
  /-- R221: A drowsy register bank completes its 8 clk wake. Arguments: a the core, b the bank. -/
  | bankWake
  /-- R374: The management core samples temperature and power every 100 µs. Arguments: a the die, nats the temps, b
  the watts. -/
  | sensorSample
  /-- R374: The issue throttle m moves down each 1 ms or up each 10 ms. Arguments: a the die. -/
  | throttleStep
  /-- R375: A supply droop sets every cluster's CSLR to the slow wave values. Arguments: a the die. -/
  | droopAlarm
  /-- R375: One millisecond after the last alarm the CSLR values are restored. Arguments: a the die. -/
  | droopRestore
  /-- R377: A management-core exception writes the crash record before reset. Arguments: a the cause, b the epc, nats
  s0 to s63. -/
  | firmwareException
  /-- R274: A cold reset zeroes slots and standing entries and fixes the defect map. Arguments: nats the defect. -/
  | coldReset
  /-- R376: Power-on zeroes the crash region and starts the boot count. Arguments: nats the defect. -/
  | powerOn
  /-- R54: A fetched word with a reserved major, minor or reserved bit traps ILLEGAL_INSTRUCTION. -/
  | illegalInstruction
  /-- R48: A fixed-latency result is written to its register L beats after its producer issued. Arguments: a the g. -/
  | writeLands
  /-- R349: The device's PTP clock gains lock, and later entries stop carrying UNLOCKED. -/
  | ptpLock
  /-- R349: The device's PTP clock loses lock, and entries carry UNLOCKED on the free-running clock. -/
  | ptpLockLoss
  /-- R343: A port that lost lock finishes retraining within 1 ms and resumes carrying flits. Arguments: a the port. -/
  | retrainingDone
  /-- R267: Under FORM POLICY, firmware requests a switch of a running chain by its occupancy policy. Arguments: a the
  slot, flag the folded. -/
  | formPolicyChoice
  /-- R288: One deletion step undoes a creation step of a PROGRAM, LINK, REORDER or STREAM record, in reverse order.
  Arguments: a the slot. -/
  | deletionStep
  /-- R374: After a thermal trip the device leaves reset once every cluster reads 90 °C or less. Arguments: nats the
  temps. -/
  | thermalResetRelease
  /-- R296: A host TDISP message moves an interface into or out of the RUN state on which confidential binding
  depends. Arguments: a the tdi, b the state, c the ide, d the owner. -/
  | tdispRequest
  deriving DecidableEq, Repr

end Sys2Proof
end

