-- ==== Sys2Proof/Decode.lean ====
section
/-!
DEFINITION. Reading instructions: Tables A.8 to A.21, R54 (which patterns are refused, by name), R56 (the
EXT pair), and after the decoder the encoder, written from the same tables.  Field `lo, n` of a word is the
n bits from bit lo; a word is read as the number whose bit 0 is its least significant bit (R7, R43).
-/

namespace Sys2Proof

/-- The n-bit field of a word that begins at bit lo. -/
def fld (w lo n : Nat) : Nat := w / 2 ^ lo % 2 ^ n

/-- A field as the bits an instruction carries. -/
def fldBV (w lo n : Nat) : BitVec n := BitVec.ofNat n (w / 2 ^ lo)

/-- Why a bit pattern is no instruction (R54, R56), each with the major opcode read. -/
inductive Reject where
  /-- fewer bytes than the instruction needs -/
  | truncated
  /-- a major opcode that Table A.13 reserves -/
  | reservedMajor (maj : Nat)
  /-- a minor value that Tables A.13 to A.21 reserve -/
  | reservedMinor (maj : Nat)
  /-- a reserved bit is not 0 -/
  | reservedBits (maj : Nat)
  /-- the EXT's own SC is not 0 -/
  | extStall
  deriving DecidableEq, Repr

/-- The outcome of reading bytes: an instruction and the bytes after it, or a named refusal. -/
inductive Decoded where
  | ok (i : Instr) (rest : List Byte)
  | no (r : Reject)
  deriving DecidableEq, Repr

/-- The instruction, when every reserved run of bits is 0 (R54). -/
def needZero (maj : Nat) (ok : Bool) (i : Instr) : Except Reject Instr :=
  if ok then .ok i else .error (.reservedBits maj)

/-- Major 0x00, VI3A. -/
def decVi3a (w : Nat) : Except Reject Instr :=
  match fld w 29 3 with
  | 0 => .ok (.vaddI (fldBV w 8 7) (fldBV w 15 7) (fldBV w 22 7))
  | 1 => .ok (.vsubI (fldBV w 8 7) (fldBV w 15 7) (fldBV w 22 7))
  | 2 => .ok (.vmullo (fldBV w 8 7) (fldBV w 15 7) (fldBV w 22 7))
  | 3 => .ok (.vmulhiS (fldBV w 8 7) (fldBV w 15 7) (fldBV w 22 7))
  | 4 => .ok (.vmulhiZ (fldBV w 8 7) (fldBV w 15 7) (fldBV w 22 7))
  | 5 => .ok (.vand (fldBV w 8 7) (fldBV w 15 7) (fldBV w 22 7))
  | 6 => .ok (.vor (fldBV w 8 7) (fldBV w 15 7) (fldBV w 22 7))
  | _ => .ok (.vxor (fldBV w 8 7) (fldBV w 15 7) (fldBV w 22 7))

/-- Major 0x01, VI3B. -/
def decVi3b (w : Nat) : Except Reject Instr :=
  match fld w 29 3 with
  | 0 => .ok (.vshl (fldBV w 8 7) (fldBV w 15 7) (fldBV w 22 7))
  | 1 => .ok (.vshrz (fldBV w 8 7) (fldBV w 15 7) (fldBV w 22 7))
  | 2 => .ok (.vshrs (fldBV w 8 7) (fldBV w 15 7) (fldBV w 22 7))
  | 3 => .ok (.vminS (fldBV w 8 7) (fldBV w 15 7) (fldBV w 22 7))
  | 4 => .ok (.vmaxS (fldBV w 8 7) (fldBV w 15 7) (fldBV w 22 7))
  | 5 => .ok (.vminZ (fldBV w 8 7) (fldBV w 15 7) (fldBV w 22 7))
  | 6 => .ok (.vmaxZ (fldBV w 8 7) (fldBV w 15 7) (fldBV w 22 7))
  | _ => .ok (.vrotl (fldBV w 8 7) (fldBV w 15 7) (fldBV w 22 7))

/-- Major 0x02, VF3A. -/
def decVf3a (w : Nat) : Except Reject Instr :=
  match fld w 29 3 with
  | 0 => .ok (.vaddF (fldBV w 8 7) (fldBV w 15 7) (fldBV w 22 7))
  | 1 => .ok (.vsubF (fldBV w 8 7) (fldBV w 15 7) (fldBV w 22 7))
  | 2 => .ok (.vmulF (fldBV w 8 7) (fldBV w 15 7) (fldBV w 22 7))
  | 3 => .ok (.vfmaF (fldBV w 8 7) (fldBV w 15 7) (fldBV w 22 7))
  | 4 => .ok (.vfnmaF (fldBV w 8 7) (fldBV w 15 7) (fldBV w 22 7))
  | 5 => .ok (.vminF (fldBV w 8 7) (fldBV w 15 7) (fldBV w 22 7))
  | 6 => .ok (.vmaxF (fldBV w 8 7) (fldBV w 15 7) (fldBV w 22 7))
  | _ => .ok (.vcpsgn (fldBV w 8 7) (fldBV w 15 7) (fldBV w 22 7))

/-- Major 0x03, VF3H. -/
def decVf3h (w : Nat) : Except Reject Instr :=
  match fld w 29 3 with
  | 0 => .ok (.vaddH (fldBV w 8 7) (fldBV w 15 7) (fldBV w 22 7))
  | 1 => .ok (.vmulH (fldBV w 8 7) (fldBV w 15 7) (fldBV w 22 7))
  | 2 => .ok (.vfmaH (fldBV w 8 7) (fldBV w 15 7) (fldBV w 22 7))
  | 3 => .ok (.vdot2H (fldBV w 8 7) (fldBV w 15 7) (fldBV w 22 7))
  | 4 => .ok (.vaddBf (fldBV w 8 7) (fldBV w 15 7) (fldBV w 22 7))
  | 5 => .ok (.vmulBf (fldBV w 8 7) (fldBV w 15 7) (fldBV w 22 7))
  | 6 => .ok (.vfmaBf (fldBV w 8 7) (fldBV w 15 7) (fldBV w 22 7))
  | _ => .ok (.vdot2Bf (fldBV w 8 7) (fldBV w 15 7) (fldBV w 22 7))

/-- Major 0x04, VCMP. -/
def decVcmp (w : Nat) : Except Reject Instr :=
  match fld w 28 4 with
  | 0 => .ok (.vcmpEqF (fldBV w 8 6) (fldBV w 14 7) (fldBV w 21 7))
  | 1 => .ok (.vcmpNeF (fldBV w 8 6) (fldBV w 14 7) (fldBV w 21 7))
  | 2 => .ok (.vcmpLtF (fldBV w 8 6) (fldBV w 14 7) (fldBV w 21 7))
  | 3 => .ok (.vcmpLeF (fldBV w 8 6) (fldBV w 14 7) (fldBV w 21 7))
  | 4 => .ok (.vcmpGtF (fldBV w 8 6) (fldBV w 14 7) (fldBV w 21 7))
  | 5 => .ok (.vcmpGeF (fldBV w 8 6) (fldBV w 14 7) (fldBV w 21 7))
  | 6 => .ok (.vcmpUnF (fldBV w 8 6) (fldBV w 14 7) (fldBV w 21 7))
  | 7 => .ok (.vcmpOrF (fldBV w 8 6) (fldBV w 14 7) (fldBV w 21 7))
  | 8 => .ok (.vcmpEqI (fldBV w 8 6) (fldBV w 14 7) (fldBV w 21 7))
  | 9 => .ok (.vcmpNeI (fldBV w 8 6) (fldBV w 14 7) (fldBV w 21 7))
  | 10 => .ok (.vcmpLtS (fldBV w 8 6) (fldBV w 14 7) (fldBV w 21 7))
  | 11 => .ok (.vcmpLeS (fldBV w 8 6) (fldBV w 14 7) (fldBV w 21 7))
  | 12 => .ok (.vcmpLtZ (fldBV w 8 6) (fldBV w 14 7) (fldBV w 21 7))
  | 13 => .ok (.vcmpLeZ (fldBV w 8 6) (fldBV w 14 7) (fldBV w 21 7))
  | 14 => .ok (.vcmpTst (fldBV w 8 6) (fldBV w 14 7) (fldBV w 21 7))
  | _ => .ok (.vcmpNtst (fldBV w 8 6) (fldBV w 14 7) (fldBV w 21 7))

/-- Major 0x05, VVI. -/
def decVvi (w : Nat) : Except Reject Instr :=
  match fld w 29 3 with
  | 0 => .ok (.vaddi (fldBV w 8 7) (fldBV w 15 7) (fldBV w 22 7))
  | 1 => .ok (.vandi (fldBV w 8 7) (fldBV w 15 7) (fldBV w 22 7))
  | 2 => .ok (.vori (fldBV w 8 7) (fldBV w 15 7) (fldBV w 22 7))
  | 3 => .ok (.vxori (fldBV w 8 7) (fldBV w 15 7) (fldBV w 22 7))
  | 4 => .ok (.vshli (fldBV w 8 7) (fldBV w 15 7) (fldBV w 22 7))
  | 5 => .ok (.vshrzi (fldBV w 8 7) (fldBV w 15 7) (fldBV w 22 7))
  | 6 => .ok (.vshrsi (fldBV w 8 7) (fldBV w 15 7) (fldBV w 22 7))
  | _ => .ok (.vmuli (fldBV w 8 7) (fldBV w 15 7) (fldBV w 22 7))

/-- Major 0x06, VUN. -/
def decVun (w : Nat) : Except Reject Instr :=
  match fld w 22 10 with
  | 0 => .ok (.vcvt (fldBV w 8 7) (fldBV w 15 7))
  | 1 => .ok (.vcvtfS (fldBV w 8 7) (fldBV w 15 7))
  | 2 => .ok (.vcvtsF (fldBV w 8 7) (fldBV w 15 7))
  | 3 => .ok (.vcvtfZ (fldBV w 8 7) (fldBV w 15 7))
  | 4 => .ok (.vcvtzF (fldBV w 8 7) (fldBV w 15 7))
  | 8 => .ok (.vpkbx8 (fldBV w 8 7) (fldBV w 15 7))
  | 9 => .ok (.vupbx8 (fldBV w 8 7) (fldBV w 15 7))
  | 10 => .ok (.vpkbx4 (fldBV w 8 7) (fldBV w 15 7))
  | 11 => .ok (.vupbx4 (fldBV w 8 7) (fldBV w 15 7))
  | 12 => .ok (.vpkf8 (fldBV w 8 7) (fldBV w 15 7))
  | 13 => .ok (.vupf8 (fldBV w 8 7) (fldBV w 15 7))
  | 64 => .ok (.vrcp (fldBV w 8 7) (fldBV w 15 7))
  | 65 => .ok (.vrsq (fldBV w 8 7) (fldBV w 15 7))
  | 66 => .ok (.vsqrt (fldBV w 8 7) (fldBV w 15 7))
  | 67 => .ok (.vexp2 (fldBV w 8 7) (fldBV w 15 7))
  | 68 => .ok (.vlog2 (fldBV w 8 7) (fldBV w 15 7))
  | 69 => .ok (.vsinpi (fldBV w 8 7) (fldBV w 15 7))
  | 70 => .ok (.vcospi (fldBV w 8 7) (fldBV w 15 7))
  | 71 => .ok (.vtanh (fldBV w 8 7) (fldBV w 15 7))
  | 128 => .ok (.vabsF (fldBV w 8 7) (fldBV w 15 7))
  | 129 => .ok (.vnegF (fldBV w 8 7) (fldBV w 15 7))
  | 130 => .ok (.vfloor (fldBV w 8 7) (fldBV w 15 7))
  | 131 => .ok (.vfract (fldBV w 8 7) (fldBV w 15 7))
  | 132 => .ok (.vabsI (fldBV w 8 7) (fldBV w 15 7))
  | 133 => .ok (.vnegI (fldBV w 8 7) (fldBV w 15 7))
  | 134 => .ok (.vnot (fldBV w 8 7) (fldBV w 15 7))
  | 135 => .ok (.vpopc (fldBV w 8 7) (fldBV w 15 7))
  | 136 => .ok (.vclz (fldBV w 8 7) (fldBV w 15 7))
  | 137 => .ok (.vbrev (fldBV w 8 7) (fldBV w 15 7))
  | _ => .error (.reservedMinor 0x06)

/-- Major 0x07, VLANE. -/
def decVlane (w : Nat) : Except Reject Instr :=
  match fld w 29 3 with
  | 0 => .ok (.vshfl (fldBV w 8 7) (fldBV w 15 7) (fldBV w 22 7))
  | 1 => .ok (.vshflx (fldBV w 8 7) (fldBV w 15 7) (fldBV w 22 7))
  | 2 => .ok (.vshflup (fldBV w 8 7) (fldBV w 15 7) (fldBV w 22 7))
  | 3 => .ok (.vshfldn (fldBV w 8 7) (fldBV w 15 7) (fldBV w 22 7))
  | 4 => .ok (.vbcast (fldBV w 8 7) (fldBV w 15 7) (fldBV w 22 7))
  | 5 => needZero 0x07 (fld w 22 7 == 0) (.vraddF (fldBV w 8 7) (fldBV w 15 7))
  | 6 => needZero 0x07 (fld w 22 7 == 0) (.vrmaxF (fldBV w 8 7) (fldBV w 15 7))
  | _ => needZero 0x07 (fld w 22 7 == 0) (.vscanF (fldBV w 8 7) (fldBV w 15 7))

/-- Major 0x08, VMOVS. -/
def decVmovs (w : Nat) : Except Reject Instr :=
  match fld w 26 6 with
  | 0 => needZero 0x08 (fld w 21 5 == 0) (.vbcs (fldBV w 8 7) (fldBV w 15 6))
  | 1 => .ok (.vmovsl (fldBV w 8 7) (fldBV w 15 6) (fldBV w 21 5))
  | 2 => needZero 0x08 (fld w 15 11 == 0) (.vlaneid (fldBV w 8 7))
  | 3 => .ok (.vsetl (fldBV w 8 7) (fldBV w 15 6) (fldBV w 21 5))
  | _ => .error (.reservedMinor 0x08)

/-- Major 0x09, SALU. -/
def decSalu (w : Nat) : Except Reject Instr :=
  match fld w 26 6 with
  | 0 => .ok (.sadd (fldBV w 8 6) (fldBV w 14 6) (fldBV w 20 6))
  | 1 => .ok (.ssub (fldBV w 8 6) (fldBV w 14 6) (fldBV w 20 6))
  | 2 => .ok (.smul (fldBV w 8 6) (fldBV w 14 6) (fldBV w 20 6))
  | 3 => .ok (.smulhs (fldBV w 8 6) (fldBV w 14 6) (fldBV w 20 6))
  | 4 => .ok (.smulhz (fldBV w 8 6) (fldBV w 14 6) (fldBV w 20 6))
  | 5 => .ok (.sand (fldBV w 8 6) (fldBV w 14 6) (fldBV w 20 6))
  | 6 => .ok (.sor (fldBV w 8 6) (fldBV w 14 6) (fldBV w 20 6))
  | 7 => .ok (.sxor (fldBV w 8 6) (fldBV w 14 6) (fldBV w 20 6))
  | 8 => .ok (.sandn (fldBV w 8 6) (fldBV w 14 6) (fldBV w 20 6))
  | 9 => .ok (.sshl (fldBV w 8 6) (fldBV w 14 6) (fldBV w 20 6))
  | 10 => .ok (.sshrz (fldBV w 8 6) (fldBV w 14 6) (fldBV w 20 6))
  | 11 => .ok (.sshrs (fldBV w 8 6) (fldBV w 14 6) (fldBV w 20 6))
  | 12 => .ok (.smins (fldBV w 8 6) (fldBV w 14 6) (fldBV w 20 6))
  | 13 => .ok (.smaxs (fldBV w 8 6) (fldBV w 14 6) (fldBV w 20 6))
  | 14 => .ok (.sminz (fldBV w 8 6) (fldBV w 14 6) (fldBV w 20 6))
  | 15 => .ok (.smaxz (fldBV w 8 6) (fldBV w 14 6) (fldBV w 20 6))
  | 16 => .ok (.sslts (fldBV w 8 6) (fldBV w 14 6) (fldBV w 20 6))
  | 17 => .ok (.ssltz (fldBV w 8 6) (fldBV w 14 6) (fldBV w 20 6))
  | 18 => .ok (.sseq (fldBV w 8 6) (fldBV w 14 6) (fldBV w 20 6))
  | 19 => needZero 0x09 (fld w 20 6 == 0) (.spopc (fldBV w 8 6) (fldBV w 14 6))
  | 20 => needZero 0x09 (fld w 20 6 == 0) (.sctz (fldBV w 8 6) (fldBV w 14 6))
  | 21 => needZero 0x09 (fld w 20 6 == 0) (.sclz (fldBV w 8 6) (fldBV w 14 6))
  | 22 => .ok (.sbfe (fldBV w 8 6) (fldBV w 14 6) (fldBV w 20 6))
  | 23 => .ok (.sbfi (fldBV w 8 6) (fldBV w 14 6) (fldBV w 20 6))
  | 24 => .ok (.sadd64 (fldBV w 8 6) (fldBV w 14 6) (fldBV w 20 6))
  | 25 => .ok (.ssub64 (fldBV w 8 6) (fldBV w 14 6) (fldBV w 20 6))
  | 26 => .ok (.sshl64 (fldBV w 8 6) (fldBV w 14 6) (fldBV w 20 6))
  | 27 => .ok (.sshrz64 (fldBV w 8 6) (fldBV w 14 6) (fldBV w 20 6))
  | 28 => .ok (.ssel (fldBV w 8 6) (fldBV w 14 6) (fldBV w 20 6))
  | _ => .error (.reservedMinor 0x09)

/-- Major 0x0A, SIMM. -/
def decSimm (w : Nat) : Except Reject Instr :=
  match fld w 20 2 with
  | 0 => .ok (.saddi (fldBV w 8 6) (fldBV w 14 6) (fldBV w 22 10))
  | 1 => .ok (.sandi (fldBV w 8 6) (fldBV w 14 6) (fldBV w 22 10))
  | 2 => .ok (.sori (fldBV w 8 6) (fldBV w 14 6) (fldBV w 22 10))
  | _ => .ok (.sxori (fldBV w 8 6) (fldBV w 14 6) (fldBV w 22 10))

/-- Major 0x0B, SLUI. -/
def decSlui (w : Nat) : Except Reject Instr :=
  .ok (.slui (fldBV w 8 6) (fldBV w 14 18))

/-- Major 0x0C, SSYS. -/
def decSsys (w : Nat) : Except Reject Instr :=
  match fld w 8 6 with
  | 1 => .ok (.dly (fldBV w 14 6) (fldBV w 20 12))
  | 2 => needZero 0x0C (fld w 26 6 == 0) (.srd (fldBV w 14 6) (fldBV w 20 6))
  | 3 => needZero 0x0C (fld w 26 6 == 0) (.swr (fldBV w 14 6) (fldBV w 20 6))
  | 4 => needZero 0x0C (fld w 20 12 == 0) (.sexec (fldBV w 14 6))
  | 5 => needZero 0x0C (fld w 20 12 == 0) (.sexecand (fldBV w 14 6))
  | 6 => needZero 0x0C (fld w 20 12 == 0) (.sexecandn (fldBV w 14 6))
  | 7 => needZero 0x0C (fld w 20 12 == 0) (.sgetexec (fldBV w 14 6))
  | 8 => needZero 0x0C (fld w 20 12 == 0) (.fmtset (fldBV w 14 6))
  | 9 => needZero 0x0C (fld w 20 12 == 0) (.fmtget (fldBV w 14 6))
  | 12 => needZero 0x0C (fld w 20 12 == 0) (.jmpr (fldBV w 14 6))
  | 13 => needZero 0x0C (fld w 20 12 == 0) (.callr (fldBV w 14 6))
  | 16 => .ok (.trap (fldBV w 14 18))
  | 18 => .ok (.brk (fldBV w 14 18))
  | 21 => needZero 0x0C (fld w 26 6 == 0) (.launch (fldBV w 14 6) (fldBV w 20 6))
  | 22 => needZero 0x0C (fld w 20 12 == 0) (.gset (fldBV w 14 4) (fldBV w 18 2))
  | 23 => needZero 0x0C (fld w 18 14 == 0) (.gclr (fldBV w 14 4))
  | 0 => needZero 0x0C (fld w 14 18 == 0) .nop
  | 10 => needZero 0x0C (fld w 14 18 == 0) .join
  | 11 => needZero 0x0C (fld w 14 18 == 0) .ret
  | 14 => needZero 0x0C (fld w 14 18 == 0) .endI
  | 15 => needZero 0x0C (fld w 14 18 == 0) .commit
  | 17 => needZero 0x0C (fld w 14 18 == 0) .eret
  | 19 => needZero 0x0C (fld w 14 18 == 0) .yield
  | 20 => needZero 0x0C (fld w 14 18 == 0) .backoff
  | 24 => needZero 0x0C (fld w 14 18 == 0) .fpost
  | _ => .error (.reservedMinor 0x0C)

/-- Major 0x0D, BR. -/
def decBr (w : Nat) : Except Reject Instr :=
  match fld w 14 3 with
  | 0 => needZero 0x0D (fld w 8 6 == 0 && fld w 17 1 == 0) (.brAlways (fldBV w 18 14))
  | 1 => needZero 0x0D (fld w 17 1 == 0) (.brSz (fldBV w 8 6) (fldBV w 18 14))
  | 2 => needZero 0x0D (fld w 17 1 == 0) (.brSnz (fldBV w 8 6) (fldBV w 18 14))
  | 3 => needZero 0x0D (fld w 17 1 == 0) (.brSneg (fldBV w 8 6) (fldBV w 18 14))
  | 4 => needZero 0x0D (fld w 17 1 == 0) (.brSnneg (fldBV w 8 6) (fldBV w 18 14))
  | 5 => needZero 0x0D (fld w 8 6 == 0 && fld w 17 1 == 0) (.brExecz (fldBV w 18 14))
  | 6 => needZero 0x0D (fld w 8 6 == 0 && fld w 17 1 == 0) (.brExecnz (fldBV w 18 14))
  | _ => needZero 0x0D (fld w 8 6 == 0 && fld w 17 1 == 0) (.brExecall (fldBV w 18 14))

/-- Major 0x0E, DBR. -/
def decDbr (w : Nat) : Except Reject Instr :=
  match fld w 14 1 with
  | 0 => needZero 0x0E (fld w 15 3 == 0) (.dbr (fldBV w 8 6) (fldBV w 18 14))
  | _ => needZero 0x0E (fld w 15 3 == 0) (.dbrT (fldBV w 8 6) (fldBV w 18 14))

/-- Major 0x0F, CALL. -/
def decCall (w : Nat) : Except Reject Instr :=
  .ok (.call (fldBV w 8 24))

/-- Major 0x10, LOOP. -/
def decLoop (w : Nat) : Except Reject Instr :=
  needZero 0x10 ((fld w 8 6 == 0 || fld w 14 8 == 0)) (.loop (fldBV w 8 6) (fldBV w 14 8) (fldBV w 22 10))

/-- Major 0x11, LD. -/
def decLd (w : Nat) : Except Reject Instr :=
  .ok (.ld (fldBV w 8 7) (fldBV w 15 3) (fldBV w 18 7) (fldBV w 25 3) (fldBV w 28 3) (fldBV w 31 1))

/-- Major 0x12, ST. -/
def decSt (w : Nat) : Except Reject Instr :=
  needZero 0x12 (fld w 31 1 == 0) (.st (fldBV w 8 7) (fldBV w 15 3) (fldBV w 18 7) (fldBV w 25 3) (fldBV w 28 3))

/-- Major 0x13, ATOM. -/
def decAtom (w : Nat) : Except Reject Instr :=
  match fld w 25 4 with
  | 0 => .ok (.atomAdd (fldBV w 8 7) (fldBV w 15 3) (fldBV w 18 7) (fldBV w 29 3))
  | 1 => .ok (.atomMinS (fldBV w 8 7) (fldBV w 15 3) (fldBV w 18 7) (fldBV w 29 3))
  | 2 => .ok (.atomMaxS (fldBV w 8 7) (fldBV w 15 3) (fldBV w 18 7) (fldBV w 29 3))
  | 3 => .ok (.atomMinZ (fldBV w 8 7) (fldBV w 15 3) (fldBV w 18 7) (fldBV w 29 3))
  | 4 => .ok (.atomMaxZ (fldBV w 8 7) (fldBV w 15 3) (fldBV w 18 7) (fldBV w 29 3))
  | 5 => .ok (.atomAnd (fldBV w 8 7) (fldBV w 15 3) (fldBV w 18 7) (fldBV w 29 3))
  | 6 => .ok (.atomOr (fldBV w 8 7) (fldBV w 15 3) (fldBV w 18 7) (fldBV w 29 3))
  | 7 => .ok (.atomXor (fldBV w 8 7) (fldBV w 15 3) (fldBV w 18 7) (fldBV w 29 3))
  | 8 => .ok (.atomXchg (fldBV w 8 7) (fldBV w 15 3) (fldBV w 18 7) (fldBV w 29 3))
  | 9 => .ok (.atomCas (fldBV w 8 7) (fldBV w 15 3) (fldBV w 18 7) (fldBV w 29 3))
  | 10 => .ok (.atomAddF (fldBV w 8 7) (fldBV w 15 3) (fldBV w 18 7) (fldBV w 29 3))
  | 11 => .ok (.atomMaxF (fldBV w 8 7) (fldBV w 15 3) (fldBV w 18 7) (fldBV w 29 3))
  | 12 => .ok (.atomMinF (fldBV w 8 7) (fldBV w 15 3) (fldBV w 18 7) (fldBV w 29 3))
  | _ => .error (.reservedMinor 0x13)

/-- Major 0x14, SMEM. -/
def decSmem (w : Nat) : Except Reject Instr :=
  match fld w 17 3 with
  | 0 => .ok (.sld (fldBV w 8 6) (fldBV w 14 3) (fldBV w 20 12))
  | 1 => .ok (.sld64 (fldBV w 8 6) (fldBV w 14 3) (fldBV w 20 12))
  | 2 => .ok (.sst (fldBV w 8 6) (fldBV w 14 3) (fldBV w 20 12))
  | 3 => .ok (.sst64 (fldBV w 8 6) (fldBV w 14 3) (fldBV w 20 12))
  | 4 => .ok (.satadd (fldBV w 8 6) (fldBV w 14 3) (fldBV w 20 12))
  | 5 => .ok (.satcas (fldBV w 8 6) (fldBV w 14 3) (fldBV w 20 12))
  | 6 => .ok (.spollne (fldBV w 8 6) (fldBV w 14 3) (fldBV w 20 12))
  | _ => .ok (.sldacq (fldBV w 8 6) (fldBV w 14 3) (fldBV w 20 12))

/-- Major 0x15, SPAD. -/
def decSpad (w : Nat) : Except Reject Instr :=
  match fld w 22 4 with
  | 0 => .ok (.spld (fldBV w 8 7) (fldBV w 15 7) (fldBV w 26 6))
  | 1 => .ok (.spldq (fldBV w 8 7) (fldBV w 15 7) (fldBV w 26 6))
  | 2 => .ok (.spst (fldBV w 8 7) (fldBV w 15 7) (fldBV w 26 6))
  | 3 => .ok (.spstq (fldBV w 8 7) (fldBV w 15 7) (fldBV w 26 6))
  | 4 => .ok (.vtaglk (fldBV w 8 7) (fldBV w 15 7) (fldBV w 26 6))
  | 5 => .ok (.tagset (fldBV w 8 7) (fldBV w 15 7) (fldBV w 26 6))
  | 6 => .ok (.tagclr (fldBV w 8 7) (fldBV w 15 7) (fldBV w 26 6))
  | 7 => .ok (.spatadd (fldBV w 8 7) (fldBV w 15 7) (fldBV w 26 6))
  | 8 => .ok (.spataddF (fldBV w 8 7) (fldBV w 15 7) (fldBV w 26 6))
  | _ => .error (.reservedMinor 0x15)

/-- Major 0x16, SYNC. -/
def decSync (w : Nat) : Except Reject Instr :=
  match fld w 8 5 with
  | 0 => needZero 0x16 (fld w 18 14 == 0) (.fence (fldBV w 13 3) (fldBV w 16 2))
  | 1 => needZero 0x16 (fld w 17 15 == 0) (.bara (fldBV w 13 4))
  | 2 => needZero 0x16 (fld w 17 15 == 0) (.barw (fldBV w 13 4))
  | 3 => needZero 0x16 (fld w 17 15 == 0) (.bars (fldBV w 13 4))
  | 4 => needZero 0x16 (fld w 15 17 == 0) (.gbar (fldBV w 13 2))
  | 5 => needZero 0x16 (fld w 22 10 == 0) (.waitcnt (fldBV w 13 3) (fldBV w 16 6))
  | 6 => needZero 0x16 (fld w 16 16 == 0) (.waitk (fldBV w 13 3))
  | 7 => needZero 0x16 (fld w 22 10 == 0) (.xlate (fldBV w 13 3) (fldBV w 16 6))
  | 8 => needZero 0x16 (fld w 16 16 == 0) (.xinv (fldBV w 13 3))
  | 9 => needZero 0x16 (fld w 23 9 == 0) (.bari (fldBV w 13 4) (fldBV w 17 6))
  | _ => .error (.reservedMinor 0x16)

/-- Major 0x17, QREG. -/
def decQreg (w : Nat) : Except Reject Instr :=
  match fld w 8 4 with
  | 0 => needZero 0x17 (fld w 16 7 == 0 && fld w 31 1 == 0) (.qbind (fldBV w 12 4) (fldBV w 23 2) (fldBV w 25 6))
  | 1 => needZero 0x17 (fld w 25 7 == 0) (.qget (fldBV w 12 4) (fldBV w 16 7) (fldBV w 23 2))
  | 2 => needZero 0x17 (fld w 25 7 == 0) (.qput (fldBV w 12 4) (fldBV w 16 7) (fldBV w 23 2))
  | 3 => needZero 0x17 (fld w 31 1 == 0) (.qtry (fldBV w 12 4) (fldBV w 16 7) (fldBV w 23 2) (fldBV w 25 6))
  | 4 => needZero 0x17 (fld w 31 1 == 0) (.qtryp (fldBV w 12 4) (fldBV w 16 7) (fldBV w 23 2) (fldBV w 25 6))
  | 5 => needZero 0x17 (fld w 16 9 == 0 && fld w 31 1 == 0) (.qstat (fldBV w 12 4) (fldBV w 25 6))
  | 6 => needZero 0x17 (fld w 16 16 == 0) (.qunbind (fldBV w 12 4))
  | _ => .error (.reservedMinor 0x17)

/-- Major 0x18, COPY. -/
def decCopy (w : Nat) : Except Reject Instr :=
  match fld w 8 3 with
  | 0 => needZero 0x18 (fld w 28 4 == 0 && (fld w 27 1 == 1 || fld w 23 4 == 0)) (.cpy (fldBV w 11 3) (fldBV w 14 3) (fldBV w 17 6) (fldBV w 23 4) (fldBV w 27 1))
  | 1 => needZero 0x18 (fld w 14 3 == 0 && fld w 23 9 == 0) (.kstat (fldBV w 11 3) (fldBV w 17 6))
  | 2 => needZero 0x18 (fld w 14 3 == 0 && fld w 23 9 == 0) (.kbytes (fldBV w 11 3) (fldBV w 17 6))
  | 3 => needZero 0x18 (fld w 14 18 == 0) (.kclr (fldBV w 11 3))
  | 4 => needZero 0x18 (fld w 14 18 == 0) (.kreplay (fldBV w 11 3))
  | _ => .error (.reservedMinor 0x18)

/-- Major 0x19, PLANE. -/
def decPlane (w : Nat) : Except Reject Instr :=
  match fld w 8 2 with
  | 0 => needZero 0x19 (fld w 27 5 == 0) (.pld (fldBV w 10 3) (fldBV w 13 7) (fldBV w 20 7))
  | 1 => needZero 0x19 (fld w 27 5 == 0) (.pst (fldBV w 10 3) (fldBV w 13 7) (fldBV w 20 7))
  | 2 => needZero 0x19 (fld w 13 19 == 0) (.pstep (fldBV w 10 3))
  | _ => needZero 0x19 (fld w 27 5 == 0) (.pqry (fldBV w 10 3) (fldBV w 13 7) (fldBV w 20 7))

/-- Major 0x1C, MSTR. -/
def decMstr (w : Nat) : Except Reject Instr :=
  match fld w 8 4 with
  | 0 => needZero 0x1C (fld w 1 2 == 0) (.mma (fldBV w 12 4) (fldBV w 16 8) (fldBV w 24 8))
  | 1 => needZero 0x1C (fld w 1 2 == 0 && fld w 16 16 == 0) (.mzero (fldBV w 12 4))
  | 2 => needZero 0x1C (fld w 1 2 == 0 && fld w 16 16 == 0) (.mwaitb (fldBV w 12 4))
  | 3 => needZero 0x1C (fld w 1 2 == 0 && fld w 16 16 == 0) (.msigb (fldBV w 12 4))
  | 4 => needZero 0x1C (fld w 1 2 == 0) (.mloop (fldBV w 12 8) (fldBV w 20 12))
  | 5 => needZero 0x1C (fld w 1 2 == 0 && fld w 20 12 == 0) (.mfmt (fldBV w 12 8))
  | 6 => needZero 0x1C (fld w 1 2 == 0 && fld w 12 20 == 0) .mend
  | 7 => needZero 0x1C (fld w 1 2 == 0 && fld w 12 20 == 0) .mnop
  | _ => .error (.reservedMinor 0x1C)

/-- Major 0x1D, ACC. -/
def decAcc (w : Nat) : Except Reject Instr :=
  match fld w 8 2 with
  | 0 => needZero 0x1D (fld w 26 6 == 0) (.accrd (fldBV w 10 4) (fldBV w 14 7) (fldBV w 21 5))
  | 1 => needZero 0x1D (fld w 26 6 == 0) (.accwr (fldBV w 10 4) (fldBV w 14 7) (fldBV w 21 5))
  | 2 => needZero 0x1D (fld w 26 6 == 0) (.accrdc (fldBV w 10 4) (fldBV w 14 7) (fldBV w 21 5))
  | _ => .error (.reservedMinor 0x1D)

/-- A 32-bit word other than EXT, by its major opcode (R52). -/
def decode32 (w : Nat) : Except Reject Instr :=
  match fld w 3 5 with
  | 0x00 => decVi3a w
  | 0x01 => decVi3b w
  | 0x02 => decVf3a w
  | 0x03 => decVf3h w
  | 0x04 => decVcmp w
  | 0x05 => decVvi w
  | 0x06 => decVun w
  | 0x07 => decVlane w
  | 0x08 => decVmovs w
  | 0x09 => decSalu w
  | 0x0A => decSimm w
  | 0x0B => decSlui w
  | 0x0C => decSsys w
  | 0x0D => decBr w
  | 0x0E => decDbr w
  | 0x0F => decCall w
  | 0x10 => decLoop w
  | 0x11 => decLd w
  | 0x12 => decSt w
  | 0x13 => decAtom w
  | 0x14 => decSmem w
  | 0x15 => decSpad w
  | 0x16 => decSync w
  | 0x17 => decQreg w
  | 0x18 => decCopy w
  | 0x19 => decPlane w
  | 0x1C => decMstr w
  | 0x1D => decAcc w
  | m => .error (.reservedMajor m)

/-- A 16-bit parcel, by OP16 (Table A.10); every value is an instruction. -/
def decode16 (w : Nat) : Instr :=
  match fld w 1 4 with
  | 0 => (.vmov (fldBV w 5 6) (fldBV w 11 5))
  | 1 => (.vaddI16 (fldBV w 5 6) (fldBV w 11 5))
  | 2 => (.vsubI16 (fldBV w 5 6) (fldBV w 11 5))
  | 3 => (.vand16 (fldBV w 5 6) (fldBV w 11 5))
  | 4 => (.vor16 (fldBV w 5 6) (fldBV w 11 5))
  | 5 => (.vxor16 (fldBV w 5 6) (fldBV w 11 5))
  | 6 => (.vshl16 (fldBV w 5 6) (fldBV w 11 5))
  | 7 => (.vshrz16 (fldBV w 5 6) (fldBV w 11 5))
  | 8 => (.vaddF16 (fldBV w 5 6) (fldBV w 11 5))
  | 9 => (.vsubF16 (fldBV w 5 6) (fldBV w 11 5))
  | 10 => (.vmulF16 (fldBV w 5 6) (fldBV w 11 5))
  | 11 => (.vmaxF16 (fldBV w 5 6) (fldBV w 11 5))
  | 12 => (.vminF16 (fldBV w 5 6) (fldBV w 11 5))
  | 13 => (.vmullo16 (fldBV w 5 6) (fldBV w 11 5))
  | 14 => (.vshrs16 (fldBV w 5 6) (fldBV w 11 5))
  | _ => (.vnot16 (fldBV w 5 6) (fldBV w 11 5))

/-- Reading one instruction from the bytes at its address (R43, `fetch_decode` of R56).  The second word of
an EXT pair is carried as read; a 16-bit second parcel is carried alone. -/
def decodeBytes (bs : List Byte) : Decoded :=
  match bs with
  | b0 :: b1 :: r1 =>
    if b0.toNat % 2 = 0 then .ok (decode16 (b0.toNat + 256 * b1.toNat)) r1
    else match r1 with
      | b2 :: b3 :: r2 =>
        let w := b0.toNat + 256 * b1.toNat + 65536 * b2.toNat + 16777216 * b3.toNat
        if fld w 3 5 = 0x1E then
          if fld w 1 2 ≠ 0 then .no .extStall
          else match r2 with
            | c0 :: c1 :: r3 =>
              if c0.toNat % 2 = 0 then
                .ok (.ext (fldBV w 8 24) (BitVec.ofNat 32 (c0.toNat + 256 * c1.toNat))) r3
              else match r3 with
                | c2 :: c3 :: r4 =>
                  .ok (.ext (fldBV w 8 24) (BitVec.ofNat 32
                    (c0.toNat + 256 * c1.toNat + 65536 * c2.toNat + 16777216 * c3.toNat))) r4
                | _ => .no .truncated
            | _ => .no .truncated
        else match decode32 w with
          | .ok i => .ok i r2
          | .error e => .no e
      | _ => .no .truncated
  | _ => .no .truncated

/-- The low n bytes of a number, least significant first (R7). -/
def leBytes : Nat → Nat → List Byte
  | 0, _ => []
  | n + 1, v => BitVec.ofNat 8 v :: leBytes n (v / 256)

/-- The number that bytes spell, least significant first. -/
def leNat : List Byte → Nat
  | [] => 0
  | b :: bs => b.toNat + 256 * leNat bs

/-- The instruction the decoder reads from a word whose bits are numbered as the opcode table numbers them. -/
def decodeTableWord (nbits w : Nat) : Option Instr :=
  match decodeBytes (leBytes 8 (w % 2 ^ nbits)) with
  | .ok i _ => some i
  | .no _ => none

/-- The stall count a word carries: its SC field (Table A.8), or the implicit SC of a 16-bit form
(Table A.10). -/
def wordSc (w : Nat) : Nat :=
  if w % 2 = 1 then fld w 1 2
  else match fld w 1 4 with
    | 8 => 1
    | 9 => 1
    | 10 => 1
    | 11 => 1
    | 12 => 1
    | 13 => 1
    | _ => 0

/-- The instruction's word with SC = 0, from the same tables; for an EXT pair, the EXT's own word.  A hardware
step has no encoding and gives `none`. -/
def encodeWord : Instr → Option Nat
  | .vaddI d a b => some (0x1 + d.toNat * 256 + a.toNat * 32768 + b.toNat * 4194304)
  | .vsubI d a b => some (0x20000001 + d.toNat * 256 + a.toNat * 32768 + b.toNat * 4194304)
  | .vmullo d a b => some (0x40000001 + d.toNat * 256 + a.toNat * 32768 + b.toNat * 4194304)
  | .vmulhiS d a b => some (0x60000001 + d.toNat * 256 + a.toNat * 32768 + b.toNat * 4194304)
  | .vmulhiZ d a b => some (0x80000001 + d.toNat * 256 + a.toNat * 32768 + b.toNat * 4194304)
  | .vand d a b => some (0xA0000001 + d.toNat * 256 + a.toNat * 32768 + b.toNat * 4194304)
  | .vor d a b => some (0xC0000001 + d.toNat * 256 + a.toNat * 32768 + b.toNat * 4194304)
  | .vxor d a b => some (0xE0000001 + d.toNat * 256 + a.toNat * 32768 + b.toNat * 4194304)
  | .vshl d a b => some (0x9 + d.toNat * 256 + a.toNat * 32768 + b.toNat * 4194304)
  | .vshrz d a b => some (0x20000009 + d.toNat * 256 + a.toNat * 32768 + b.toNat * 4194304)
  | .vshrs d a b => some (0x40000009 + d.toNat * 256 + a.toNat * 32768 + b.toNat * 4194304)
  | .vminS d a b => some (0x60000009 + d.toNat * 256 + a.toNat * 32768 + b.toNat * 4194304)
  | .vmaxS d a b => some (0x80000009 + d.toNat * 256 + a.toNat * 32768 + b.toNat * 4194304)
  | .vminZ d a b => some (0xA0000009 + d.toNat * 256 + a.toNat * 32768 + b.toNat * 4194304)
  | .vmaxZ d a b => some (0xC0000009 + d.toNat * 256 + a.toNat * 32768 + b.toNat * 4194304)
  | .vrotl d a b => some (0xE0000009 + d.toNat * 256 + a.toNat * 32768 + b.toNat * 4194304)
  | .vaddF d a b => some (0x11 + d.toNat * 256 + a.toNat * 32768 + b.toNat * 4194304)
  | .vsubF d a b => some (0x20000011 + d.toNat * 256 + a.toNat * 32768 + b.toNat * 4194304)
  | .vmulF d a b => some (0x40000011 + d.toNat * 256 + a.toNat * 32768 + b.toNat * 4194304)
  | .vfmaF d a b => some (0x60000011 + d.toNat * 256 + a.toNat * 32768 + b.toNat * 4194304)
  | .vfnmaF d a b => some (0x80000011 + d.toNat * 256 + a.toNat * 32768 + b.toNat * 4194304)
  | .vminF d a b => some (0xA0000011 + d.toNat * 256 + a.toNat * 32768 + b.toNat * 4194304)
  | .vmaxF d a b => some (0xC0000011 + d.toNat * 256 + a.toNat * 32768 + b.toNat * 4194304)
  | .vcpsgn d a b => some (0xE0000011 + d.toNat * 256 + a.toNat * 32768 + b.toNat * 4194304)
  | .vaddH d a b => some (0x19 + d.toNat * 256 + a.toNat * 32768 + b.toNat * 4194304)
  | .vmulH d a b => some (0x20000019 + d.toNat * 256 + a.toNat * 32768 + b.toNat * 4194304)
  | .vfmaH d a b => some (0x40000019 + d.toNat * 256 + a.toNat * 32768 + b.toNat * 4194304)
  | .vdot2H d a b => some (0x60000019 + d.toNat * 256 + a.toNat * 32768 + b.toNat * 4194304)
  | .vaddBf d a b => some (0x80000019 + d.toNat * 256 + a.toNat * 32768 + b.toNat * 4194304)
  | .vmulBf d a b => some (0xA0000019 + d.toNat * 256 + a.toNat * 32768 + b.toNat * 4194304)
  | .vfmaBf d a b => some (0xC0000019 + d.toNat * 256 + a.toNat * 32768 + b.toNat * 4194304)
  | .vdot2Bf d a b => some (0xE0000019 + d.toNat * 256 + a.toNat * 32768 + b.toNat * 4194304)
  | .vcmpEqF d a b => some (0x21 + d.toNat * 256 + a.toNat * 16384 + b.toNat * 2097152)
  | .vcmpNeF d a b => some (0x10000021 + d.toNat * 256 + a.toNat * 16384 + b.toNat * 2097152)
  | .vcmpLtF d a b => some (0x20000021 + d.toNat * 256 + a.toNat * 16384 + b.toNat * 2097152)
  | .vcmpLeF d a b => some (0x30000021 + d.toNat * 256 + a.toNat * 16384 + b.toNat * 2097152)
  | .vcmpGtF d a b => some (0x40000021 + d.toNat * 256 + a.toNat * 16384 + b.toNat * 2097152)
  | .vcmpGeF d a b => some (0x50000021 + d.toNat * 256 + a.toNat * 16384 + b.toNat * 2097152)
  | .vcmpUnF d a b => some (0x60000021 + d.toNat * 256 + a.toNat * 16384 + b.toNat * 2097152)
  | .vcmpOrF d a b => some (0x70000021 + d.toNat * 256 + a.toNat * 16384 + b.toNat * 2097152)
  | .vcmpEqI d a b => some (0x80000021 + d.toNat * 256 + a.toNat * 16384 + b.toNat * 2097152)
  | .vcmpNeI d a b => some (0x90000021 + d.toNat * 256 + a.toNat * 16384 + b.toNat * 2097152)
  | .vcmpLtS d a b => some (0xA0000021 + d.toNat * 256 + a.toNat * 16384 + b.toNat * 2097152)
  | .vcmpLeS d a b => some (0xB0000021 + d.toNat * 256 + a.toNat * 16384 + b.toNat * 2097152)
  | .vcmpLtZ d a b => some (0xC0000021 + d.toNat * 256 + a.toNat * 16384 + b.toNat * 2097152)
  | .vcmpLeZ d a b => some (0xD0000021 + d.toNat * 256 + a.toNat * 16384 + b.toNat * 2097152)
  | .vcmpTst d a b => some (0xE0000021 + d.toNat * 256 + a.toNat * 16384 + b.toNat * 2097152)
  | .vcmpNtst d a b => some (0xF0000021 + d.toNat * 256 + a.toNat * 16384 + b.toNat * 2097152)
  | .vaddi d a i => some (0x29 + d.toNat * 256 + a.toNat * 32768 + i.toNat * 4194304)
  | .vandi d a i => some (0x20000029 + d.toNat * 256 + a.toNat * 32768 + i.toNat * 4194304)
  | .vori d a i => some (0x40000029 + d.toNat * 256 + a.toNat * 32768 + i.toNat * 4194304)
  | .vxori d a i => some (0x60000029 + d.toNat * 256 + a.toNat * 32768 + i.toNat * 4194304)
  | .vshli d a i => some (0x80000029 + d.toNat * 256 + a.toNat * 32768 + i.toNat * 4194304)
  | .vshrzi d a i => some (0xA0000029 + d.toNat * 256 + a.toNat * 32768 + i.toNat * 4194304)
  | .vshrsi d a i => some (0xC0000029 + d.toNat * 256 + a.toNat * 32768 + i.toNat * 4194304)
  | .vmuli d a i => some (0xE0000029 + d.toNat * 256 + a.toNat * 32768 + i.toNat * 4194304)
  | .vcvt d a => some (0x31 + d.toNat * 256 + a.toNat * 32768)
  | .vcvtfS d a => some (0x400031 + d.toNat * 256 + a.toNat * 32768)
  | .vcvtsF d a => some (0x800031 + d.toNat * 256 + a.toNat * 32768)
  | .vcvtfZ d a => some (0xC00031 + d.toNat * 256 + a.toNat * 32768)
  | .vcvtzF d a => some (0x1000031 + d.toNat * 256 + a.toNat * 32768)
  | .vpkbx8 d a => some (0x2000031 + d.toNat * 256 + a.toNat * 32768)
  | .vupbx8 d a => some (0x2400031 + d.toNat * 256 + a.toNat * 32768)
  | .vpkbx4 d a => some (0x2800031 + d.toNat * 256 + a.toNat * 32768)
  | .vupbx4 d a => some (0x2C00031 + d.toNat * 256 + a.toNat * 32768)
  | .vpkf8 d a => some (0x3000031 + d.toNat * 256 + a.toNat * 32768)
  | .vupf8 d a => some (0x3400031 + d.toNat * 256 + a.toNat * 32768)
  | .vrcp d a => some (0x10000031 + d.toNat * 256 + a.toNat * 32768)
  | .vrsq d a => some (0x10400031 + d.toNat * 256 + a.toNat * 32768)
  | .vsqrt d a => some (0x10800031 + d.toNat * 256 + a.toNat * 32768)
  | .vexp2 d a => some (0x10C00031 + d.toNat * 256 + a.toNat * 32768)
  | .vlog2 d a => some (0x11000031 + d.toNat * 256 + a.toNat * 32768)
  | .vsinpi d a => some (0x11400031 + d.toNat * 256 + a.toNat * 32768)
  | .vcospi d a => some (0x11800031 + d.toNat * 256 + a.toNat * 32768)
  | .vtanh d a => some (0x11C00031 + d.toNat * 256 + a.toNat * 32768)
  | .vabsF d a => some (0x20000031 + d.toNat * 256 + a.toNat * 32768)
  | .vnegF d a => some (0x20400031 + d.toNat * 256 + a.toNat * 32768)
  | .vfloor d a => some (0x20800031 + d.toNat * 256 + a.toNat * 32768)
  | .vfract d a => some (0x20C00031 + d.toNat * 256 + a.toNat * 32768)
  | .vabsI d a => some (0x21000031 + d.toNat * 256 + a.toNat * 32768)
  | .vnegI d a => some (0x21400031 + d.toNat * 256 + a.toNat * 32768)
  | .vnot d a => some (0x21800031 + d.toNat * 256 + a.toNat * 32768)
  | .vpopc d a => some (0x21C00031 + d.toNat * 256 + a.toNat * 32768)
  | .vclz d a => some (0x22000031 + d.toNat * 256 + a.toNat * 32768)
  | .vbrev d a => some (0x22400031 + d.toNat * 256 + a.toNat * 32768)
  | .vshfl d a b => some (0x39 + d.toNat * 256 + a.toNat * 32768 + b.toNat * 4194304)
  | .vshflx d a i => some (0x20000039 + d.toNat * 256 + a.toNat * 32768 + i.toNat * 4194304)
  | .vshflup d a i => some (0x40000039 + d.toNat * 256 + a.toNat * 32768 + i.toNat * 4194304)
  | .vshfldn d a i => some (0x60000039 + d.toNat * 256 + a.toNat * 32768 + i.toNat * 4194304)
  | .vbcast d a i => some (0x80000039 + d.toNat * 256 + a.toNat * 32768 + i.toNat * 4194304)
  | .vraddF d a => some (0xA0000039 + d.toNat * 256 + a.toNat * 32768)
  | .vrmaxF d a => some (0xC0000039 + d.toNat * 256 + a.toNat * 32768)
  | .vscanF d a => some (0xE0000039 + d.toNat * 256 + a.toNat * 32768)
  | .vbcs d s => some (0x41 + d.toNat * 256 + s.toNat * 32768)
  | .vmovsl a s i => some (0x4000041 + a.toNat * 256 + s.toNat * 32768 + i.toNat * 2097152)
  | .vlaneid d => some (0x8000041 + d.toNat * 256)
  | .vsetl d s i => some (0xC000041 + d.toNat * 256 + s.toNat * 32768 + i.toNat * 2097152)
  | .sadd d a b => some (0x49 + d.toNat * 256 + a.toNat * 16384 + b.toNat * 1048576)
  | .ssub d a b => some (0x4000049 + d.toNat * 256 + a.toNat * 16384 + b.toNat * 1048576)
  | .smul d a b => some (0x8000049 + d.toNat * 256 + a.toNat * 16384 + b.toNat * 1048576)
  | .smulhs d a b => some (0xC000049 + d.toNat * 256 + a.toNat * 16384 + b.toNat * 1048576)
  | .smulhz d a b => some (0x10000049 + d.toNat * 256 + a.toNat * 16384 + b.toNat * 1048576)
  | .sand d a b => some (0x14000049 + d.toNat * 256 + a.toNat * 16384 + b.toNat * 1048576)
  | .sor d a b => some (0x18000049 + d.toNat * 256 + a.toNat * 16384 + b.toNat * 1048576)
  | .sxor d a b => some (0x1C000049 + d.toNat * 256 + a.toNat * 16384 + b.toNat * 1048576)
  | .sandn d a b => some (0x20000049 + d.toNat * 256 + a.toNat * 16384 + b.toNat * 1048576)
  | .sshl d a b => some (0x24000049 + d.toNat * 256 + a.toNat * 16384 + b.toNat * 1048576)
  | .sshrz d a b => some (0x28000049 + d.toNat * 256 + a.toNat * 16384 + b.toNat * 1048576)
  | .sshrs d a b => some (0x2C000049 + d.toNat * 256 + a.toNat * 16384 + b.toNat * 1048576)
  | .smins d a b => some (0x30000049 + d.toNat * 256 + a.toNat * 16384 + b.toNat * 1048576)
  | .smaxs d a b => some (0x34000049 + d.toNat * 256 + a.toNat * 16384 + b.toNat * 1048576)
  | .sminz d a b => some (0x38000049 + d.toNat * 256 + a.toNat * 16384 + b.toNat * 1048576)
  | .smaxz d a b => some (0x3C000049 + d.toNat * 256 + a.toNat * 16384 + b.toNat * 1048576)
  | .sslts d a b => some (0x40000049 + d.toNat * 256 + a.toNat * 16384 + b.toNat * 1048576)
  | .ssltz d a b => some (0x44000049 + d.toNat * 256 + a.toNat * 16384 + b.toNat * 1048576)
  | .sseq d a b => some (0x48000049 + d.toNat * 256 + a.toNat * 16384 + b.toNat * 1048576)
  | .spopc d a => some (0x4C000049 + d.toNat * 256 + a.toNat * 16384)
  | .sctz d a => some (0x50000049 + d.toNat * 256 + a.toNat * 16384)
  | .sclz d a => some (0x54000049 + d.toNat * 256 + a.toNat * 16384)
  | .sbfe d a b => some (0x58000049 + d.toNat * 256 + a.toNat * 16384 + b.toNat * 1048576)
  | .sbfi d a b => some (0x5C000049 + d.toNat * 256 + a.toNat * 16384 + b.toNat * 1048576)
  | .sadd64 d a b => some (0x60000049 + d.toNat * 256 + a.toNat * 16384 + b.toNat * 1048576)
  | .ssub64 d a b => some (0x64000049 + d.toNat * 256 + a.toNat * 16384 + b.toNat * 1048576)
  | .sshl64 d a b => some (0x68000049 + d.toNat * 256 + a.toNat * 16384 + b.toNat * 1048576)
  | .sshrz64 d a b => some (0x6C000049 + d.toNat * 256 + a.toNat * 16384 + b.toNat * 1048576)
  | .ssel d a b => some (0x70000049 + d.toNat * 256 + a.toNat * 16384 + b.toNat * 1048576)
  | .saddi d a i => some (0x51 + d.toNat * 256 + a.toNat * 16384 + i.toNat * 4194304)
  | .sandi d a i => some (0x100051 + d.toNat * 256 + a.toNat * 16384 + i.toNat * 4194304)
  | .sori d a i => some (0x200051 + d.toNat * 256 + a.toNat * 16384 + i.toNat * 4194304)
  | .sxori d a i => some (0x300051 + d.toNat * 256 + a.toNat * 16384 + i.toNat * 4194304)
  | .slui d i => some (0x59 + d.toNat * 256 + i.toNat * 16384)
  | .dly a i => some (0x161 + a.toNat * 16384 + i.toNat * 1048576)
  | .srd d x => some (0x261 + d.toNat * 16384 + x.toNat * 1048576)
  | .swr a x => some (0x361 + a.toNat * 16384 + x.toNat * 1048576)
  | .sexec a => some (0x461 + a.toNat * 16384)
  | .sexecand a => some (0x561 + a.toNat * 16384)
  | .sexecandn a => some (0x661 + a.toNat * 16384)
  | .sgetexec d => some (0x761 + d.toNat * 16384)
  | .fmtset a => some (0x861 + a.toNat * 16384)
  | .fmtget d => some (0x961 + d.toNat * 16384)
  | .jmpr a => some (0xC61 + a.toNat * 16384)
  | .callr a => some (0xD61 + a.toNat * 16384)
  | .trap i => some (0x1061 + i.toNat * 16384)
  | .brk i => some (0x1261 + i.toNat * 16384)
  | .launch a b => some (0x1561 + a.toNat * 16384 + b.toNat * 1048576)
  | .gset g v => some (0x1661 + g.toNat * 16384 + v.toNat * 262144)
  | .gclr g => some (0x1761 + g.toNat * 16384)
  | .brAlways o => some (0x69 + o.toNat * 262144)
  | .brSz a o => some (0x4069 + a.toNat * 256 + o.toNat * 262144)
  | .brSnz a o => some (0x8069 + a.toNat * 256 + o.toNat * 262144)
  | .brSneg a o => some (0xC069 + a.toNat * 256 + o.toNat * 262144)
  | .brSnneg a o => some (0x10069 + a.toNat * 256 + o.toNat * 262144)
  | .brExecz o => some (0x14069 + o.toNat * 262144)
  | .brExecnz o => some (0x18069 + o.toNat * 262144)
  | .brExecall o => some (0x1C069 + o.toNat * 262144)
  | .dbr a o => some (0x71 + a.toNat * 256 + o.toNat * 262144)
  | .dbrT a o => some (0x4071 + a.toNat * 256 + o.toNat * 262144)
  | .call o => some (0x79 + o.toNat * 256)
  | .loop a i e => some (0x81 + a.toNat * 256 + i.toNat * 16384 + e.toNat * 4194304)
  | .ld d b o w h x => some (0x89 + d.toNat * 256 + b.toNat * 32768 + o.toNat * 262144 + w.toNat * 33554432 + h.toNat * 268435456 + x.toNat * 2147483648)
  | .st d b o w h => some (0x91 + d.toNat * 256 + b.toNat * 32768 + o.toNat * 262144 + w.toNat * 33554432 + h.toNat * 268435456)
  | .atomAdd d b o s => some (0x99 + d.toNat * 256 + b.toNat * 32768 + o.toNat * 262144 + s.toNat * 536870912)
  | .atomMinS d b o s => some (0x2000099 + d.toNat * 256 + b.toNat * 32768 + o.toNat * 262144 + s.toNat * 536870912)
  | .atomMaxS d b o s => some (0x4000099 + d.toNat * 256 + b.toNat * 32768 + o.toNat * 262144 + s.toNat * 536870912)
  | .atomMinZ d b o s => some (0x6000099 + d.toNat * 256 + b.toNat * 32768 + o.toNat * 262144 + s.toNat * 536870912)
  | .atomMaxZ d b o s => some (0x8000099 + d.toNat * 256 + b.toNat * 32768 + o.toNat * 262144 + s.toNat * 536870912)
  | .atomAnd d b o s => some (0xA000099 + d.toNat * 256 + b.toNat * 32768 + o.toNat * 262144 + s.toNat * 536870912)
  | .atomOr d b o s => some (0xC000099 + d.toNat * 256 + b.toNat * 32768 + o.toNat * 262144 + s.toNat * 536870912)
  | .atomXor d b o s => some (0xE000099 + d.toNat * 256 + b.toNat * 32768 + o.toNat * 262144 + s.toNat * 536870912)
  | .atomXchg d b o s => some (0x10000099 + d.toNat * 256 + b.toNat * 32768 + o.toNat * 262144 + s.toNat * 536870912)
  | .atomCas d b o s => some (0x12000099 + d.toNat * 256 + b.toNat * 32768 + o.toNat * 262144 + s.toNat * 536870912)
  | .atomAddF d b o s => some (0x14000099 + d.toNat * 256 + b.toNat * 32768 + o.toNat * 262144 + s.toNat * 536870912)
  | .atomMaxF d b o s => some (0x16000099 + d.toNat * 256 + b.toNat * 32768 + o.toNat * 262144 + s.toNat * 536870912)
  | .atomMinF d b o s => some (0x18000099 + d.toNat * 256 + b.toNat * 32768 + o.toNat * 262144 + s.toNat * 536870912)
  | .sld d b i => some (0xA1 + d.toNat * 256 + b.toNat * 16384 + i.toNat * 1048576)
  | .sld64 d b i => some (0x200A1 + d.toNat * 256 + b.toNat * 16384 + i.toNat * 1048576)
  | .sst d b i => some (0x400A1 + d.toNat * 256 + b.toNat * 16384 + i.toNat * 1048576)
  | .sst64 d b i => some (0x600A1 + d.toNat * 256 + b.toNat * 16384 + i.toNat * 1048576)
  | .satadd d b i => some (0x800A1 + d.toNat * 256 + b.toNat * 16384 + i.toNat * 1048576)
  | .satcas d b i => some (0xA00A1 + d.toNat * 256 + b.toNat * 16384 + i.toNat * 1048576)
  | .spollne d b i => some (0xC00A1 + d.toNat * 256 + b.toNat * 16384 + i.toNat * 1048576)
  | .sldacq d b i => some (0xE00A1 + d.toNat * 256 + b.toNat * 16384 + i.toNat * 1048576)
  | .spld d a i => some (0xA9 + d.toNat * 256 + a.toNat * 32768 + i.toNat * 67108864)
  | .spldq d a i => some (0x4000A9 + d.toNat * 256 + a.toNat * 32768 + i.toNat * 67108864)
  | .spst d a i => some (0x8000A9 + d.toNat * 256 + a.toNat * 32768 + i.toNat * 67108864)
  | .spstq d a i => some (0xC000A9 + d.toNat * 256 + a.toNat * 32768 + i.toNat * 67108864)
  | .vtaglk d a i => some (0x10000A9 + d.toNat * 256 + a.toNat * 32768 + i.toNat * 67108864)
  | .tagset d a i => some (0x14000A9 + d.toNat * 256 + a.toNat * 32768 + i.toNat * 67108864)
  | .tagclr d a i => some (0x18000A9 + d.toNat * 256 + a.toNat * 32768 + i.toNat * 67108864)
  | .spatadd d a i => some (0x1C000A9 + d.toNat * 256 + a.toNat * 32768 + i.toNat * 67108864)
  | .spataddF d a i => some (0x20000A9 + d.toNat * 256 + a.toNat * 32768 + i.toNat * 67108864)
  | .fence s k => some (0xB1 + s.toNat * 8192 + k.toNat * 65536)
  | .bara b => some (0x1B1 + b.toNat * 8192)
  | .barw b => some (0x2B1 + b.toNat * 8192)
  | .bars b => some (0x3B1 + b.toNat * 8192)
  | .gbar g => some (0x4B1 + g.toNat * 8192)
  | .waitcnt p a => some (0x5B1 + p.toNat * 8192 + a.toNat * 65536)
  | .waitk k => some (0x6B1 + k.toNat * 8192)
  | .xlate b a => some (0x7B1 + b.toNat * 8192 + a.toNat * 65536)
  | .xinv b => some (0x8B1 + b.toNat * 8192)
  | .bari b a => some (0x9B1 + b.toNat * 8192 + a.toNat * 131072)
  | .qbind q n d => some (0xB9 + q.toNat * 4096 + n.toNat * 8388608 + d.toNat * 33554432)
  | .qget q r n => some (0x1B9 + q.toNat * 4096 + r.toNat * 65536 + n.toNat * 8388608)
  | .qput q r n => some (0x2B9 + q.toNat * 4096 + r.toNat * 65536 + n.toNat * 8388608)
  | .qtry q r n d => some (0x3B9 + q.toNat * 4096 + r.toNat * 65536 + n.toNat * 8388608 + d.toNat * 33554432)
  | .qtryp q r n d => some (0x4B9 + q.toNat * 4096 + r.toNat * 65536 + n.toNat * 8388608 + d.toNat * 33554432)
  | .qstat q d => some (0x5B9 + q.toNat * 4096 + d.toNat * 33554432)
  | .qunbind q => some (0x6B9 + q.toNat * 4096)
  | .cpy k b a g v => some (0xC1 + k.toNat * 2048 + b.toNat * 16384 + a.toNat * 131072 + g.toNat * 8388608 + v.toNat * 134217728)
  | .kstat k a => some (0x1C1 + k.toNat * 2048 + a.toNat * 131072)
  | .kbytes k a => some (0x2C1 + k.toNat * 2048 + a.toNat * 131072)
  | .kclr k => some (0x3C1 + k.toNat * 2048)
  | .kreplay k => some (0x4C1 + k.toNat * 2048)
  | .pld p v o => some (0xC9 + p.toNat * 1024 + v.toNat * 8192 + o.toNat * 1048576)
  | .pst p v o => some (0x1C9 + p.toNat * 1024 + v.toNat * 8192 + o.toNat * 1048576)
  | .pstep p => some (0x2C9 + p.toNat * 1024)
  | .pqry p v o => some (0x3C9 + p.toNat * 1024 + v.toNat * 8192 + o.toNat * 1048576)
  | .mma t a b => some (0xE1 + t.toNat * 4096 + a.toNat * 65536 + b.toNat * 16777216)
  | .mzero t => some (0x1E1 + t.toNat * 4096)
  | .mwaitb b => some (0x2E1 + b.toNat * 4096)
  | .msigb b => some (0x3E1 + b.toNat * 4096)
  | .mloop c e => some (0x4E1 + c.toNat * 4096 + e.toNat * 1048576)
  | .mfmt g => some (0x5E1 + g.toNat * 4096)
  | .accrd t v r => some (0xE9 + t.toNat * 1024 + v.toNat * 16384 + r.toNat * 2097152)
  | .accwr t v r => some (0x1E9 + t.toNat * 1024 + v.toNat * 16384 + r.toNat * 2097152)
  | .accrdc t v r => some (0x2E9 + t.toNat * 1024 + v.toNat * 16384 + r.toNat * 2097152)
  | .ext x _ => some (0xF1 + x.toNat * 256)
  | .vmov d a => some (0x0 + d.toNat * 32 + a.toNat * 2048)
  | .vaddI16 d a => some (0x2 + d.toNat * 32 + a.toNat * 2048)
  | .vsubI16 d a => some (0x4 + d.toNat * 32 + a.toNat * 2048)
  | .vand16 d a => some (0x6 + d.toNat * 32 + a.toNat * 2048)
  | .vor16 d a => some (0x8 + d.toNat * 32 + a.toNat * 2048)
  | .vxor16 d a => some (0xA + d.toNat * 32 + a.toNat * 2048)
  | .vshl16 d a => some (0xC + d.toNat * 32 + a.toNat * 2048)
  | .vshrz16 d a => some (0xE + d.toNat * 32 + a.toNat * 2048)
  | .vaddF16 d a => some (0x10 + d.toNat * 32 + a.toNat * 2048)
  | .vsubF16 d a => some (0x12 + d.toNat * 32 + a.toNat * 2048)
  | .vmulF16 d a => some (0x14 + d.toNat * 32 + a.toNat * 2048)
  | .vmaxF16 d a => some (0x16 + d.toNat * 32 + a.toNat * 2048)
  | .vminF16 d a => some (0x18 + d.toNat * 32 + a.toNat * 2048)
  | .vmullo16 d a => some (0x1A + d.toNat * 32 + a.toNat * 2048)
  | .vshrs16 d a => some (0x1C + d.toNat * 32 + a.toNat * 2048)
  | .vnot16 d a => some (0x1E + d.toNat * 32 + a.toNat * 2048)
  | .nop => some (0x61)
  | .join => some (0xA61)
  | .ret => some (0xB61)
  | .endI => some (0xE61)
  | .commit => some (0xF61)
  | .eret => some (0x1161)
  | .yield => some (0x1361)
  | .backoff => some (0x1461)
  | .fpost => some (0x1861)
  | .mend => some (0x6E1)
  | .mnop => some (0x7E1)
  | .checkPhaseEnd => none
  | .xlateFillEnd => none
  | .icacheFill => none
  | .perform => none
  | .read => none
  | .atomic => none
  | .fill => none
  | .evict => none
  | .pop => none
  | .linkEntryReady => none
  | .spollneWindowEnd => none
  | .spollneReread => none
  | .dlyEnd => none
  | .yieldEnd => none
  | .groupEnd => none
  | .barrierOpen => none
  | .barrierWave => none
  | .gbarDieArrival => none
  | .gbarRelease => none
  | .swap => none
  | .heldEntryRelease => none
  | .reorderRelease => none
  | .jobStart => none
  | .jobRead => none
  | .jobWrite => none
  | .jobEnd => none
  | .mmaRetire => none
  | .leaseEnd => none
  | .ticketClaim => none
  | .teamStart => none
  | .teamRetire => none
  | .expertFire => none
  | .expertAgeLimit => none
  | .fpostResume => none
  | .parkReplay => none
  | .faultBatchAge => none
  | .faultTimeout => none
  | .hostAbsence => none
  | .firstTouchRequest => none
  | .firstTouchStatus => none
  | .capture => none
  | .notifyHoldExpiry => none
  | .msixUnmask => none
  | .notifyConsWrite => none
  | .faultRingConsWrite => none
  | .ncountWrite => none
  | .nholdWrite => none
  | .registerWrite => none
  | .contextAdmit => none
  | .contextAllocate => none
  | .contextBind => none
  | .contextDelete => none
  | .mappingPageApply => none
  | .mappingPageRelease => none
  | .mappingPermNarrow => none
  | .shootdownAck => none
  | .queueAdmit => none
  | .handlePublish => none
  | .queueOpen => none
  | .queueClose => none
  | .queueRelease => none
  | .queueEndAdmission => none
  | .expertQueueDelete => none
  | .linkAdmit => none
  | .linkConnect => none
  | .programAdmit => none
  | .selectVariant => none
  | .loadImage => none
  | .bindQueues => none
  | .programLaunch => none
  | .chainMove => none
  | .chainMoveDone => none
  | .pauseStep => none
  | .unpauseStep => none
  | .preempt => none
  | .teamResume => none
  | .migrationCycle => none
  | .moveDone => none
  | .lockHoldExpiry => none
  | .hostWarmRestart => none
  | .hostWrite => none
  | .hostRead => none
  | .keyset => none
  | .dbgHalt => none
  | .dbgRead => none
  | .dbgWrite => none
  | .dbgStep => none
  | .dbgResume => none
  | .fwstage => none
  | .spdmSign => none
  | .portLossOfLock => none
  | .linkDown => none
  | .inboundRemoteJob => none
  | .inboundAccess => none
  | .streamPacket => none
  | .streamDeadline => none
  | .gleanerScrub => none
  | .trimWindowEnd => none
  | .barendExpiry => none
  | .nearThresholdEntry => none
  | .nearThresholdExit => none
  | .bankDrowsy => none
  | .bankWake => none
  | .sensorSample => none
  | .throttleStep => none
  | .droopAlarm => none
  | .droopRestore => none
  | .firmwareException => none
  | .coldReset => none
  | .powerOn => none
  | .illegalInstruction => none
  | .writeLands => none
  | .ptpLock => none
  | .ptpLockLoss => none
  | .retrainingDone => none
  | .formPolicyChoice => none
  | .deletionStep => none
  | .thermalResetRelease => none
  | .tdispRequest => none

/-- How many bytes an instruction word takes (R43); for an EXT, its own four. -/
def wordBytes : Instr → Nat
  | .vmov _ _ => 2
  | .vaddI16 _ _ => 2
  | .vsubI16 _ _ => 2
  | .vand16 _ _ => 2
  | .vor16 _ _ => 2
  | .vxor16 _ _ => 2
  | .vshl16 _ _ => 2
  | .vshrz16 _ _ => 2
  | .vaddF16 _ _ => 2
  | .vsubF16 _ _ => 2
  | .vmulF16 _ _ => 2
  | .vmaxF16 _ _ => 2
  | .vminF16 _ _ => 2
  | .vmullo16 _ _ => 2
  | .vshrs16 _ _ => 2
  | .vnot16 _ _ => 2
  | _ => 4

/-- Whether a word carries an SC of its own: every 32-bit group word does (R47); a 16-bit form, a
matrix-stream word (R55) and an EXT (R56) do not. (Log entry 20 DESIGN CHOICE.) -/
def takesSc : Instr → Bool
  | .mma _ _ _ => false
  | .mzero _ => false
  | .mwaitb _ => false
  | .msigb _ => false
  | .mloop _ _ => false
  | .mfmt _ => false
  | .ext _ _ => false
  | .vmov _ _ => false
  | .vaddI16 _ _ => false
  | .vsubI16 _ _ => false
  | .vand16 _ _ => false
  | .vor16 _ _ => false
  | .vxor16 _ _ => false
  | .vshl16 _ _ => false
  | .vshrz16 _ _ => false
  | .vaddF16 _ _ => false
  | .vsubF16 _ _ => false
  | .vmulF16 _ _ => false
  | .vmaxF16 _ _ => false
  | .vminF16 _ _ => false
  | .vmullo16 _ _ => false
  | .vshrs16 _ _ => false
  | .vnot16 _ _ => false
  | .mend => false
  | .mnop => false
  | _ => true

/-- The bytes of an instruction with stall count sc as they lie in memory; none for a hardware step. -/
def encode (sc : BitVec 2) (i : Instr) : List Byte :=
  match encodeWord i with
  | none => []
  | some w =>
    match i with
    | .ext _ w2 => leBytes 4 w ++ (if w2.toNat % 2 = 0 then leBytes 2 w2.toNat else leBytes 4 w2.toNat)
    | _ => leBytes (wordBytes i) (if takesSc i then w + sc.toNat * 2 else w)

end Sys2Proof
end

