-- ==== Sys2Proof/Machine/TypesGroup.lean ====
section
/-!
DEFINITION. The state a group owns (Table A.1), its accesses in flight, and the stores it has not yet seen home
(Table B.5).
-/

namespace Sys2Proof.Machine

/-- State of a translation register (R26, Table A.4). -/
inductive BState where
  | invalid | filling | valid | stale
  deriving DecidableEq, Repr

/-- A translation register (Table A.4).  `sp` says in which memory the frame lies; `sup` that its pages are
supervisor pages (R306). -/
structure TransReg where
  base : BitVec 52
  frame : BitVec 48
  limit : Word
  perm : BitVec 3
  state : BState
  sp : Space
  sup : Bool
  deriving DecidableEq, Repr

/-- Binding kinds of a queue register (R27). -/
inductive QKind where
  | unbound | msg | expert | batch | reorder | stream | chain
  deriving DecidableEq, Repr

/-- A queue register's binding (R27): kind, width code and handle.  `aux` names the firing of a BATCH binding and
the link of a CHAIN binding, whose handle is 1 at the producer end and 0 at the consumer end. -/
structure QBind where
  kind : QKind
  n2 : BitVec 2
  handle : Word
  aux : Nat
  deriving DecidableEq, Repr

/-- A path stack entry (R31); `rejoin` is its kind. -/
structure PathEntry where
  rejoin : Bool
  pc : Word
  mask : Word
  fmt : Word
  depth : Nat
  deriving DecidableEq, Repr

/-- A loop stack entry (R32). -/
structure LoopEntry where
  start : Word
  stop : Word
  count : Word
  deriving DecidableEq, Repr

/-- A fixed-latency result that has not landed (R48): the register, the lanes written and their values, and the
clk from which it is read. -/
structure Landing where
  scalar : Bool
  reg : Nat
  lanes : Word
  value : Vec
  due : Nat
  deriving DecidableEq, Repr

/-- What an access in flight does when it returns. -/
inductive AKind where
  | ld | st | atom | sld | sld64 | satadd | satcas | spollne | sldacq
  | spld | spst | spatadd | spataddF | tag | pld | pst
  | xlate | qget | qtry | qtryp | nothing
  deriving DecidableEq, Repr

/-- Whether an access is a pop of a queue (R162, R163). -/
def AKind.isPop (k : AKind) : Bool := k == .qget || k == .qtry || k == .qtryp

/-- One lane of an access in flight: where it goes and what it carries. -/
structure LaneReq where
  lane : Nat
  loc : PAddr
  va : Nat
  x : Word
  y : Word
  finished : Bool
  poisoned : Bool
  /-- it was lost with its link, with the id of its page's MAPPING record (R347) -/
  lost : Option Nat
  /-- its translation was shot down in its check phase, at whose end it is translated afresh (R313) -/
  stale : Bool
  deriving DecidableEq, Repr

/-- An access in flight, counted on the counter of code `path` (R34).  Identities rise in issue order over
the device's accesses and stores alike. -/
structure Access where
  id : Nat
  gid : Nat
  path : Nat
  kind : AKind
  pc : Word
  /-- first vector register, or the scalar register, that receives the result -/
  dst : Nat
  /-- the scalar status register of QTRY and QTRYP; the translation register of an XLATE -/
  dst2 : Nat
  /-- bytes for each lane; registers of a queue entry -/
  width : Nat
  sx : Bool
  /-- the scope its counter waits for -/
  scope : Nat
  /-- the acquire scope of an acquire load -/
  acq : Option Nat
  /-- operation of an atomic or tag function, hint of a load, queue register of a pop -/
  op : Nat
  /-- comparison value of an SPOLLNE -/
  cmp : Word
  /-- the queue of a pop -/
  bind : QBind
  /-- lanes in exec, for a pop -/
  mask : Word
  lanes : List LaneReq
  issued : Nat
  /-- place of a pop's issue among the issues of its team (R36) -/
  turn : Nat
  epoch : Nat
  /-- the value lanes' stores have returned; no lane is left -/
  returned : Bool
  /-- register writes of the lanes that have been read, which land when the counter falls past the access (R34) -/
  results : List Landing
  deriving DecidableEq, Repr

/-- How far a store is performed (Table B.5). -/
inductive Reach where
  | none | cluster | die | device | system
  deriving DecidableEq, Repr

/-- Where a store goes: a byte run of memory, or a word of a plane region (R184) with the lane of its write. -/
inductive Target where
  | mem (loc : PAddr)
  | plane (team region word lane order : Nat)
  deriving DecidableEq, Repr

/-- A store that has not reached every point it is to reach (Table B.5): the entry of its group's store buffer,
of its cluster's pending list and of its die's outbound list, told apart by its reach. -/
structure Store where
  sid : Nat
  gid : Nat
  ctx : Nat
  acc : Nat
  lane : Nat
  tgt : Target
  data : List Byte
  reach : Reach
  /-- the scope of a release store -/
  rel : Option Nat
  cluster : Nat
  die : Nat
  epoch : Nat
  /-- the machine steps at which it passed the cluster port and the die's outbound port -/
  passC : Nat
  passD : Nat
  deriving DecidableEq, Repr

/-- Poison met by a returned access and not yet reported (R132), or lanes that a link took with it (R347). -/
structure PoisonRec where
  cause : Nat
  path : Nat
  acc : Nat
  pc : Word
  lanes : List LaneReq
  scalar : Bool
  access : Nat
  width : Nat
  deriving DecidableEq, Repr

/-- A lane that failed its check phase (R131), with what its fault record names (Table C.15). -/
structure LaneFail where
  lane : Nat
  va : Nat
  cause : Nat
  access : Nat
  width : Nat
  firstTouch : Bool
  parkable : Bool
  mapId : Nat
  deriving DecidableEq, Repr

/-- What a group waits for after its last instruction (item 3 of R205).  The program counter stays at an
instruction whose wait has not ended, but for DLY and YIELD, which have completed. -/
inductive Wait where
  | none
  /-- the check phase of an access, with its instruction's length and the lanes that failed it (R130, R131) -/
  | check (due len : Nat) (fails : List LaneFail)
  | waitcnt (path n : Nat)
  | waitk (k : Nat)
  /-- FENCE over the accesses and stores with identities below `upTo` (R149) -/
  | fence (scope kind upTo : Nat)
  /-- COMMIT, or the implicit COMMIT of END, over the entries with places below `turn` (R36, R101) -/
  | commit (turn : Nat) (isEnd : Bool)
  | endDrain
  | barw (b : Nat)
  /-- released by a barrier, a grid barrier or a plane step; its wave is eligible from `due` (R155) -/
  | wave (due : Nat) (scope : Nat)
  | gbar (n : Nat)
  /-- PSTEP on a region, with the clk at which the arrival was made at the group's core (R185, R254) -/
  | pstep (p : Nat) (arrived : Option Nat)
  /-- QBIND or QUNBIND after the pops of the register (R161) -/
  | bind (q : Nat) (new : QBind)
  | chainPop (acc : Nat)
  | dly (until_ : Nat)
  | yield (since : Nat)
  /-- a release that a JOIN still holds back (R230, R233): the instruction issues again once everything before it
  is performed at the scope -/
  | retry (scope : Nat)
  /-- a PQRY that a JOIN holds back (R233): it issues again once the accesses before the JOIN let it -/
  | joined
  deriving DecidableEq, Repr

/-- What a trap entry saves (R106). -/
structure SavedCtx where
  exec : Word
  fmt : Word
  path : List PathEntry
  loops : List LoopEntry
  u : Nat
  depth : Nat
  super : Bool
  code : Nat
  /-- whether the cause was raised per lane, which ERET asks (R107) -/
  perLane : Bool
  deriving DecidableEq, Repr

/-- The park state of a group (R303, R108). -/
structure Park where
  pc : Word
  lanes : Word
  fails : List LaneFail
  /-- parked by FPOST: the resume performs the ERET of R107 -/
  posted : Bool
  since : Nat
  deriving DecidableEq, Repr

/-- A trap raised on the group outside its own issue, taken at its next issue (R164, R193, R103).  `recs` are the
32-byte records it writes to the group's block, by lane; with none, FREC is `frec`. -/
structure PendTrap where
  code : Nat
  emask : Word
  frec : Nat
  recs : List (Nat × List Byte)
  perLane : Bool
  deriving DecidableEq, Repr

/-- A group's view of one team barrier (R152): the generation of its last arrival, the issue identity of that
arrival, and the generation its last wait saw. -/
structure GBar where
  arr : Option Word
  arrId : Nat
  obs : Word
  deriving DecidableEq, Repr

/-- Everything one group owns (Table A.1).  A stage of a folded chain is a group of its own here, whose
windows of the folded group's registers these are (R259). -/
structure Group where
  gid : Nat
  tid : Nat
  ctx : Nat
  grp : Nat
  die : Nat
  /-- physical core within the die -/
  core : Nat
  slot : Nat
  /-- v0 to v(N−1) -/
  v : List Vec
  /-- s0 to s63; the element for s0 is never read -/
  s : List Word
  exec : Word
  fmt : Word
  pc : Word
  /-- virtual address of the image's code and its size (R43), and the loaded image it belongs to -/
  codeBase : Nat
  codeSize : Nat
  b : List TransReg
  q : List QBind
  path : List PathEntry
  loops : List LoopEntry
  depth : Nat
  u : Nat
  seed : Word
  schk : Bool
  prio : Nat
  clkh : Word
  epc : Word
  ecause : Word
  emask : Word
  frec : Nat
  /-- launch values of Table A.5 -/
  teamX : Word
  teamY : Word
  teamZ : Word
  nteamX : Word
  nteamY : Word
  nteamZ : Word
  tsize : Nat
  nest : Nat
  super : Bool
  handler : Option SavedCtx
  /-- the exec to restore when a re-issued instruction completes (R107, R303) -/
  reissue : Option Word
  park : Option Park
  pend : List PendTrap
  /-- BACKOFF lowering and anchor (R100) -/
  lower : Nat
  anchor : Option Word
  /-- FOLD: the group has s0 to s15 only (R257) -/
  fold : Bool
  bars : List GBar
  /-- PST instructions issued to each region in the current step (R184) -/
  psts : List (Nat × Nat)
  landing : List Landing
  acc : List Access
  poison : List PoisonRec
  /-- freshness mark (Table B.5) -/
  mark : Nat
  /-- read floors: location and the store last read or written there (R227) -/
  floors : List (PAddr × Nat)
  epoch : Nat
  wait : Wait
  /-- first clk at which SC and DLY let the group issue (R205) -/
  readyAt : Nat
  /-- clk of an ACC instruction's first attempt to issue against a busy tile (R194) -/
  tried : Option Nat
  lastIssue : Option Nat
  /-- clks the group has been ready without issuing, and the largest n of R206 meanwhile -/
  readyFor : Nat
  maxN : Nat
  /-- urgent since an earlier clk (R206) -/
  urgent : Bool
  /-- clk from which the group waits without a break on an in-flight counter or on SPOLLNE (R372) -/
  waitFrom : Option Nat
  /-- the group's private block (R299) -/
  priv : Nat
  /-- an access of it has returned in this clk (R221) -/
  back : Bool
  /-- pops withdrawn at a save, to be posted again (R167) -/
  pendPops : List Access
  /-- remaining clks of a DLY cut by a save (R98) -/
  dlyLeft : Nat
  ended : Bool
  deriving DecidableEq, Repr

/-- A translation register no XLATE has filled (Table A.4). -/
def TransReg.fresh : TransReg :=
  { base := 0, frame := 0, limit := 0, perm := 0, state := .invalid, sp := .dev, sup := false }

/-- A register that no queue is bound to (R27). -/
def QBind.none : QBind := { kind := .unbound, n2 := 0, handle := 0, aux := 0 }

/-- The management core before its firmware's first word (R373): a group in supervisor mode, at the start of its code.
(Log entry 5 DESIGN CHOICE.) -/
def mgmtReset : Group :=
  { gid := 0, tid := 0, ctx := 0, grp := 0, die := 0, core := 0, slot := 0, v := [], s := List.replicate 64 0,
    exec := 0xFFFFFFFF, fmt := 0, pc := 0, codeBase := 0, codeSize := 0, b := List.replicate 8 TransReg.fresh,
    q := List.replicate 16 QBind.none, path := [], loops := [], depth := 0, u := 0, seed := 1, schk := false, prio := 4,
    clkh := 0, epc := 0, ecause := 0, emask := 0, frec := 0, teamX := 0, teamY := 0, teamZ := 0, nteamX := 0, nteamY := 0,
    nteamZ := 0, tsize := 0, nest := 0, super := true, handler := none, reissue := none, park := none, pend := [],
    lower := 0, anchor := none, fold := false, bars := [], psts := [], landing := [], acc := [], poison := [], mark := 0,
    floors := [], epoch := 0, wait := .none, readyAt := 0, tried := none, lastIssue := none, readyFor := 0, maxN := 0,
    urgent := false, waitFrom := none, priv := 0, back := false, pendPops := [], dlyLeft := 0, ended := false }

end Sys2Proof.Machine
end

