-- ==== Sys2Proof/Machine/TypesUnits.lean ====
section
/-!
DEFINITION. The state that teams, cores, copy jobs, chains and launches own.
-/

namespace Sys2Proof.Machine

/-- A copy token (R28) with the card its job was accepted with (R180). -/
structure Token where
  state : Nat
  landed : Nat
  skipped : Bool
  /-- address of the card, and whether it is an offset of the team window -/
  cardLoc : Nat
  cardSpad : Bool
  card : List Nat
  job : Nat
  deriving DecidableEq, Repr

/-- An opening of a barrier that the groups of one core, and from the home core the stream, have yet to see (R212): from
which clk, on which core, and the generation it opens. (Log entry 129 DEDUCED.) -/
structure Opening where
  due : Nat
  partner : Bool
  gen : Word
  deriving DecidableEq, Repr

/-- A team barrier (R152), with the clk at which the last arrival from a partner core reaches the home core, the openings
under way, and the generations that waits on the home core and on the partner core see (R212). -/
structure Barrier where
  expect : Nat
  isSet : Bool
  arrived : Nat
  gen : Word
  reach : Nat
  opens : List Opening
  seen : Word
  seenP : Word
  deriving DecidableEq, Repr

/-- A word of a plane region written in the current step (R184): next value, the key of the write that holds
it, and, once a second write has reached it, the first colliding key and value. -/
structure NextWord where
  w : Nat
  x : Word
  key : Word
  coll : Option (Word × Word)
  deriving DecidableEq, Repr

/-- A plane region (R242, R244).  `present` lists the words whose present value is not 0; `next` the words
with W = 1. -/
structure Plane where
  id : Nat
  size : Nat
  carry : Nat
  rule : Nat
  members : Nat
  present : List (Nat × Word)
  next : List NextWord
  steps : Word
  deriving DecidableEq, Repr

/-- An operation held in a commit buffer (R35). -/
inductive Held where
  /-- a QPUT: the queue's handle and kind, the lanes and the register words of the entry -/
  | push (handle : Word) (kind : QKind) (lanes : Word) (regs : List Vec)
  /-- a LAUNCH or a kick-register store: address and slot index of each kick, and the group's nesting depth -/
  | kick (kicks : List (Nat × Word)) (nest : Nat)
  deriving DecidableEq, Repr

/-- An entry of a commit buffer (R35): the place of its issue, by which entries are ordered, its group's exec then,
and the instruction. -/
structure HeldEntry where
  id : Nat
  turn : Nat
  gid : Nat
  pc : Word
  exec : Word
  what : Held
  deriving DecidableEq, Repr

/-- A fragment-table entry (Table A.75). -/
structure Frag where
  shape : Nat
  side : Nat
  base : Nat
  group : Nat
  deriving DecidableEq, Repr

/-- What a matrix stream waits for. -/
inductive MWait where
  | none
  | bar (b : Nat)
  deriving DecidableEq, Repr

/-- An MMA or MZERO that has not retired (R216). -/
structure MmaOp where
  tile : Nat
  issued : Nat
  zero : Bool
  due : Nat
  deriving DecidableEq, Repr

/-- A team's matrix stream (R188). -/
structure Stream where
  pc : Word
  fmt : Word
  loops : List LoopEntry
  obs : List Word
  wait : MWait
  ended : Bool
  /-- the cause that stopped it (R193) -/
  stopped : Option Nat
  /-- clk of its last issue, and the words issued in it (R188) -/
  lastIssue : Option Nat
  mmasNow : Nat
  othersNow : Nat
  inFlight : List MmaOp
  /-- clk before which it issues nothing: a barrier's pending register writes land first (R192) -/
  readyAt : Nat
  /-- since when an MMA waits for the lease, and the leases it has seen pass (R217) -/
  waiting : Option Nat
  passed : Nat
  /-- launch priority of the team (R217) -/
  prio : Nat
  deriving DecidableEq, Repr

/-- A pre-emption asked for a team and not begun (R314), or refused for want of room (R316). -/
inductive StopAsk where
  | none | asked | refused
  deriving DecidableEq, Repr

/-- Where a team is in its life (R202, R316). -/
inductive TState where
  | placed | running | stopping | saved | retired
  deriving DecidableEq, Repr

/-- Everything a team owns (Table A.1, Table B.1). -/
structure Team where
  tid : Nat
  launch : Nat
  ctx : Nat
  linear : Nat
  role : Nat
  tsize : Nat
  budget : Nat
  producer : Nat
  scratch : Nat
  tagN : Nat
  /-- home core and partner core, numbered die × 40 + core -/
  home : Nat
  partner : Nat
  state : TState
  win : List Host.Cell
  winPoison : List Nat
  tags : List (Nat × Word)
  guards : List Nat
  bars : List Barrier
  planes : List Plane
  held : List HeldEntry
  committed : Bool
  /-- place of the latest COMMIT (R36): pops issued before it are final -/
  commitTurn : Nat
  /-- places below which a COMMIT under way releases, each with the identity of that COMMIT -/
  releasing : List (Nat × Nat)
  jobs : List Nat
  tokens : List Token
  stream : Option Stream
  tiles : List (List Vec)
  frags : List Frag
  codeBase : Nat
  codeSize : Nat
  chain : Option Nat
  /-- what firmware, a pause, a deletion or an admission has asked of the team, and has not begun (R314) -/
  stop : StopAsk
  /-- bytes of the save area that its save has reserved (R316) -/
  reserved : Nat
  deriving DecidableEq, Repr

/-- A 16-byte block of a core's L1 (Table B.5): each byte with the store it is of and the step it was taken at. -/
structure L1Block where
  core : Nat
  loc : PAddr
  bytes : List Byte
  sids : List Nat
  took : List Nat
  deriving DecidableEq, Repr

/-- The lease of a core's matrix engine (R216, R217). -/
structure Lease where
  holder : Option Nat
  issued : Nat
  began : Nat
  /-- the quantum with which it began (R217, R296) -/
  quantum : Nat
  /-- clk of the last MMA of any holder, and from when the present holder may issue (R217) -/
  lastMma : Option Nat
  notBefore : Nat
  deriving DecidableEq, Repr

/-- A core; one not listed is as reset leaves it. -/
structure Core where
  core : Nat
  rot : Nat
  icache : List Nat
  /-- jobs of the order unit in entry order (R174) -/
  order : List Nat
  lease : Lease
  halted : Bool
  /-- the group slot that a STEP lets issue once, with the clk of its last issue before (R342) -/
  stepSlot : Option (Nat × Option Nat)
  drowsy : List Nat
  waking : List (Nat × Nat)
  /-- the clk of the last issue of each of its four issue slots (R204) -/
  slotClks : List (Option Nat)
  deriving DecidableEq, Repr

/-- A byte region that a job reads or writes, for footprints (R174). -/
structure Region where
  loc : PAddr
  len : Nat
  deriving DecidableEq, Repr

/-- Where a job is (R223). -/
inductive JState where
  | queued | waiting | running | ended
  deriving DecidableEq, Repr

/-- A copy job (R169 to R178). -/
structure Job where
  jid : Nat
  tid : Nat
  gid : Nat
  tok : Nat
  ctx : Nat
  core : Nat
  card : List Nat
  fmt : Word
  guard : Option Nat
  state : JState
  reads : List Region
  writes : List Region
  /-- the teams whose windows a multicast writes (R176) -/
  targets : List Nat
  /-- runs read, with the converted bytes they write and which of those are poisoned; a crypto job keeps them -/
  bufs : List (Nat × List Byte × List Nat)
  /-- runs that have begun, that have ended, and that met a translation fault -/
  runsRead : List Nat
  runsDone : List Nat
  runsFaulted : List Nat
  /-- runs whose source bytes have been read (R357) -/
  taken : List Nat
  /-- 64 KiB pages for which the job has posted its fault (R357) -/
  posted : List Nat
  /-- destination bytes written, each once, replays included (R178) -/
  wrote : List Nat
  /-- AES-GCM IV, read at the start (Table A.72) -/
  iv : List Byte
  poisoned : Bool
  failed : Bool
  /-- sectors landed before a replay (R180) -/
  landedBefore : List Nat
  replay : Bool
  skipped : Bool
  deriving DecidableEq, Repr

/-- An entry of a chain link (R258, R259), with the clk at which it becomes poppable, or 0 once it is. -/
structure LinkEntry where
  regs : List Vec
  readyAt : Nat
  deriving DecidableEq, Repr

/-- A chain link, or in the folded form its hand-over register. -/
structure Link where
  n2 : BitVec 2
  entries : List LinkEntry
  deriving DecidableEq, Repr

/-- What an input-blocked stage of a folded chain is blocked on (R260). -/
inductive Block where
  | none | qget | qput | outside
  deriving DecidableEq, Repr

/-- A stage of a chain. -/
structure Stage where
  gid : Nat
  win : Nat
  ended : Bool
  block : Block
  deriving DecidableEq, Repr

/-- A running stage chain (R256 to R266). -/
structure Chain where
  cid : Nat
  launch : Nat
  /-- the PROGRAM record's slot, for its counts and FORM edits; none for a kicked chain -/
  slot : Option Nat
  folded : Bool
  foldable : Bool
  mst : Option Nat
  stages : List Stage
  links : List Link
  running : Nat
  /-- clk from which the resumed stage may issue (R259) -/
  switchAt : Nat
  /-- a requested form, a form asked for while a switch is under way, and the end of a move under way -/
  request : Option Bool
  next : Option Bool
  movingTo : Option Bool
  moveEnd : Nat
  /-- the barriers (0), copy tokens (1) and guards (2) that its stages have used: kind, number and stage (R257) -/
  users : List (Nat × Nat × Nat)
  deriving DecidableEq, Repr

/-- One role of a launch: the kernel it runs (Table E.6) and the fields it is launched with.  `stage` is the stage of
a chain; a folded chain has one role for each of its stages, of one team. -/
structure Role where
  kernel : Nat
  entry : Nat
  threads : Nat
  budget : Nat
  scratch : Nat
  tagN : Nat
  planes : List Plane
  producer : Nat
  fmt : Word
  mst : Option Nat
  /-- argument block address and its length -/
  args : Nat
  argLen : Nat
  stage : Option Nat
  deriving DecidableEq, Repr

/-- The chain a launch runs: its form, its FOLD bit, its matrix stage and its links' width codes (R255). -/
structure ChainDesc where
  folded : Bool
  foldable : Bool
  mst : Option Nat
  links : List (BitVec 2)
  deriving DecidableEq, Repr

/-- What made a launch. -/
inductive Origin where
  | program (slot : Nat)
  /-- a kick by a team of launch `parent`: context, launch queue and packet slot -/
  | kick (ctx queue slot parent : Nat)
  /-- a firing of the queue in a slot, with its batch -/
  | firing (queue batch : Nat)
  deriving DecidableEq, Repr

/-- Consecutive teams of a grid that one die has taken (R327): from `start` up to `stop`, of which those below `next` have
been claimed. -/
structure Part where
  die : Nat
  start : Nat
  next : Nat
  stop : Nat
  deriving DecidableEq, Repr

/-- A launch in the ready pool, and the grid it becomes (R198, R323 to R328).  Team number i of a sheaf is that of
role i; of any other launch, that of linear index i. -/
structure Launch where
  lid : Nat
  ctx : Nat
  /-- the die whose ready pool holds it -/
  die : Nat
  origin : Origin
  /-- the slot of the PROGRAM record whose grid or firing it is -/
  prog : Option Nat
  roles : List Role
  sheaf : Bool
  gbar : Bool
  nx : Nat
  ny : Nat
  nz : Nat
  seed : Word
  prio : Nat
  depth : Nat
  qh : List Word
  codeBase : Nat
  codeSize : Nat
  frags : List Frag
  /-- footprint operands: write, BASE, STRIDE, RLEN and ROWS (Table C.23) -/
  feet : List (Bool × Nat × Nat × Nat × Nat)
  /-- exact placements: kernel, linear team, core (R401) -/
  places : List (Nat × Nat × Nat)
  chain : Option ChainDesc
  /-- the form asked for of the chains still to be placed (R382) -/
  form : Option Bool
  total : Nat
  /-- teams that switches of its chains have added to the grid (R265) -/
  more : Nat
  /-- the dies of its span, once firmware has given it one, and what each die has taken (R327) -/
  span : List Nat
  parts : List Part
  /-- the next team that no die has taken, and discarded teams to be run again (R317) -/
  next : Nat
  again : List Nat
  started : Bool
  /-- teams retired on each die, which the home die gathers (R327) -/
  dones : List (Nat × Nat)
  reissue : Nat
  /-- grid barriers: arrived dies of each of the four (R156) -/
  gbDies : List (List Nat)
  deriving DecidableEq, Repr

end Sys2Proof.Machine
end

