-- ==== Sys2Proof/Machine/TypesDevice.lean ====
section
/-!
DEFINITION. The state that outlives a kernel: contexts, pages, records, queues, links, ports, and what the
management core keeps.
-/

namespace Sys2Proof.Machine

/-- What owns a page's translation (R296, R300): a MAPPING record, or an area of the context's own. -/
inductive PageKind where
  | mapping | frArea | launchArea | kickPage | firstTouch | privPool | window | standing
  deriving DecidableEq, Repr

/-- An installed translation (R301, R302). -/
structure Page where
  ctx : Nat
  va : Nat
  size : Nat
  sp : Space
  frame : Nat
  perm : BitVec 3
  /-- a supervisor page (R306) -/
  sup : Bool
  kind : PageKind
  /-- slot of the MAPPING record -/
  slot : Nat
  /-- 1: the RAS policy is POISON (R365) -/
  rasPoison : Bool
  hostVis : Bool
  /-- revoked at a host warm restart (R353) -/
  revoked : Bool
  /-- a move of the page is under way (R311) -/
  moving : Bool
  /-- clk at which the page's last move ended (R310) -/
  movedAt : Option Nat
  deriving DecidableEq, Repr

/-- A context (R295). -/
structure Ctx where
  ctx : Nat
  slot : Nat
  live : Bool
  handler : Nat
  frarea : Nat
  winva : Nat
  portva : Nat
  clmask : Nat
  priv : Nat
  leaseq : Nat
  conf : Bool
  edit : Bool
  pceil : Nat
  fwait : Nat
  hostabs : Nat
  tdi : Nat
  ide : Nat
  /-- first-touch pool: pages, and where it lies; and save area in bytes left -/
  pool : Nat
  poolBase : Nat
  saveLeft : Nat
  /-- frames reserved for the context's own areas: address and bytes -/
  areas : List (Nat × Nat)
  /-- private blocks taken, of how many (R299) -/
  blocks : List Nat
  blockCount : Nat
  privFrame : Nat
  /-- AES-GCM key slots that hold a key (R340) -/
  keys : List (Nat × List Byte)
  /-- first-touch port: requests waiting (group, address), and each group's latest outcome (R306) -/
  ftReqs : List (Nat × Nat)
  ftStat : List (Nat × Nat)
  /-- refused-kick counts of the launch queues (R321) -/
  refusedKicks : List (Nat × Nat)
  /-- clk from which the host-absence clock runs (R355) -/
  absentSince : Option Nat
  endCode : Nat
  endPc : Nat
  paused : Bool
  /-- cores on which the context has placed a team (R312) -/
  cores : List Nat
  deriving DecidableEq, Repr

/-- Phases of a record (Table C.7). -/
inductive Phase where
  | empty | pending | blocked | applying | converged | conflict | failed
  deriving DecidableEq, Repr

/-- What the accepted edit asks for. -/
inductive Goal where
  | create | delete | pause | unpause | narrow
  deriving DecidableEq, Repr

/-- The Harrow's own state of a record slot; a slot not listed holds an EMPTY record (R274). -/
structure Rec where
  slot : Nat
  live : Bool
  kind : Nat
  sub : Nat
  ctx : Nat
  id : Nat
  version : Nat
  writer : Nat
  phase : Phase
  goal : Goal
  cursor : Nat
  fault : Nat
  paused : Bool
  deleted : Bool
  /-- a DELETE edit of it has been accepted -/
  deleting : Bool
  /-- CONTEXT: such an edit has ended its context's life, and no creation has failed since (R276) -/
  withdrawn : Bool
  /-- the body of the last accepted edit, and the one it replaces -/
  body : List Byte
  oldBody : List Byte
  /-- whether it has ever converged (R332), and whether its last accepted version has (R287) -/
  everConverged : Bool
  versionConverged : Bool
  /-- the PAUSE bit of the last accepted edit -/
  pauseBit : Bool
  /-- PROGRAM: a RESTART launch kept back while a page of its image moves (R288, R311) -/
  unlaunched : Bool
  handle : Word
  /-- the die that admission assigned to an EXPERT queue (R330) -/
  die : Option Nat
  /-- lives of the slot, modulo 256 (R161) -/
  gen : Nat
  refused : Nat
  dropped : Nat
  conflicts : Nat
  /-- the step's wait on an outside event has been started (R290) -/
  waiting : Bool
  /-- PROGRAM: the wait is that of its first deletion step, which an edit accepted meanwhile does not end (R288, R289) -/
  undoing : Bool
  /-- MAPPING: the shoot-down that the waiting step completes with (R301, R312) -/
  shoot : Option Nat
  /-- creation steps done, which deletion undoes; for MAPPING, pages applied -/
  made : Nat
  /-- variant chosen (R381), and the IMAGE values that the record's load steps have loaded in its life (R399) -/
  variant : Option Nat
  loaded : List Nat
  moves : Nat
  firings : Nat
  maxAge : Nat
  /-- PROGRAM: the body of the last launch step, which firings use (R404) -/
  launchBody : List Byte
  /-- PROGRAM: the variant that goes with that body (R381) -/
  launchVariant : Option Nat
  /-- PROGRAM: the launch step waits for the first team of its grid (R288) -/
  starting : Bool
  /-- what the peer of a LINK record exports: its address and length (R345) -/
  peerExp : List Nat
  /-- LINK: what the peer has presented, and whether it names this device (R344) -/
  presented : Option (Bool × List Nat)
  /-- LINK: the peer's jobs under way of which a piece has been refused (R345, R346) -/
  refusedJobs : List Nat
  /-- the ACTUAL area as the device last wrote it (R285), the model's own field: a step rewrites the standing
  entry when it differs -/
  shown : List Byte
  deriving DecidableEq, Repr

/-- An entry of a queue: a group entry's registers, or one lane record of four words (R160), with the clk it
joined. -/
structure QEntry where
  id : Nat
  regs : List Vec
  words : List Word
  at_ : Nat
  deriving DecidableEq, Repr

/-- A tentative pop (R37): the team it belongs to and the place of its issue. -/
structure Tentative where
  tid : Nat
  turn : Nat
  entry : QEntry
  deriving DecidableEq, Repr

/-- A token pending in a reorder unit (R337). -/
structure RToken where
  seq : Nat
  pos : Nat
  k : Nat
  got : List (Nat × Word)
  failed : Bool
  deriving DecidableEq, Repr

/-- A sequence whose entry the unit keeps while a token of it is pending (R336). (Log entry 140 DEDUCED.) -/
structure RSeq where
  seq : Nat
  /-- where its entry lies -/
  va : Nat
  handle : Word
  next : Nat
  deriving DecidableEq, Repr

/-- The open frame of a stream (R351). -/
structure Frame where
  index : Nat
  ts : Word
  /-- PTP time of its first packet in ns, the clk at which it opened, and that packet's sequence number -/
  stamp : Nat
  opened : Nat
  firstSeq : Nat
  /-- pieces landed: line, first byte, bytes -/
  got : List (Nat × Nat × Nat)
  slicesDone : List Nat
  deriving DecidableEq, Repr

/-- A hardware queue (R161, R166), by the slot of its QUEUE record. (Log entry 49 DESIGN CHOICE.) -/
structure Queue where
  slot : Nat
  ctx : Nat
  kind : QKind
  handle : Word
  /-- pushes and pops are open (third creation step) -/
  isOpen : Bool
  closed : Bool
  paused : Bool
  n2 : BitVec 2
  cap : Nat
  drop : Bool
  /-- the die whose queue SRAM and firing unit serve it (R330) -/
  die : Nat
  entries : List QEntry
  tents : List Tentative
  /-- pops waiting, in the order they reached the queue -/
  pops : List Nat
  /-- EXPERT: its fields of Table C.24 -/
  prog : Nat
  spill : Nat
  batch : Nat
  fill : Nat
  ageT : Nat
  pclass : Nat
  rdom : Word
  /-- the spill ring's address, the records read from it so far, and the identity and clk of each token it holds, oldest
  first (R334) -/
  ring : Nat
  ringHead : Nat
  spilled : List (Nat × Nat)
  /-- REORDER; `rfails` are failed tokens, by sequence and position, that wait for room (R337) -/
  nseq : Nat
  seqVa : Nat
  rtoks : List RToken
  rseqs : List RSeq
  rfails : List (Nat × Nat)
  /-- STREAM -/
  source : Nat
  group : Nat
  udp : Nat
  height : Nat
  width : Nat
  samp : Nat
  ess : Nat
  port : Nat
  sub : Nat
  deadline : Nat
  slice : Nat
  bufVa : Nat
  nbuf : Nat
  stride : Nat
  slotSz : Nat
  ref : Option Word
  frame : Option Frame
  frames : Nat
  partials : Nat
  late : Nat
  droppedEntries : Nat
  deriving DecidableEq, Repr

/-- A firing's batch (R331): its records, and those not yet popped. -/
structure Batch where
  bid : Nat
  queue : Nat
  all : List (List Word)
  left : List (List Word)
  deriving DecidableEq, Repr

/-- A host-resolved fault pending in a die's batcher (R308). -/
structure PostedFault where
  die : Nat
  ctx : Nat
  va : Nat
  /-- accesses seen, as bits of Table C.17 -/
  access : Nat
  mapId : Nat
  /-- groups that posted it, and how many faults it merges -/
  groups : List Nat
  count : Nat
  posted : Nat
  /-- it has been written to the ring and waits for the host (R307) -/
  sent : Bool
  deriving DecidableEq, Repr

/-- A shoot-down under way (R312): the page, where its frame lay, and the identity below which accesses took the old
translation. -/
structure Shoot where
  sd : Nat
  ctx : Nat
  va : Nat
  size : Nat
  sp : Space
  frame : Nat
  upTo : Nat
  /-- of a page that its record releases: its frame goes back at the acknowledgement (R301) -/
  release : Bool
  deriving DecidableEq, Repr

/-- A page move under way (R311). -/
structure Move where
  mv : Nat
  ctx : Nat
  va : Nat
  toHost : Bool
  lockVa : Nat
  /-- it follows another move within 200 µs, so that the page is pinned where it lands (R310) -/
  pin : Bool
  deriving DecidableEq, Repr

/-- A REMOTE or PINNED hold of a page (R310). -/
structure Hold where
  remote : Bool
  ctx : Nat
  va : Nat
  lockVa : Nat
  expires : Nat
  deriving DecidableEq, Repr

/-- A migration request waiting for the arbiter (R310); `host` says whose it is. -/
structure MigReq where
  ctx : Nat
  va : Nat
  host : Bool
  at_ : Nat
  deriving DecidableEq, Repr

/-- An Mbaux port (R343). -/
structure MPort where
  port : Nat
  ethernet : Bool
  up : Bool
  lostAt : Option Nat
  deriving DecidableEq, Repr

/-- A loaded image's code region (R43): it is read-only to groups. -/
structure CodeRegion where
  ctx : Nat
  va : Nat
  len : Nat
  deriving DecidableEq, Repr

/-- A voltage island's ISLV and its trim history (Table D.2, R370). -/
structure Island where
  isl : Nat
  barred : Bool
  nt : Bool
  hold : Nat
  safe : Nat
  vcur : Nat
  barEnd : Nat
  /-- clk of the last trim step, and corrected errors in the running window -/
  trimmed : Option Nat
  corrected : Nat
  windowAt : Nat
  /-- clk at which an exit from near-threshold mode began (R220) -/
  exitAt : Option Nat
  /-- its groups have asked for near-threshold mode without a break since it last entered it (R372) -/
  asked : Bool
  deriving DecidableEq, Repr

/-- A cluster's CSLR (Table A.62), with the values firmware policy last set and the droop that replaced them
(R375). -/
structure Cslr where
  cluster : Nat
  wave : Nat
  space : Nat
  policyWave : Nat
  policySpace : Nat
  droopAt : Option Nat
  deriving DecidableEq, Repr

/-- A die's management state: issue throttle and temperatures (R374). -/
structure DieMgmt where
  die : Nat
  throttle : Nat
  /-- a change takes effect at the next multiple of 16 clk (R209) -/
  nextThrottle : Nat
  temps : List Nat
  watts : Nat
  lastStep : Nat
  deriving DecidableEq, Repr

/-- A notification waiting for room in the ring, or its coalescing state (R293, R294). -/
structure Note where
  kind : Nat
  fault : Nat
  slot : Nat
  id : Nat
  writer : Nat
  mark : Nat
  base : Nat
  lastWriter : Nat
  cursor : Nat
  seq : Nat
  deriving DecidableEq, Repr

/-- Messages the device sends out: what the host, the debugger and the peers see of it. -/
inductive Out where
  | msix (vector : Nat)
  | hostData (a : Nat) (bytes : List Byte) (poison : Bool)
  | dbg (value : List Nat)
  | refused (what : Nat)
  | signature (bytes : List Byte)
  | peer (link : Nat) (va : Nat) (bytes : List Byte) (add : Bool)
  | peerPoison (link : Nat) (va : Nat)
  | peerRefused (link : Nat)
  | peerData (link : Nat) (bytes : List Byte)
  deriving DecidableEq, Repr

/-- A TDISP interface (R296, R340): its state (3 is RUN), its IDE stream and its owner. -/
structure Tdisp where
  tdi : Nat
  state : Nat
  ide : Nat
  owner : Nat
  deriving DecidableEq, Repr

/-- Corrections of a 4 KiB region within 24 hours (R364). -/
structure Wear where
  region : Nat
  counts : List Nat
  remapped : Bool
  deriving DecidableEq, Repr

/-- A publish store seen by the write-watch hardware (R279, R292). -/
structure Publish where
  slot : Nat
  host : Bool
  ctx : Nat
  deriving DecidableEq, Repr

end Sys2Proof.Machine
end

