-- ==== Sys2Proof/Machine/State.lean ====
section
/-!
DEFINITION. The machine's state, everything the spec gives it, and the state right after reset.
-/

namespace Sys2Proof.Machine

/-- The arguments of a hardware step: the object it is taken for and the outside input it delivers.  Each
constructor of `Instr` says which of them it reads. (Log entries 4 DESIGN CHOICE, 112 DESIGN CHOICE.) -/
structure EvArg where
  a : Nat
  b : Nat
  c : Nat
  d : Nat
  e : Nat
  f : Nat
  flag : Bool
  flag2 : Bool
  loc : PAddr
  bytes : List Byte
  nats : List Nat
  pairs : List (Nat × Nat)
  deriving DecidableEq, Repr

/-- No arguments. -/
def EvArg.zero : EvArg :=
  { a := 0, b := 0, c := 0, d := 0, e := 0, f := 0, flag := false, flag2 := false,
    loc := ⟨.dev, 0⟩, bytes := [], nats := [], pairs := [] }

/-- A hardware step with its arguments, as an outside schedule may name it. -/
structure Ev where
  op : Instr
  arg : EvArg
  deriving DecidableEq, Repr

/-- Who issues an instruction: a group, or the matrix stream of a team. -/
inductive Who where
  | group (gid : Nat)
  | stream (tid : Nat)
  deriving DecidableEq, Repr

/-- The issue in progress: who issues, the word's stall count and length (R47, R43), and the 24 bits of an EXT
before it (R56). (Log entries 3 DESIGN CHOICE, 20 DESIGN CHOICE.) -/
structure Issue where
  who : Who
  sc : Nat
  len : Nat
  ext : Option (BitVec 24)
  deriving DecidableEq, Repr

/-- A store in a location's coherence order (Table B.5), byte by byte: the store, its value, and whether its
reach is SYSTEM (R226). -/
structure CoEntry where
  loc : PAddr
  sid : Nat
  val : Byte
  sys : Bool
  deriving DecidableEq, Repr

/-- Why the machine stops. -/
inductive Fault where
  /-- `exec` of an instruction word when no issue is in progress; raised by every meaning of an instruction
  word.  Safe: no run of `step` reaches it. -/
  | noIssue
  /-- `exec` of an instruction word whose issuing group or team is not listed.  Safe: as `noIssue`. -/
  | noAgent
  deriving DecidableEq, Repr

/-- Why an instruction has no meaning. -/
inductive Refusal where
  /-- the instruction of this mnemonic is not modelled; raised by the arms of `exec` alone.  Safe. -/
  | notModelled (mnemonic : String)
  deriving DecidableEq, Repr

/-- The whole device. -/
structure State where
  /-- clk since reset, of every die (R39) -/
  clk : Nat
  /-- ordering code: 0 VXC-36, 1 VXP-144, 2 VXM-144 (Table 0.1) -/
  code : Nat
  /-- enabled cores of each die, bit c for core c (R3) -/
  defect : List Nat
  /-- steps of the ordering machine, and the next identity of an access, store, job or entry -/
  opStep : Nat
  nextId : Nat
  freeCount : Nat
  issue : Option Issue
  arg : EvArg
  sched : List Ev
  /-- device, host and peer memory: the last store of every byte's coherence order -/
  dev : List Host.Cell
  hostMem : List Host.Cell
  peers : List (Nat × List Host.Cell)
  /-- poisoned 64-bit granules of device memory, by their address (R132, R362) -/
  devPoison : List Nat
  /-- granules of host and of each peer's memory that a job has written poisoned (R367) -/
  hostPoison : List Nat
  peerPoison : List (Nat × List Nat)
  co : List CoEntry
  stores : List Store
  l1 : List L1Block
  groups : List Group
  teams : List Team
  cores : List Core
  jobs : List Job
  chains : List Chain
  launches : List Launch
  tickets : List (Nat × Nat)
  batches : List Batch
  ctxs : List Ctx
  pages : List Page
  images : List CodeRegion
  /-- frames of device memory in use: address and bytes -/
  frames : List (Nat × Nat)
  /-- owner tags: frame address and context (R363) -/
  tags : List (Nat × Nat × Nat)
  recs : List Rec
  queues : List Queue
  publishes : List Publish
  /-- notification page and coalescer (Table C.9, R294) -/
  prod : Word
  cons : Word
  ncount : Nat
  nhold : Nat
  overrun : Word
  nvector : Nat
  notes : List Note
  noteSeq : Nat
  pendingNotes : List Nat
  /-- the vector under which the coalescer's own message is held (R294) -/
  noteHeld : Option Nat
  masked : List Nat
  heldMsix : List Nat
  /-- host fault ring (Table C.16) -/
  fprod : Word
  /-- records written to it since reset, of which FPROD holds the low 32 bits (R308) -/
  fcount : Nat
  fcons : Word
  foverrun : Word
  fvector : Nat
  fheld : List (List Byte)
  batchSeq : Nat
  faults : List PostedFault
  shoots : List Shoot
  moves : List Move
  holds : List Hold
  migReqs : List MigReq
  tdisp : List Tdisp
  ports : List MPort
  ptpLocked : Bool
  /-- the PTP clock (R349): its time in ns when it was last set and the clk of that; the port and sub-port that it locks to,
  and its domain -/
  ptpNs : Nat
  ptpSet : Nat
  ptpPort : Nat
  ptpSub : Nat
  ptpDomain : Nat
  out : List Out
  /-- management core and crash region (Tables D.2 to D.4) -/
  islands : List Island
  cslrs : List Cslr
  dies : List DieMgmt
  /-- s0 to s63 of the management core, as its firmware left them (R377) -/
  mgmt : Group
  wear : List Wear
  inReset : Bool
  crash : List Host.Cell
  boots : Nat
  events : Nat
  bankB : Bool
  fwVersion : Nat
  fwBuild : Nat
  fwMin : Nat
  fwStaged : List Byte
  fwReady : Bool
  leafIndex : Nat
  repair : List Nat
  /-- the crash record has been read by the host, and the boot count then (R377) -/
  crashRead : Option Nat
  deriving DecidableEq, Repr

/-- The 36 lowest cores of each of four dies: the smallest set R3 allows; the spec gives no map.
(Log entry 2 DESIGN CHOICE.) -/
def resetDefect : List Nat := [0xFFFFFFFFF, 0xFFFFFFFFF, 0xFFFFFFFFF, 0xFFFFFFFFF]

/-- The crash region after power-on (Table D.3): the boot count 1, the defect map, and its signature (R380), the first
eight bytes of the map's SHA-256 digest. (Log entry 1 DESIGN CHOICE.) -/
def resetCrash : List Host.Cell :=
  [(0x00, 1)]
  ++ [(0x20, 0xFF), (0x21, 0xFF), (0x22, 0xFF), (0x23, 0xFF), (0x24, 0x0F)]
  ++ [(0x28, 0xFF), (0x29, 0xFF), (0x2A, 0xFF), (0x2B, 0xFF), (0x2C, 0x0F)]
  ++ [(0x30, 0xFF), (0x31, 0xFF), (0x32, 0xFF), (0x33, 0xFF), (0x34, 0x0F)]
  ++ [(0x38, 0xFF), (0x39, 0xFF), (0x3A, 0xFF), (0x3B, 0xFF), (0x3C, 0x0F)]
  ++ [(0x40, 0xDC), (0x41, 0xF7), (0x42, 0x81), (0x43, 0xE4), (0x44, 0x01), (0x45, 0x45), (0x46, 0x78), (0x47, 0x77)]

/-- The machine right after power-on and reset: nothing placed, no record, memory with nothing listed
(R274, R376, and the starting values of each register's table).
(Log entries 1 DESIGN CHOICE, 2 DESIGN CHOICE, 5 DESIGN CHOICE, 6 DEDUCED.) -/
def State.reset : State :=
  { clk := 0, code := 1, defect := resetDefect, opStep := 0, nextId := 1, freeCount := 0,
    issue := none, arg := EvArg.zero, sched := [],
    dev := [], hostMem := [], peers := [], devPoison := [], hostPoison := [], peerPoison := [], co := [], stores := [], l1 := [],
    groups := [], teams := [], cores := [], jobs := [], chains := [], launches := [], tickets := [],
    batches := [], ctxs := [], pages := [], images := [], frames := [], tags := [], recs := [], queues := [],
    publishes := [],
    prod := 0, cons := 0, ncount := 0x010, nhold := 0x014, overrun := 0, nvector := 0,
    notes := [], noteSeq := 0, pendingNotes := [], noteHeld := none, masked := [], heldMsix := [],
    fprod := 0, fcount := 0, fcons := 0, foverrun := 0, fvector := 0, fheld := [], batchSeq := 0,
    faults := [], shoots := [], moves := [], holds := [], migReqs := [],
    tdisp := [], ports := [], ptpLocked := false, ptpNs := 0, ptpSet := 0, ptpPort := 0, ptpSub := 0, ptpDomain := 127, out := [],
    islands := [], cslrs := [], dies := [], mgmt := mgmtReset, wear := [], inReset := false,
    crash := resetCrash, boots := 1, events := 0, bankB := false, fwVersion := 0, fwBuild := 0, fwMin := 0,
    fwStaged := [], fwReady := false, leafIndex := 0, repair := [], crashRead := none }

end Sys2Proof.Machine
end

