-- ==== Sys2Proof/Machine/Store.lean ====
section
/-!
DEFINITION. Looking up and replacing the objects of the state, memory as canonical lists of cells, and the home
of every location (Table B.5): a store joining its coherence order.
-/

namespace Sys2Proof.Machine

/-! ### Registers -/

/-- The lane numbers. -/
def lanes32 : List Nat := List.range 32

/-- The word of a lane. -/
def vget (v : Vec) (l : Nat) : Word := v.getD l 0

/-- The vector whose lane l holds f l. -/
def vmk (f : Nat → Word) : Vec := lanes32.map f

/-- New words in the lanes of a mask, the old ones elsewhere (R22). -/
def blend (m : Word) (new old : Vec) : Vec := vmk fun l => if m.getLsbD l then vget new l else vget old l

def Group.vreg (g : Group) (r : Nat) : Vec := g.v.getD r []
def Group.vlane (g : Group) (r l : Nat) : Word := vget (g.vreg r) l

/-- A scalar register; s0 reads 0 (R20). -/
def Group.sreg (g : Group) (r : Nat) : Word := if r = 0 then 0 else g.s.getD r 0

/-- A scalar register written; a write to s0 is discarded (R20). -/
def Group.setS (g : Group) (r : Nat) (x : Word) : Group := if r = 0 then g else { g with s := g.s.set r x }

/-- The 64-bit value of the pair named by an even register, low half first; the pair named s0 reads 0 in its low
half (R20). -/
def Group.pair (g : Group) (r : Nat) : BitVec 64 := g.sreg (r + 1) ++ g.sreg r

/-- The pair written (R20). -/
def Group.setPair (g : Group) (r : Nat) (x : BitVec 64) : Group :=
  (g.setS r (x.extractLsb' 0 32)).setS (r + 1) (x.extractLsb' 32 32)

/-- The lanes of a mask written in a vector register. -/
def Group.setV (g : Group) (r : Nat) (m : Word) (x : Vec) : Group :=
  { g with v := g.v.set r (blend m x (g.vreg r)) }

/-- A fixed-latency result of latency n beats, issued at a clk, for the lanes in exec (R48): a result of one beat
is what the group's next instruction reads, and a longer one lands later.  With exec = 0 there is no write
(R109). -/
def Group.writeV (g : Group) (clk n r : Nat) (x : Vec) : Group :=
  if g.exec = 0 then g
  else if n ≤ 1 then g.setV r g.exec x
  else { g with landing := g.landing ++ [{ scalar := false, reg := r, lanes := g.exec, value := x, due := clk + 4 * n }] }

/-- A fixed-latency scalar result (R48). -/
def Group.writeS (g : Group) (clk n r : Nat) (x : Word) : Group :=
  if n ≤ 1 then g.setS r x
  else if r = 0 then g
  else { g with landing := g.landing ++ [{ scalar := true, reg := r, lanes := 0, value := [x], due := clk + 4 * n }] }

/-- One pending write landed. -/
def Group.land (g : Group) (w : Landing) : Group :=
  if w.scalar then g.setS w.reg (vget w.value 0) else g.setV w.reg w.lanes w.value

/-- Every pending write landed, in issue order (R51). -/
def Group.settle (g : Group) : Group := { g.landing.foldl Group.land g with landing := [] }

/-- The pending writes that are due landed. -/
def Group.landDue (g : Group) (clk : Nat) : Group :=
  { (g.landing.filter (fun w => decide (w.due ≤ clk))).foldl Group.land g with
    landing := g.landing.filter (fun w => !decide (w.due ≤ clk)) }

/-! ### Memory as a canonical list of cells -/

/-- What an address that no cell lists reads as. (Log entry 1 DESIGN CHOICE.) -/
def unlisted : Byte := 0

/-- The byte at an address. -/
def cellsGet : List Host.Cell → Nat → Byte
  | [], _ => unlisted
  | (k, b) :: r, a => if k = a then b else cellsGet r a

/-- The list with one byte written, in canonical form. -/
def cellsPut : List Host.Cell → Nat → Byte → List Host.Cell
  | [], a, v => if v = unlisted then [] else [(a, v)]
  | (k, b) :: r, a, v =>
    if a < k then (if v = unlisted then (k, b) :: r else (a, v) :: (k, b) :: r)
    else if a = k then (if v = unlisted then r else (a, v) :: r)
    else (k, b) :: cellsPut r a v

/-- The list with consecutive bytes written from an address on. -/
def cellsPutAll (m : List Host.Cell) (a : Nat) : List Byte → List Host.Cell
  | [] => m
  | b :: bs => cellsPutAll (cellsPut m a b) (a + 1) bs

/-- The n bytes from an address on. -/
def cellsGetN (m : List Host.Cell) (a : Nat) : Nat → List Byte
  | 0 => []
  | n + 1 => cellsGet m a :: cellsGetN m (a + 1) n

/-- Canonical form: addresses strictly rising from `lo`, and no entry that an unlisted address would read as. -/
def cellsWfFrom : Nat → List Host.Cell → Bool
  | _, [] => true
  | lo, (k, b) :: r => decide (lo ≤ k) && decide (b ≠ unlisted) && cellsWfFrom (k + 1) r

/-- Canonical form of a memory. -/
def Memory.wf (m : List Host.Cell) : Bool := cellsWfFrom 0 m

/-! ### Lists keyed by a number -/

/-- The first element with a property, or a default. -/
def findD {α : Type} (p : α → Bool) (d : α) (l : List α) : α :=
  match l.find? p with
  | some x => x
  | none => d

/-- The list with the element of x's key replaced by x; x is added at the end where none has the key. -/
def putKey {α : Type} (key : α → Nat) (x : α) : List α → List α
  | [] => [x]
  | y :: r => if key y = key x then x :: r else y :: putKey key x r

/-- The element of the list at a place, or a default. -/
def nth {α : Type} (l : List α) (i : Nat) (d : α) : α := l.getD i d

/-- The state after a step for each element of a list, in order. -/
def State.each {α : Type} (s : State) (l : List α) (f : State → α → State) : State := l.foldl f s

/-! ### Objects of the state -/

def State.group? (s : State) (g : Nat) : Option Group := s.groups.find? (fun x => x.gid == g)
def State.putGroup (s : State) (g : Group) : State := { s with groups := putKey Group.gid g s.groups }
def State.team? (s : State) (t : Nat) : Option Team := s.teams.find? (fun x => x.tid == t)
def State.putTeam (s : State) (t : Team) : State := { s with teams := putKey Team.tid t s.teams }
/-- Whether the state of a team's chain is being moved to its other form (R265). (Log entry 110 DEDUCED.) -/
def State.chainMoves (s : State) (t : Team) : Bool :=
  match t.chain with
  | none => false
  | some c => s.chains.any fun x => x.cid == c && x.movingTo.isSome
/-- A group of a team that is not saved (R316) and whose chain is not being moved (R265). (Log entry 110 DEDUCED.) -/
def State.awake? (s : State) (g : Nat) : Option Group :=
  (s.group? g).filter fun x => match s.team? x.tid with
    | some t => t.state != .saved && !s.chainMoves t
    | none => true
/-- A team that is not saved. -/
def State.awakeTeam? (s : State) (t : Nat) : Option Team := (s.team? t).filter fun x => x.state != .saved
def State.job? (s : State) (j : Nat) : Option Job := s.jobs.find? (fun x => x.jid == j)
def State.putJob (s : State) (j : Job) : State := { s with jobs := putKey Job.jid j s.jobs }
def State.chain? (s : State) (c : Nat) : Option Chain := s.chains.find? (fun x => x.cid == c)
def State.putChain (s : State) (c : Chain) : State := { s with chains := putKey Chain.cid c s.chains }
def State.launch? (s : State) (l : Nat) : Option Launch := s.launches.find? (fun x => x.lid == l)
def State.putLaunch (s : State) (l : Launch) : State := { s with launches := putKey Launch.lid l s.launches }
def State.queue? (s : State) (q : Nat) : Option Queue := s.queues.find? (fun x => x.slot == q)
def State.putQueue (s : State) (q : Queue) : State := { s with queues := putKey Queue.slot q s.queues }
def State.ctx? (s : State) (c : Nat) : Option Ctx := s.ctxs.find? (fun x => x.ctx == c)
def State.putCtx (s : State) (c : Ctx) : State := { s with ctxs := putKey Ctx.ctx c s.ctxs }

/-- A core no step has touched yet: the rotation count starts at 0 (R201), and every bank, holding no register, is drowsy
(R221). -/
def Core.fresh (c : Nat) : Core :=
  { core := c, rot := 0, icache := [], order := [], lease := ⟨none, 0, 0, 0, none, 0⟩, halted := false, stepSlot := none,
    drowsy := List.range 16, waking := [], slotClks := List.replicate 4 none }

def State.core (s : State) (c : Nat) : Core := findD (fun x => x.core == c) (Core.fresh c) s.cores
def State.putCore (s : State) (c : Core) : State := { s with cores := putKey Core.core c s.cores }

/-- A record slot after a cold reset: EMPTY, version 0 (R274). -/
def Rec.fresh (i : Nat) : Rec :=
  { slot := i, live := false, kind := 0, sub := 0, ctx := 0, id := 0, version := 0, writer := 0,
    phase := .empty, goal := .create, cursor := 0, fault := 0, paused := false, deleted := false, deleting := false,
    body := [], oldBody := [], everConverged := false,
    versionConverged := false, withdrawn := false, presented := none, refusedJobs := [], pauseBit := false,
    unlaunched := false, launchVariant := none, starting := false, handle := 0, die := none, gen := 0, refused := 0, dropped := 0,
    conflicts := 0, waiting := false, undoing := false, shoot := none, made := 0, variant := none, loaded := [], moves := 0, firings := 0,
    maxAge := 0, launchBody := [], peerExp := [], shown := [] }

def State.record (s : State) (i : Nat) : Rec := findD (fun x => x.slot == i) (Rec.fresh i) s.recs
def State.putRecord (s : State) (r : Rec) : State := { s with recs := putKey Rec.slot r s.recs }

/-- ISLV at reset (Table D.2). -/
def Island.fresh (i : Nat) : Island :=
  { isl := i, barred := false, nt := false, hold := 0, safe := 750, vcur := 750, barEnd := 0, trimmed := none,
    corrected := 0, windowAt := 0, exitAt := none, asked := false }

def State.island (s : State) (i : Nat) : Island := findD (fun x => x.isl == i) (Island.fresh i) s.islands
def State.putIsland (s : State) (i : Island) : State := { s with islands := putKey Island.isl i s.islands }

/-- CSLR at reset (Table A.62). -/
def Cslr.fresh (c : Nat) : Cslr :=
  { cluster := c, wave := 0x3F, space := 0, policyWave := 0x3F, policySpace := 0, droopAt := none }

def State.cslr (s : State) (c : Nat) : Cslr := findD (fun x => x.cluster == c) (Cslr.fresh c) s.cslrs
def State.putCslr (s : State) (c : Cslr) : State := { s with cslrs := putKey Cslr.cluster c s.cslrs }

/-- A die's management state before any sample: no throttling (R209). (Log entry 5 DESIGN CHOICE.) -/
def DieMgmt.fresh (d : Nat) : DieMgmt :=
  { die := d, throttle := 16, nextThrottle := 16, temps := [], watts := 0, lastStep := 0 }

def State.dieMgmt (s : State) (d : Nat) : DieMgmt := findD (fun x => x.die == d) (DieMgmt.fresh d) s.dies
def State.putDie (s : State) (d : DieMgmt) : State := { s with dies := putKey DieMgmt.die d s.dies }

/-- A port before any record names it (R343). (Log entry 5 DESIGN CHOICE.) -/
def MPort.fresh (p : Nat) : MPort := { port := p, ethernet := false, up := true, lostAt := none }

def State.port (s : State) (p : Nat) : MPort := findD (fun x => x.port == p) (MPort.fresh p) s.ports
def State.putPort (s : State) (p : MPort) : State := { s with ports := putKey MPort.port p s.ports }

/-- A TDISP interface before any message: not in RUN. (Log entry 5 DESIGN CHOICE.) -/
def Tdisp.fresh (t : Nat) : Tdisp := { tdi := t, state := 0, ide := 0, owner := 0 }

def State.tdi (s : State) (t : Nat) : Tdisp := findD (fun x => x.tdi == t) (Tdisp.fresh t) s.tdisp
def State.putTdi (s : State) (t : Tdisp) : State := { s with tdisp := putKey Tdisp.tdi t s.tdisp }

/-- The next identity, taken. (Log entry 3 DESIGN CHOICE.) -/
def State.newId (s : State) : Nat × State := (s.nextId, { s with nextId := s.nextId + 1 })

/-- The next free value, taken. (Log entry 3 DESIGN CHOICE.) -/
def State.free (s : State) : BitVec 64 × State :=
  (Config.freeValue s.freeCount, { s with freeCount := s.freeCount + 1 })

/-- A message sent out. (Log entry 4 DESIGN CHOICE.) -/
def State.emit (s : State) (o : Out) : State := { s with out := s.out ++ [o] }

/-! ### Places and sizes of the device (Table 0.1, R3) -/

/-- (Log entry 2 DESIGN CHOICE.) -/
def State.dieCount (s : State) : Nat := if s.code = 0 then 1 else 4
def State.ctxLimit (s : State) : Nat := if s.code = 0 then 16 else 64
def State.portCount (s : State) : Nat := if s.code = 0 then 2 else 8

/-- Core number on the package, of core c of die d, and back. -/
def coreOf (d c : Nat) : Nat := d * 40 + c
def dieOfCore (c : Nat) : Nat := c / 40
def clusterOfCore (c : Nat) : Nat := c / 4

/-- Clusters are numbered die × 10 + cluster. -/
def Team.cluster (t : Team) : Nat := t.home / 4

/-- Whether a core is enabled in the defect map (R3). (Log entry 2 DESIGN CHOICE.) -/
def State.enabled (s : State) (c : Nat) : Bool := (nth s.defect (c / 40) 0).testBit (c % 40)

/-- Near memory of a die begins at die × 2 GiB; far memory at 0x0100_0000_0000, in four equal shares.
(Log entry 65 DESIGN CHOICE.) -/
def nearSize : Nat := 0x80000000
/-- (Log entry 65 DESIGN CHOICE.) -/
def farBase : Nat := 0x10000000000
/-- (Log entries 65 DESIGN CHOICE, 118 DESIGN CHOICE.) -/
def farShare : Nat := 0x6000000000
def harrowBase : Nat := 0xFF00000000

/-- The die that holds the home of a device address. -/
def homeDie (a : Nat) : Nat :=
  if a < harrowBase then a / nearSize % 4 else if a < farBase then 0 else (a - farBase) / farShare % 4

/-! ### Memory by space -/

/-- The bytes of a space; the kick page and the first-touch port are no memory. -/
def State.cells (s : State) : Space → List Host.Cell
  | .dev => s.dev
  | .host => s.hostMem
  | .peer l => match s.peers.find? (fun p => p.1 == l) with
    | some p => p.2
    | none => []
  | .win t => match s.team? t with
    | some t => t.win
    | none => []
  | .plane .. => []
  | .kick _ => []
  | .port _ => []

/-- The state with the bytes of a space replaced. -/
def State.putCells (s : State) (sp : Space) (m : List Host.Cell) : State :=
  match sp with
  | .dev => { s with dev := m }
  | .host => { s with hostMem := m }
  | .peer l => { s with peers := putKey Prod.fst (l, m) s.peers }
  | .win t => match s.team? t with
    | some tm => s.putTeam { tm with win := m }
    | none => s
  | .plane .. => s
  | .kick _ => s
  | .port _ => s

/-- The byte at a location's home: the last store of its coherence order. -/
def State.byteAt (s : State) (p : PAddr) : Byte := cellsGet (s.cells p.sp) p.a

/-- The n bytes at a location's home. -/
def State.bytesAt (s : State) (p : PAddr) (n : Nat) : List Byte := cellsGetN (s.cells p.sp) p.a n

/-- The word at a location's home. -/
def State.wordAt (s : State) (p : PAddr) : Word := BitVec.ofNat 32 (leNat (s.bytesAt p 4))

/-- The number that the n bytes at a device address spell. -/
def State.numAt (s : State) (a n : Nat) : Nat := leNat (cellsGetN s.dev a n)

/-- Poisoned granules of a space. (Log entry 152 DEDUCED.) -/
def State.poisonOf (s : State) : Space → List Nat
  | .dev => s.devPoison
  | .host => s.hostPoison
  | .peer l => (match s.peerPoison.find? (fun p => p.1 == l) with
    | some p => p.2
    | none => [])
  | .win t => match s.team? t with
    | some t => t.winPoison
    | none => []
  | _ => []

/-- (Log entry 152 DEDUCED.) -/
def State.putPoison (s : State) (sp : Space) (l : List Nat) : State :=
  match sp with
  | .dev => { s with devPoison := l }
  | .host => { s with hostPoison := l }
  | .peer k => { s with peerPoison := putKey Prod.fst (k, l) s.peerPoison }
  | .win t => match s.team? t with
    | some tm => s.putTeam { tm with winPoison := l }
    | none => s
  | _ => s

/-- Whether the 64-bit granule that holds an address is poisoned (R132). -/
def State.poisonedAt (s : State) (p : PAddr) : Bool := (s.poisonOf p.sp).contains (p.a / 8 * 8)

/-- Whether any granule of a run of bytes is poisoned. -/
def State.anyPoison (s : State) (p : PAddr) : Nat → Bool
  | 0 => false
  | n + 1 => s.poisonedAt (p.plus n) || s.anyPoison p n

/-- The bytes of a store that are performed: a store that writes a whole granule clears its poison, and a
narrower store to a poisoned granule is not performed (R132). -/
def State.clearPoison (s : State) (p : PAddr) (n : Nat) : State :=
  let l := s.poisonOf p.sp
  let l' := l.filter (fun g => !(decide (p.a ≤ g) && decide (g + 8 ≤ p.a + n)))
  if l'.length = l.length then s else s.putPoison p.sp l'

/-! ### A store reaching its home -/

/-- The entries of one store in the coherence orders of its bytes. -/
def coOf (p : PAddr) (sid : Nat) (sys : Bool) : List Byte → List CoEntry
  | [] => []
  | b :: bs => { loc := p, sid := sid, val := b, sys := sys } :: coOf (p.plus 1) sid sys bs

/-- Bytes written at their home one by one, but for those of granules that stay poisoned. -/
def State.writeHome (s : State) (p : PAddr) (bytes : List Byte) : State :=
  let s := s.clearPoison p bytes.length
  if s.anyPoison p bytes.length then
    s.each bytes.zipIdx fun s x =>
      if s.poisonedAt (p.plus x.2) then s else s.putCells p.sp (cellsPut (s.cells p.sp) (p.a + x.2) x.1)
  else s.putCells p.sp (cellsPutAll (s.cells p.sp) p.a bytes)

/-- The slots whose claim words a store covers, in part or whole (R279, R280). -/
def claimSlots (p : PAddr) (n : Nat) : List Nat :=
  if p.sp = .dev && decide (harrowBase < p.a + n) && decide (p.a < harrowBase + 0x400000) then
    ((List.range (n / 0x100 + 2)).map fun k => (p.a - harrowBase) / 0x100 + k).filter fun i =>
      let w := harrowBase + 0x100 * i + 0x20
      decide (i < 16384) && decide (p.a < w + 8) && decide (w < p.a + n)
  else []

/-- The write-watch hardware at the claim word of a slot (R279, R280): a publish is noted when a store that ends at
`stop` or beyond sets PUB while CLAIM is not 0, and bits [63:32] return to 0 whenever bits [31:0] are 0. -/
def State.watchSlot (s : State) (i stop : Nat) (host : Bool) (ctx : Nat) : State :=
  let w := harrowBase + 0x100 * i + 0x20
  if s.numAt w 4 = 0 then
    let (id, s) := s.newId
    { s with dev := cellsPutAll s.dev (w + 4) [0, 0, 0, 0], co := s.co ++ coOf ⟨.dev, w + 4⟩ id true [0, 0, 0, 0] }
  else if decide (s.numAt w 8 ≥ 2 ^ 63) && decide (w + 8 ≤ stop) then
    { s with publishes := s.publishes ++ [{ slot := i, host := host, ctx := ctx }] }
  else s

/-- The write-watch hardware at every claim word that a store covers. -/
def State.watchClaim (s : State) (p : PAddr) (n : Nat) (host : Bool) (ctx : Nat) : State :=
  s.each (claimSlots p n) fun s i => s.watchSlot i (p.a + n) host ctx

/-! ### Reading a location (R226) -/

/-- How wide a reach is. -/
def Reach.num : Reach → Nat
  | .none => 0
  | .cluster => 1
  | .die => 2
  | .device => 3
  | .system => 4

/-- The reach at which a store is performed at a scope of Table A.56; TEAM and CLUSTER share one point. -/
def scopeReach (scope : Nat) : Nat := if scope ≤ 1 then 1 else scope

/-- The reach at which one store counts as performed at a scope: one to host or peer memory only when it has been sent
(R341, R345). -/
def Store.reachAt (x : Store) (scope : Nat) : Nat :=
  match x.tgt with
  | .mem p => (match p.sp with
    | .host => 4
    | .peer _ => 4
    | _ => scopeReach scope)
  | .plane .. => scopeReach scope

/-- Whether two byte runs meet. -/
def overlap (p : PAddr) (n : Nat) (q : PAddr) (m : Nat) : Bool :=
  decide (p.sp = q.sp) && decide (p.a < q.a + m) && decide (q.a < p.a + n)

/-- Atomic accesses that have not updated memory in every lane. -/
def Access.pendingAtomic (a : Access) : Bool :=
  (a.kind == .atom || a.kind == .satadd || a.kind == .satcas || a.kind == .spatadd || a.kind == .spataddF)
    && a.lanes.any (fun l => !l.finished)

/-- Accesses that read and have not returned. -/
def Access.pendingRead (a : Access) : Bool :=
  match a.kind with
  | .st => false
  | .spst => false
  | .pst => false
  | .xlate => false
  | .nothing => false
  | .qget => !a.returned
  | .qtry => !a.returned
  | .qtryp => !a.returned
  | _ => a.lanes.any (fun l => !l.finished)

/-- Accesses that a FENCE with an acquire waits for until they return: loads, atomics, reads of the scratchpad and pops
(R149).  One under exec = 0 counts on every path but GST. -/
def Access.fenceWaits (a : Access) : Bool :=
  match a.kind with
  | .st => false
  | .spst => false
  | .pst => false
  | .xlate => false
  | .nothing => a.path != 1
  | _ => true

/-- What a JOIN holds back (R233): an access of a later epoch waits until the loads and pops of earlier ones have
returned and their stores and atomics are performed at CLUSTER. -/
def State.joinClear (s : State) (gid epoch : Nat) : Bool :=
  s.stores.all (fun x => !(x.gid == gid && decide (x.epoch < epoch) && decide (x.reach.num < x.reachAt 0)))
  && (match s.group? gid with
      | some g => g.acc.all (fun a => !(decide (a.epoch < epoch) && (a.pendingRead || a.pendingAtomic)))
      | none => true)

/-- Bytes at a lane's location that an access reads or updates. -/
def Access.span (a : Access) : Nat := if a.pendingAtomic then 4 else a.width

/-- Whether a group's access issued before identity `upTo` has still to read or update some of n bytes in a lane.  The
accesses to one location keep program order (R227, R228); the tag table is no location. -/
def Group.accessBefore (g : Group) (upTo : Nat) (p : PAddr) (n : Nat) : Bool :=
  g.acc.any fun b => decide (b.id < upTo) && b.kind != .tag && (b.pendingRead || b.pendingAtomic)
    && b.lanes.any fun y => !y.finished && overlap y.loc b.span p n

/-- Stores in the order of a key, kept in order where the keys are equal. -/
def insertStore (key : Store → Nat) (x : Store) : List Store → List Store
  | [] => [x]
  | y :: r => if key x < key y then x :: y :: r else y :: insertStore key x r
def sortStores (key : Store → Nat) (l : List Store) : List Store := l.foldl (fun acc x => insertStore key x acc) []

/-- Stores of x's order beyond co(x), for a group in a cluster of a die (R226), as (store, byte) in order: the die's
outbound list, the cluster's list, and the group's own stores of instructions before identity `upTo`.  A store leaves
both lists only on reaching home (R224); one in both has its place in the cluster's. -/
def State.pendingOrder (s : State) (gid cluster die upTo : Nat) (p : PAddr) : List (Nat × Byte) :=
  let at_ := fun (x : Store) => match x.tgt with
    | .mem loc =>
      if overlap loc x.data.length p 1 then some (x.sid, x.data.getD (p.a - loc.a) 0) else none
    | _ => none
  let outb := sortStores Store.passD
    (s.stores.filter (fun x => x.reach == .die && x.die == die && x.cluster != cluster))
  let clus := sortStores Store.passC
    (s.stores.filter (fun x => (x.reach == .cluster || x.reach == .die) && x.die == die && x.cluster == cluster))
  let own := s.stores.filter (fun x => x.reach == .none && x.gid == gid && decide (x.acc < upTo))
  (outb ++ clus ++ own).filterMap at_

/-- co(x) of a byte, as (store, byte) in order. -/
def State.coAt (s : State) (p : PAddr) : List (Nat × Byte) :=
  (s.co.filter (fun e => decide (e.loc = p))).map (fun e => (e.sid, e.val))

/-- The last store of co(x), with its byte; store 0 is the initial contents. -/
def State.atHome (s : State) (p : PAddr) : Nat × Byte :=
  (match (s.coAt p).getLast? with
   | some e => e.1
   | none => 0, s.byteAt p)

/-- The last store of x's order that a group sees, with its byte. -/
def State.seen (s : State) (gid cluster die upTo : Nat) (p : PAddr) : Nat × Byte :=
  match (s.pendingOrder gid cluster die upTo p).getLast? with
  | some e => e
  | none => s.atHome p

/-- The place of a store in x's order for a group. -/
def State.placeOf (s : State) (g : Group) (p : PAddr) (sid : Nat) : Nat :=
  if sid = 0 then 0
  else ((s.coAt p ++ s.pendingOrder g.gid (g.core / 4) g.die s.nextId p).map Prod.fst).idxOf sid + 1

/-- The store a group last read, or wrote at home, at a location (its read floor). -/
def Group.floor (g : Group) (p : PAddr) : Nat :=
  match g.floors.find? (fun e => decide (e.1 = p)) with
  | some e => e.2
  | none => 0

/-- The floor raised to a store, where that is the later one (R226). -/
def State.raise (s : State) (g : Group) (p : PAddr) (sid : Nat) : Group :=
  if s.placeOf g p (g.floor p) ≤ s.placeOf g p sid then
    { g with floors := (p, sid) :: g.floors.filter (fun e => !decide (e.1 = p)) }
  else g

/-- A group's floors after a read, or a write, of consecutive bytes. -/
def State.raiseAll (s : State) (g : Group) (p : PAddr) : List (Nat × Byte) → Group
  | [] => g
  | e :: r => s.raiseAll (s.raise g p e.1) (p.plus 1) r

/-- The bytes that an access of a group sees past the L1, each with its store (R226). -/
def State.homeBytes (s : State) (g : Group) (upTo : Nat) (p : PAddr) (n : Nat) : List (Nat × Byte) :=
  (List.range n).map fun i => s.seen g.gid (g.core / 4) g.die upTo (p.plus i)

/-- The bytes of a read past the L1; none where a granule read from its home is poisoned (R132). -/
def State.homeRead (s : State) (g : Group) (upTo : Nat) (p : PAddr) (n : Nat) : Option (List (Nat × Byte)) :=
  if (List.range n).any fun i =>
      s.poisonedAt (p.plus i) && (s.pendingOrder g.gid (g.core / 4) g.die upTo (p.plus i)).isEmpty then none
  else some (s.homeBytes g upTo p n)

/-! ### SPOLLNE watches (R142) -/

/-- The watch of an SPOLLNE takes a read: the word, marked by y, and the group's floor at the stores it is of (R226). -/
def State.capture (s : State) (g : Group) (a : Access) (bs : List (Nat × Byte)) : Group :=
  let w := BitVec.ofNat 32 (leNat (bs.map Prod.snd))
  let g : Group := { g with acc := g.acc.map fun b =>
    if b.id = a.id then { b with lanes := b.lanes.map fun l => { l with x := w, y := 1 } } else b }
  match a.lanes with
  | l :: _ => s.raiseAll g l.loc bs
  | [] => g

/-- Whether the READ of a watch may be taken: one that has not returned, by R227, R233 and R313. -/
def State.mayWatch (s : State) (g : Group) (a : Access) (l : LaneReq) : Bool :=
  a.kind == .spollne && !l.finished && decide (l.y = 0) && !l.stale && s.joinClear g.gid a.epoch
    && !g.accessBefore a.id l.loc 4

/-- The word of a watch on a device page as its home controller holds it, each byte with its store.  None while that
would be older than what the group has read or stored itself (R142, R227). -/
def State.watchBytes (s : State) (g : Group) (a : Access) (l : LaneReq) : Option (List (Nat × Byte)) :=
  let fresh := (List.range 4).all fun i =>
    decide (s.placeOf g (l.loc.plus i) (g.floor (l.loc.plus i)) ≤ (s.coAt (l.loc.plus i)).length)
  let own := s.stores.any fun x => x.gid == g.gid && decide (x.acc < a.id) && decide (x.reach.num < 3)
    && (match x.tgt with
        | .mem loc => overlap loc x.data.length l.loc 4
        | .plane _ _ _ _ _ => false)
  if fresh && !own then some ((List.range 4).map fun i => s.atHome (l.loc.plus i)) else none

/-- What a watch on a device page returns now: the word at its home, where it differs from the comparison value, so the
first store performed at DEVICE scope that leaves it different ends the watch (R142). -/
def State.watchHit (s : State) (g : Group) (a : Access) : Option (List (Nat × Byte)) :=
  match a.lanes with
  | l :: _ =>
    if s.mayWatch g a l && decide (l.loc.sp = .dev) && !s.anyPoison l.loc 4 then
      (s.watchBytes g a l).filter fun bs => decide (BitVec.ofNat 32 (leNat (bs.map Prod.snd)) ≠ a.cmp)
    else none
  | [] => none

/-- A watch of a group looks at memory. -/
def State.watchOne (s : State) (g : Group) (a : Access) : Group :=
  match s.watchHit g a with
  | some bs => s.capture g a bs
  | none => g

/-- A group's watches look at memory again. -/
def State.watchGroup (s : State) (g : Group) : Group :=
  (g.acc.filter fun a => a.kind == .spollne).foldl s.watchOne g

/-- Every watch looks at memory again. -/
def State.watchPolls (s : State) : State :=
  if s.groups.any (fun g => g.acc.any (fun a => a.kind == .spollne)) then
    { s with groups := s.groups.map s.watchGroup }
  else s

/-- A store joins the coherence order of its bytes at their home (R224), seen by the write-watch hardware and by
the polls. -/
def State.storeHome (s : State) (p : PAddr) (bytes : List Byte) (sid : Nat) (sys host : Bool) (ctx : Nat) : State :=
  let s := s.writeHome p bytes
  let s := { s with co := s.co ++ coOf p sid sys bytes, opStep := s.opStep + 1 }
  (s.watchClaim p bytes.length host ctx).watchPolls

/-- A store of the device's own units (the Harrow, a port, a job's completion), performed at home with its reach
at once. -/
def State.unitStore (s : State) (p : PAddr) (bytes : List Byte) : State :=
  let (i, s) := s.newId
  s.storeHome p bytes i true false 0

end Sys2Proof.Machine
end

