-- ==== Sys2Proof/Machine/Crypto.lean ====
section
/-!
DEFINITION. The published functions the spec names: AES-GCM with 256-bit keys (R173), SHA-256 (R380) and CRC-32C
(Table C.2).
-/

namespace Sys2Proof.Machine

/-! ### AES-256 -/

/-- Product in GF(2^8) by the AES polynomial. -/
def gf8 (a b : Nat) : Nat :=
  let step := fun (r : Nat × Nat) (i : Nat) =>
    let acc := if b.testBit i then r.1 ^^^ r.2 else r.1
    let d := r.2 * 2
    (acc, if 256 ≤ d then (d ^^^ 0x11B) else d)
  ((List.range 8).foldl step (0, a)).1

/-- The inverse in GF(2^8), as the 254th power; 0 goes to 0. -/
def gf8Inv (a : Nat) : Nat :=
  let a2 := gf8 a a
  let a4 := gf8 a2 a2
  let a8 := gf8 a4 a4
  let a16 := gf8 a8 a8
  let a32 := gf8 a16 a16
  let a64 := gf8 a32 a32
  let a128 := gf8 a64 a64
  gf8 a2 (gf8 a4 (gf8 a8 (gf8 a16 (gf8 a32 (gf8 a64 a128)))))

/-- A byte rotated left. -/
def rotl8 (x n : Nat) : Nat := (x * 2 ^ n % 256) ||| (x / 2 ^ (8 - n))

/-- The AES substitution box. -/
def aesSbox (x : Nat) : Nat :=
  let b := gf8Inv x
  b ^^^ rotl8 b 1 ^^^ rotl8 b 2 ^^^ rotl8 b 3 ^^^ rotl8 b 4 ^^^ 0x63

/-- A word of four bytes, combined byte by byte. -/
def xorBytes : List Nat → List Nat → List Nat
  | a :: r, b :: t => (a ^^^ b) :: xorBytes r t
  | r, _ => r

/-- The round constant of key word i. -/
def aesRcon : Nat → Nat
  | 0 => 1
  | n + 1 => gf8 2 (aesRcon n)

/-- Key words of AES-256, the newest first, from the eight of the key. -/
def aesExpand : Nat → List (List Nat) → List (List Nat)
  | 0, ws => ws
  | n + 1, ws =>
    let i := ws.length
    let prev := ws.getD 0 []
    let back := ws.getD 7 []
    let t :=
      if i % 8 = 0 then
        xorBytes (((prev.drop 1) ++ (prev.take 1)).map aesSbox) [aesRcon (i / 8 - 1), 0, 0, 0]
      else if i % 8 = 4 then prev.map aesSbox
      else prev
    aesExpand n (xorBytes back t :: ws)

/-- The 15 round keys of a 32-byte key, 16 bytes each. -/
def aesKeys (key : List Nat) : List (List Nat) :=
  let ws := (aesExpand 52 ((List.range 8).reverse.map fun i => (key.drop (4 * i)).take 4)).reverse
  (List.range 15).map fun r => ((ws.drop (4 * r)).take 4).flatten

/-- ShiftRows on 16 bytes, column by column. -/
def aesShift (b : List Nat) : List Nat := (List.range 16).map fun i => b.getD ((i + 4 * (i % 4)) % 16) 0

/-- MixColumns on 16 bytes. -/
def aesMix (b : List Nat) : List Nat :=
  (List.range 16).map fun i =>
    let c := fun k => b.getD (i / 4 * 4 + (i + k) % 4) 0
    gf8 2 (c 0) ^^^ gf8 3 (c 1) ^^^ c 2 ^^^ c 3

/-- The rounds of AES after the first key. -/
def aesRounds : List (List Nat) → List Nat → List Nat
  | [], b => b
  | [k], b => xorBytes (aesShift (b.map aesSbox)) k
  | k :: r, b => aesRounds r (xorBytes (aesMix (aesShift (b.map aesSbox))) k)

/-- One block encrypted under round keys. -/
def aesBlock (ks : List (List Nat)) (b : List Nat) : List Nat := aesRounds (ks.drop 1) (xorBytes b (ks.getD 0 []))

/-! ### GCM -/

/-- A number as 4 bytes, high byte first, and 8 bytes. -/
def beBytes (n v : Nat) : List Nat := (List.range n).map fun i => v / 256 ^ (n - 1 - i) % 256

/-- Bytes, high byte first, as a number. -/
def beNat (l : List Nat) : Nat := l.foldl (fun a b => a * 256 + b) 0

/-- Product in GF(2^128) of GCM; bit 127 of the number is the first bit of a block. -/
def ghashMul (x y : Nat) : Nat :=
  let step := fun (r : Nat × Nat) (i : Nat) =>
    let z := if x.testBit (127 - i) then r.1 ^^^ r.2 else r.1
    (z, if r.2 % 2 = 1 then (r.2 / 2 ^^^ (0xE1 * 2 ^ 120)) else r.2 / 2)
  ((List.range 128).foldl step (0, y)).1

/-- The 16-byte pieces of a list, the last filled with zeros; at most n pieces. -/
def blocks16 : Nat → List Nat → List (List Nat)
  | 0, _ => []
  | n + 1, l => if l = [] then [] else ((l ++ List.replicate 16 0).take 16) :: blocks16 n (l.drop 16)

/-- GHASH of a ciphertext without associated data. -/
def ghash (h : Nat) (c : List Nat) : Nat :=
  let y := (blocks16 (c.length + 1) c).foldl (fun y b => ghashMul (y ^^^ beNat b) h) 0
  ghashMul (y ^^^ (8 * c.length)) h

/-- Byte i of the key stream of an IV. -/
def gcmStream (ks : List (List Nat)) (iv : List Nat) (i : Nat) : Nat :=
  (aesBlock ks (iv ++ beBytes 4 ((i / 16 + 2) % 2 ^ 32))).getD (i % 16) 0

/-- n bytes of the key stream from an offset on, a block at a time. -/
def gcmStreamN (ks : List (List Nat)) (iv : List Nat) (o n : Nat) : List Nat :=
  let first := o / 16
  let bs := (List.range ((o + n + 15) / 16 - first)).flatMap fun k =>
    aesBlock ks (iv ++ beBytes 4 ((first + k + 2) % 2 ^ 32))
  (bs.drop (o % 16)).take n

/-- The tag of a ciphertext. -/
def gcmTag (ks : List (List Nat)) (iv c : List Nat) : List Nat :=
  let h := beNat (aesBlock ks (List.replicate 16 0))
  xorBytes (beBytes 16 (ghash h c)) (aesBlock ks (iv ++ [0, 0, 0, 1]))

/-- Bytes as numbers, and back. -/
def bytesNat (l : List Byte) : List Nat := l.map BitVec.toNat
def natBytes (l : List Nat) : List Byte := l.map (BitVec.ofNat 8)

/-! ### SHA-256 -/

/-- The first n bits of the fraction of the k-th root of p, as SHA-256 takes its constants: the largest r with
r^k ≤ p × 2^(n k), from bit b down. -/
def rootBits (k target : Nat) : Nat → Nat → Nat
  | 0, r => r
  | b + 1, r => rootBits k target b (if (r + 2 ^ b) ^ k ≤ target then r + 2 ^ b else r)

/-- The first 64 primes. -/
def primes64 : List Nat :=
  [2, 3, 5, 7, 11, 13, 17, 19, 23, 29, 31, 37, 41, 43, 47, 53, 59, 61, 67, 71, 73, 79, 83, 89, 97, 101, 103, 107, 109,
   113, 127, 131] ++
  [137, 139, 149, 151, 157, 163, 167, 173, 179, 181, 191, 193, 197, 199, 211, 223, 227, 229, 233, 239, 241, 251, 257,
   263, 269, 271, 277, 281, 283, 293, 307, 311]

/-- SHA-256's round constants and initial value. -/
def shaK : List Word := primes64.map fun p => BitVec.ofNat 32 (rootBits 3 (p * 2 ^ 96) 36 0)
def shaInit : List Word := (primes64.take 8).map fun p => BitVec.ofNat 32 (rootBits 2 (p * 2 ^ 64) 37 0)

/-- The message schedule, newest word first. -/
def shaSchedule : Nat → List Word → List Word
  | 0, ws => ws
  | n + 1, ws =>
    let g := fun i => ws.getD (i - 1) 0
    let a := g 15
    let b := g 2
    let s0 := a.rotateRight 7 ^^^ a.rotateRight 18 ^^^ (a >>> 3)
    let s1 := b.rotateRight 17 ^^^ b.rotateRight 19 ^^^ (b >>> 10)
    shaSchedule n ((g 16 + s0 + g 7 + s1) :: ws)

/-- One round on the eight working words. -/
def shaRound (h : List Word) (kw : Word × Word) : List Word :=
  match h with
  | [a, b, c, d, e, f, g, i] =>
    let t1 := i + (e.rotateRight 6 ^^^ e.rotateRight 11 ^^^ e.rotateRight 25) + ((e &&& f) ^^^ (~~~e &&& g)) + kw.1 + kw.2
    let t2 := (a.rotateRight 2 ^^^ a.rotateRight 13 ^^^ a.rotateRight 22) + ((a &&& b) ^^^ (a &&& c) ^^^ (b &&& c))
    [t1 + t2, a, b, c, d + t1, e, f, g]
  | l => l

/-- One 64-byte block hashed in. -/
def shaBlock (h : List Word) (b : List Nat) : List Word :=
  let ws := (List.range 16).map fun i => BitVec.ofNat 32 (beNat ((b.drop (4 * i)).take 4))
  let sched := (shaSchedule 48 ws.reverse).reverse
  let out := (shaK.zip sched).foldl shaRound h
  (h.zip out).map fun p => p.1 + p.2

/-- The 64-byte pieces of a list; at most n. -/
def blocks64 : Nat → List Nat → List (List Nat)
  | 0, _ => []
  | n + 1, l => if l = [] then [] else l.take 64 :: blocks64 n (l.drop 64)

/-- SHA-256. -/
def sha256 (m : List Nat) : List Nat :=
  let pad := m ++ [0x80] ++ List.replicate ((119 - m.length % 64) % 64) 0 ++ beBytes 8 (8 * m.length)
  ((blocks64 (pad.length + 1) pad).foldl shaBlock shaInit).flatMap fun w => beBytes 4 w.toNat

/-! ### CRC-32C -/

/-- One bit of the reflected Castagnoli polynomial. -/
def crcBits : Nat → Nat → Nat
  | 0, c => c
  | n + 1, c => crcBits n (if c % 2 = 1 then c / 2 ^^^ 0x82F63B78 else c / 2)

/-- CRC-32C of bytes. -/
def crc32c (l : List Byte) : Nat := (l.foldl (fun c b => crcBits 8 (c ^^^ b.toNat)) 0xFFFFFFFF) ^^^ 0xFFFFFFFF

end Sys2Proof.Machine
end

