-- ==== Sys2Proof/Machine/Lms.lean ====
section
/-!
DEFINITION. Hash-based signatures with SHA-256 (R378, R379): LM-OTS with 32-byte hashes and 8-bit digits, LMS trees of any
height, and HSS chains of them, to verify firmware and to sign with the identity key.  The spec names the parameter sets
and the standard; the byte layouts are the standard's. (Log entry 134 PRESUMED.)
-/

namespace Sys2Proof.Machine

/-- A number as 4 bytes, high byte first. -/
def u32str (v : Nat) : List Nat := beBytes 4 v

/-- The typecodes of LMOTS_SHA256_N32_W8, and of LMS_SHA256_M32 with trees of height 10 and 20.
(Log entry 134 PRESUMED.) -/
def lmotsType : Nat := 4
/-- (Log entry 134 PRESUMED.) -/
def lmsType (h : Nat) : Nat := h / 5 + 4

/-! ### One-time signatures -/

/-- n steps of a hash chain from step `a`, of chain `i` of the one-time key at leaf `q` of the tree `id`. -/
def otsChain (id : List Nat) (q i : Nat) : Nat → Nat → List Nat → List Nat
  | 0, _, x => x
  | n + 1, a, x => otsChain id q i n (a + 1) (sha256 (id ++ u32str q ++ beBytes 2 i ++ [a] ++ x))

/-- The 34 digits that a message signs: its hash and the hash's checksum. (Log entry 134 PRESUMED.) -/
def otsDigits (id : List Nat) (q : Nat) (c msg : List Nat) : List Nat :=
  let h := sha256 (id ++ u32str q ++ [0x81, 0x81] ++ c ++ msg)
  h ++ beBytes 2 ((h.map fun d => 255 - d).sum)

/-- The public value of a one-time key from the ends of its 34 chains. -/
def otsPublic (id : List Nat) (q : Nat) (ends : List (List Nat)) : List Nat :=
  sha256 (id ++ u32str q ++ [0x80, 0x80] ++ ends.flatten)

/-- The public value that a one-time signature `c`, `ys` of a message leads to. -/
def otsCandidate (id : List Nat) (q : Nat) (c msg : List Nat) (ys : List (List Nat)) : List Nat :=
  otsPublic id q (((otsDigits id q c msg).zip ys).mapIdx fun i p => otsChain id q i (255 - p.1) p.1 p.2)

/-! ### Trees -/

/-- The values of a leaf and of an inner node of a tree. -/
def leafHash (id : List Nat) (node : Nat) (k : List Nat) : List Nat := sha256 (id ++ u32str node ++ [0x82, 0x82] ++ k)
def nodeHash (id : List Nat) (node : Nat) (l r : List Nat) : List Nat :=
  sha256 (id ++ u32str node ++ [0x83, 0x83] ++ l ++ r)

/-- The root that a node's value leads to along its path of siblings. -/
def lmsRoot (id : List Nat) (node : Nat) (x : List Nat) (path : List (List Nat)) : List Nat :=
  (path.foldl (fun (n, y) p => (n / 2, if n % 2 = 1 then nodeHash id (n / 2) p y else nodeHash id (n / 2) y p)) (node, x)).2

/-- Pieces of n bytes. -/
def pieces (n count : Nat) (l : List Nat) : List (List Nat) := (List.range count).map fun i => (l.drop (n * i)).take n

/-- Bytes of a one-time signature, of an LMS signature in a tree of height h, and of an LMS public key. -/
def otsBytes : Nat := 4 + 32 + 34 * 32
def lmsBytes (h : Nat) : Nat := 4 + otsBytes + 4 + 32 * h
def lmsKeyBytes : Nat := 56

/-- Whether an LMS signature of a message holds under a public key of a tree of height h. (Log entry 134 PRESUMED.) -/
def lmsVerify (h : Nat) (key msg sig : List Nat) : Bool :=
  let id := (key.drop 8).take 16
  let q := beNat (sig.take 4)
  let c := (sig.drop 8).take 32
  let k := otsCandidate id q c msg (pieces 32 34 (sig.drop 40))
  let node := 2 ^ h + q
  decide (key.length = lmsKeyBytes) && decide (sig.length = lmsBytes h) && decide (q < 2 ^ h)
    && beNat (key.take 4) == lmsType h && beNat ((key.drop 4).take 4) == lmotsType
    && beNat ((sig.drop 4).take 4) == lmotsType && beNat ((sig.drop (4 + otsBytes)).take 4) == lmsType h
    && lmsRoot id node (leafHash id node k) (pieces 32 h (sig.drop (8 + otsBytes))) == key.drop 24

/-- Whether the levels below a key hold, down to the message: each signed key and then the last signature. -/
def hssLevels (h : Nat) : Nat → List Nat → List Nat → List Nat → Bool
  | 0, key, msg, sig => lmsVerify h key msg sig
  | n + 1, key, msg, sig =>
    let next := (sig.drop (lmsBytes h)).take lmsKeyBytes
    lmsVerify h key next (sig.take (lmsBytes h)) && hssLevels h n next msg (sig.drop (lmsBytes h + lmsKeyBytes))

/-- Whether an HSS signature of `levels` trees of height h holds under an HSS public key. (Log entry 134 PRESUMED.) -/
def hssVerify (h levels : Nat) (key msg sig : List Nat) : Bool :=
  beNat (key.take 4) == levels && beNat (sig.take 4) + 1 == levels
    && hssLevels h (levels - 1) (key.drop 4) msg (sig.drop 4)

/-! ### Firmware -/

/-- The check of a firmware image by the boot ROM (R378): the root key it carries has the fused hash, and its HSS signature
of two levels of height 20 holds. (Log entry 17 DESIGN CHOICE.) -/
def firmwareVerify (image : List Byte) : Bool :=
  let key := bytesNat (Config.firmwareKey image)
  sha256 key == bytesNat Config.rootKeyHash
    && hssVerify 20 2 key (bytesNat (Config.firmwareSigned image)) (bytesNat (Config.firmwareSignature image))

/-! ### The identity key -/

/-- Height of the identity key's trees (R379). -/
def idHeight : Nat := 10

/-- The identifier of tree `t` of a level of the identity key, the secret of one chain, and the salt of a signature. -/
def idTree (lvl t : Nat) : List Nat := beBytes 16 (Config.identityTree lvl t)
def idSecret (lvl t q i : Nat) : List Nat := beBytes 32 (Config.identitySecret lvl t q i)
def idSalt (lvl t q : Nat) : List Nat := beBytes 32 (Config.identitySalt lvl t q)

/-- The value of a node of a tree of the identity key, at a height above the leaves. -/
def idNode (lvl t : Nat) : Nat → Nat → List Nat
  | 0, r =>
    let id := idTree lvl t
    let q := r - 2 ^ idHeight
    leafHash id r (otsPublic id q ((List.range 34).map fun i => otsChain id q i 255 0 (idSecret lvl t q i)))
  | n + 1, r => nodeHash (idTree lvl t) r (idNode lvl t n (2 * r)) (idNode lvl t n (2 * r + 1))

/-- The LMS public key of a tree of the identity key. -/
def idPublic (lvl t : Nat) : List Nat := u32str (lmsType idHeight) ++ u32str lmotsType ++ idTree lvl t ++ idNode lvl t idHeight 1

/-- The LMS signature of a message by leaf `q` of a tree of the identity key. (Log entry 134 PRESUMED.) -/
def idLmsSign (lvl t q : Nat) (msg : List Nat) : List Nat :=
  let id := idTree lvl t
  let c := idSalt lvl t q
  let ys := (otsDigits id q c msg).mapIdx fun i d => otsChain id q i d 0 (idSecret lvl t q i)
  let path := (List.range idHeight).map fun i => idNode lvl t i ((2 ^ idHeight + q) / 2 ^ i ^^^ 1)
  u32str q ++ u32str lmotsType ++ c ++ ys.flatten ++ u32str (lmsType idHeight) ++ path.flatten

/-- The HSS signature of a message by the one-time key at a leaf position of the three levels (R379).
(Log entries 17 DESIGN CHOICE, 134 PRESUMED.) -/
def identitySign (k : Nat) (msg : List Byte) : List Byte :=
  let mid := k / 2 ^ idHeight
  let top := mid / 2 ^ idHeight
  natBytes (u32str 2
    ++ idLmsSign 0 0 top (idPublic 1 top) ++ idPublic 1 top
    ++ idLmsSign 1 top (mid % 2 ^ idHeight) (idPublic 2 mid) ++ idPublic 2 mid
    ++ idLmsSign 2 mid (k % 2 ^ idHeight) (bytesNat msg))

end Sys2Proof.Machine
end

