-- ==== Sys2Proof/Machine/Flags.lean ====
section
/-!
DEFINITION. The masks and results that instructions form in place of flags: comparisons, the lane mask a VCMP
writes, and the fmt word (Table A.2) with its checks (R23, R24).
-/

namespace Sys2Proof.Machine

/-- fmt fields (Table A.2). -/
def fmtAF (w : Word) : Nat := w.toNat % 16
def fmtBF (w : Word) : Nat := w.toNat / 2 ^ 4 % 16
def fmtCF (w : Word) : Nat := w.toNat / 2 ^ 8 % 16
def fmtRM (w : Word) : Nat := w.toNat / 2 ^ 12 % 4
def fmtSR (w : Word) : Bool := w.getLsbD 14
def fmtSAT (w : Word) : Bool := w.getLsbD 15
/-- BX exponent gap: 0 selects 3. -/
def fmtGAP (w : Word) : Nat := if w.toNat / 2 ^ 16 % 8 = 0 then 3 else w.toNat / 2 ^ 16 % 8
def fmtFTZ (w : Word) : Bool := w.getLsbD 19

/-- Whether FMTSET accepts a word: bits [31:20] are 0 (R23) and no format code is reserved (R24). -/
def fmtOk (w : Word) : Bool :=
  decide (w.toNat < 2 ^ 20) && decide (fmtAF w ≤ 8) && decide (fmtBF w ≤ 8) && decide (fmtCF w ≤ 8)

/-- A lane mask from a predicate, in the lanes of exec; the other lanes' bits are 0. -/
def maskOf (exec : Word) (f : Nat → Bool) : Word :=
  lanes32.foldl (fun m l => if exec.getLsbD l && f l then m ||| BitVec.ofNat 32 (2 ^ l) else m) 0

/-- Number of lanes in a mask. -/
def popcount (m : Word) : Nat := (lanes32.filter (fun l => m.getLsbD l)).length

/-- The lanes of a mask, in ascending order. -/
def lanesOf (m : Word) : List Nat := lanes32.filter (fun l => m.getLsbD l)

end Sys2Proof.Machine
end

