-- ==== Sys2Proof/Machine/Float.lean ====
section
/-!
DEFINITION. Number formats and arithmetic (R62 to R78): exact values, rounding once to a destination, NaNs, overflow
and saturation, the BX blocks, stochastic rounding, and the matrix engine's accumulation.
-/

namespace Sys2Proof.Machine

/-- An exact value: a NaN, an infinity, or (−1)^neg × m × 2^e.  Zero keeps its sign. -/
inductive FVal where
  | nan
  | inf (neg : Bool)
  | fin (neg : Bool) (m : Nat) (e : Int)
  deriving DecidableEq, Repr

/-- A floating-point format's figures (Table A.26): fraction width, bias, width, largest finite magnitude as bits,
canonical NaN, infinity as bits where it has one, and whether FTZ concerns it (R67). -/
structure FFmt where
  f : Nat
  bias : Int
  width : Nat
  maxBits : Nat
  nanBits : Nat
  infBits : Option Nat
  ftz : Bool
  deriving DecidableEq, Repr

def fmtFP32 : FFmt := ⟨23, 127, 32, 0x7F7FFFFF, 0x7FC00000, some 0x7F800000, true⟩
def fmtBF16 : FFmt := ⟨7, 127, 16, 0x7F7F, 0x7FC0, some 0x7F80, true⟩
def fmtFP16 : FFmt := ⟨10, 15, 16, 0x7BFF, 0x7E00, some 0x7C00, true⟩
def fmtE4M3 : FFmt := ⟨3, 7, 8, 0x7E, 0x7F, none, false⟩
def fmtE5M2 : FFmt := ⟨2, 15, 8, 0x7B, 0x7F, some 0x7C, false⟩

/-- The format of a code 0 to 4 (Table A.3). -/
def ffmtOf (code : Nat) : FFmt :=
  match code with
  | 0 => fmtFP32
  | 1 => fmtBF16
  | 2 => fmtFP16
  | 3 => fmtE4M3
  | _ => fmtE5M2

/-- The exact value of a bit pattern (R62); under FTZ a subnormal is a zero of its sign (R67). -/
def FFmt.decode (t : FFmt) (ftz : Bool) (x : Nat) : FVal :=
  let neg := x.testBit (t.width - 1)
  let mag := x % 2 ^ (t.width - 1)
  let ex := mag / 2 ^ t.f
  let fr := mag % 2 ^ t.f
  if t.maxBits < mag then (if t.infBits = some mag then .inf neg else .nan)
  else if ex = 0 then (if ftz && t.ftz then .fin neg 0 0 else .fin neg fr (1 - t.bias - t.f))
  else .fin neg (2 ^ t.f + fr) (ex - t.bias - t.f)

/-- Rounding modes: fmt.RM, or a stochastic draw of 16 bits (R68, R75). -/
inductive RMode where
  | rne | rtz | rup | rdn
  | sr (draw : Nat)
  deriving DecidableEq, Repr

/-- fmt.RM as a mode. -/
def rmOf (code : Nat) : RMode :=
  match code with
  | 0 => .rne
  | 1 => .rtz
  | 2 => .rup
  | _ => .rdn

/-- A magnitude m × 2^e rounded to a whole number of quanta 2^q, and whether it was rounded away from zero; a value
on the grid needs no rounding and counts as away under SR (R69). -/
def roundQ (mode : RMode) (neg : Bool) (m : Nat) (e q : Int) : Nat × Bool :=
  if q ≤ e then
    (m * 2 ^ (e - q).toNat, match mode with
      | .rne => true
      | .rtz => false
      | .rup => !neg
      | .rdn => neg
      | .sr _ => true)
  else
    let k := (q - e).toNat
    let n := m / 2 ^ k
    let r := m % 2 ^ k
    let up := match mode with
      | .rne => decide (2 ^ k < 2 * r) || (decide (2 * r = 2 ^ k) && decide (n % 2 = 1))
      | .rtz => false
      | .rup => !neg && decide (r ≠ 0)
      | .rdn => neg && decide (r ≠ 0)
      | .sr d => decide (d < 2 ^ 16 * r / 2 ^ k) && decide (r ≠ 0)
    let away := match mode with
      | .rne => true
      | .rtz => false
      | .rup => !neg
      | .rdn => neg
      | .sr _ => up || decide (r = 0)
    (if up then n + 1 else n, away)

/-- A sign bit put on a magnitude. -/
def FFmt.withSign (t : FFmt) (neg : Bool) (mag : Nat) : Nat := if neg then mag + 2 ^ (t.width - 1) else mag

/-- A value rounded once to a format (R68), with overflow by Table A.29, the canonical NaN (R66), and FTZ on the
result (R67). -/
def FFmt.encode (t : FFmt) (mode : RMode) (sat ftz : Bool) (v : FVal) : Nat :=
  match v with
  | .nan => t.nanBits
  | .inf neg =>
    match t.infBits with
    | some b => t.withSign neg b
    | none => if sat then t.withSign neg t.maxBits else t.nanBits
  | .fin neg m e =>
    if m = 0 then t.withSign neg 0
    else
      let qmin : Int := 1 - t.bias - t.f
      let q := max (e + Nat.log2 m - t.f) qmin
      let r := roundQ mode neg m e q
      let mag := r.1 + (q - qmin).toNat * 2 ^ t.f
      if t.maxBits < mag then
        (if sat then t.withSign neg t.maxBits
         else if r.2 then (match t.infBits with
           | some b => t.withSign neg b
           | none => t.nanBits)
         else t.withSign neg t.maxBits)
      else if ftz && t.ftz && decide (mag < 2 ^ t.f) then t.withSign neg 0
      else t.withSign neg mag

/-- A value rounded to a signed integer of a width (Table A.29): extremes under SAT, else the indefinite value. -/
def encodeInt (width : Nat) (signed : Bool) (mode : RMode) (sat : Bool) (v : FVal) : Nat :=
  let hi : Int := if signed then (2 : Int) ^ (width - 1) - 1 else 2 ^ width - 1
  let lo : Int := if signed then -((2 : Int) ^ (width - 1)) else 0
  let indef : Nat := if signed then 2 ^ (width - 1) else 2 ^ width - 1
  let put := fun (x : Int) => (x % (2 : Int) ^ width).toNat
  match v with
  | .nan => if sat then 0 else indef
  | .inf neg => if sat then put (if neg then lo else hi) else indef
  | .fin neg m e =>
    let n : Int := (roundQ mode neg m e 0).1
    let x := if neg then -n else n
    if x < lo ∨ hi < x then (if sat then put (if neg then lo else hi) else indef) else put x

/-! ### Exact arithmetic -/

def FVal.neg : FVal → FVal
  | .nan => .nan
  | .inf s => .inf (!s)
  | .fin s m e => .fin (!s) m e

/-- A finite value as a whole number of 2^e. -/
def FVal.scaled (s : Bool) (m : Nat) (e low : Int) : Int :=
  let n : Int := m * 2 ^ (e - low).toNat
  if s then -n else n

/-- The exact sum; an exact zero of two terms of unlike signs is −0 only under RDN. -/
def FVal.add (rdn : Bool) : FVal → FVal → FVal
  | .nan, _ => .nan
  | _, .nan => .nan
  | .inf a, .inf b => if a = b then .inf a else .nan
  | .inf a, _ => .inf a
  | _, .inf b => .inf b
  | .fin sa ma ea, .fin sb mb eb =>
    let e := min ea eb
    let n := FVal.scaled sa ma ea e + FVal.scaled sb mb eb e
    if n = 0 then .fin (if ma = 0 ∧ mb = 0 ∧ sa = sb then sa else rdn) 0 0
    else .fin (decide (n < 0)) n.natAbs e

/-- The exact product; ∞ × 0 is NaN. -/
def FVal.mul : FVal → FVal → FVal
  | .nan, _ => .nan
  | _, .nan => .nan
  | .inf a, .inf b => .inf (a != b)
  | .inf a, .fin b m _ => if m = 0 then .nan else .inf (a != b)
  | .fin a m _, .inf b => if m = 0 then .nan else .inf (a != b)
  | .fin a m e, .fin b n f => .fin (a != b) (m * n) (e + f)

/-- Whether a number is less than another; −0 and +0 are equal. -/
def FVal.lt : FVal → FVal → Bool
  | .nan, _ => false
  | _, .nan => false
  | .inf a, .inf b => a && !b
  | .inf a, _ => a
  | _, .inf b => !b
  | .fin sa ma ea, .fin sb mb eb =>
    let e := min ea eb
    decide (FVal.scaled sa ma ea e < FVal.scaled sb mb eb e)

/-- Whether two numbers are equal. -/
def FVal.eq : FVal → FVal → Bool
  | .nan, _ => false
  | _, .nan => false
  | .inf a, .inf b => a == b
  | .inf _, _ => false
  | _, .inf _ => false
  | .fin sa ma ea, .fin sb mb eb =>
    let e := min ea eb
    decide (FVal.scaled sa ma ea e = FVal.scaled sb mb eb e)

def FVal.isNan : FVal → Bool
  | .nan => true
  | _ => false

def FVal.isNeg : FVal → Bool
  | .nan => false
  | .inf s => s
  | .fin s _ _ => s

/-! ### FP32 operations -/

/-- An FP32 operand. -/
def f32 (ftz : Bool) (x : Word) : FVal := fmtFP32.decode ftz x.toNat

/-- An FP32 result by fmt: RM, SAT and FTZ. -/
def f32Result (fmt : Word) (v : FVal) : Word :=
  BitVec.ofNat 32 (fmtFP32.encode (rmOf (fmtRM fmt)) (fmtSAT fmt) (fmtFTZ fmt) v)

/-- round_rne of an FP32 sum, with subnormals kept, overflow to ±∞ and canonical NaNs (R138, R184). -/
def f32AddRne (x y : Word) : Word :=
  BitVec.ofNat 32 (fmtFP32.encode .rne false false ((f32 false x).add false (f32 false y)))

/-- minimumNumber and maximumNumber (R66): a NaN loses to a number, two NaNs give the canonical NaN, and −0 orders
below +0. -/
def minNum (a b : FVal) (x y : Word) : Word :=
  if a.isNan then (if b.isNan then 0x7FC00000 else y)
  else if b.isNan then x
  else if a.lt b || (a.eq b && a.isNeg) then x else y
def maxNum (a b : FVal) (x y : Word) : Word :=
  if a.isNan then (if b.isNan then 0x7FC00000 else y)
  else if b.isNan then x
  else if b.lt a || (a.eq b && !a.isNeg) then x else y
def f32Min (x y : Word) : Word := minNum (f32 false x) (f32 false y) x y
def f32Max (x y : Word) : Word := maxNum (f32 false x) (f32 false y) x y

/-! ### Stochastic rounding (R75) -/

/-- The xorshift step of a SEED. -/
def advanceSeed (s : Word) : Word :=
  let s := s ^^^ (s <<< 13)
  let s := s ^^^ (s >>> 17)
  s ^^^ (s <<< 5)

/-- The draw of slot j of lane l from the advanced state. -/
def seedDraw (s : Word) (l j : Nat) : Nat := (s.rotateLeft ((l + 7 * j) % 32)).toNat % 2 ^ 16

/-- The rounding of a converting instruction's element (Table A.28). -/
def convMode (fmt seed : Word) (l j : Nat) : RMode :=
  if fmtSR fmt then .sr (seedDraw seed l j) else rmOf (fmtRM fmt)

/-! ### Conversions between element formats (R117's cvt; R173) -/

/-- The exact value of an element of a format code 0 to 4, 7 (INT8) or 8 (INT32). -/
def elemValue (ftz : Bool) (code x : Nat) : FVal :=
  if code = 7 then (if x.testBit 7 then .fin true (2 ^ 8 - x % 2 ^ 8) 0 else .fin false (x % 2 ^ 8) 0)
  else if code = 8 then (if x.testBit 31 then .fin true (2 ^ 32 - x % 2 ^ 32) 0 else .fin false (x % 2 ^ 32) 0)
  else (ffmtOf code).decode ftz x

/-- Bits of an element of a format. -/
def elemBits (code : Nat) : Nat := if code = 7 then 8 else if code = 8 then 32 else (ffmtOf code).width

/-- One element converted, rounded once.  INT8 from INT32 without SAT takes the low 8 bits (Table A.29), and an
element to its own format by value. -/
def convert (mode : RMode) (sat ftz : Bool) (src dst x : Nat) : Nat :=
  if dst = 7 then
    (if src = 8 ∧ sat = false then x % 2 ^ 8 else encodeInt 8 true mode sat (elemValue ftz src x))
  else if dst = 8 then encodeInt 32 true mode sat (elemValue ftz src x)
  else (ffmtOf dst).encode mode sat ftz (elemValue ftz src x)

/-! ### BX blocks (R70 to R74) -/

/-- The kinds of BX block: BX8 has a 4-bit fraction and a 2-bit exponent, BX4 one bit of each. -/
def bxMaxM (bx8 : Bool) : Nat := if bx8 then 31 else 3     -- m_max = 7.75 = 31/4, 1.5 = 3/2
def bxMaxE (bx8 : Bool) : Int := if bx8 then -2 else -1

/-- The value of an element under a header (R71). -/
def bxValue (bx8 : Bool) (elem header : Nat) : FVal :=
  let sel := if bx8 then elem.testBit 7 else elem.testBit 3
  let neg := if bx8 then elem.testBit 6 else elem.testBit 2
  let ex : Nat := if sel then header / 2 ^ 8 % 2 ^ 8 else header % 2 ^ 8
  if ex = 0xFF then .nan
  else if bx8 then
    let e := elem / 16 % 4
    let f := elem % 16
    if e = 0 then .fin neg f ((ex : Int) - 127 - 4) else .fin neg (16 + f) ((ex : Int) - 127 - 4 + (e - 1 : Nat))
  else
    let e := elem / 2 % 2
    let f := elem % 2
    if e = 0 then .fin neg f ((ex : Int) - 127 - 1) else .fin neg (2 + f) ((ex : Int) - 127 - 1)

/-- Whether a finite magnitude is at most k × 2^q. -/
def magLe (m : Nat) (e : Int) (k : Nat) (q : Int) : Bool :=
  let b := min e q
  decide (m * 2 ^ (e - b).toNat ≤ k * 2 ^ (q - b).toNat)

/-- The largest magnitude that E = 254 holds, as m × 2^e (R73's top). -/
def bxTop (bx8 : Bool) : Nat × Int := if bx8 then (2 ^ 24 - 1, 104) else (3, 126)

/-- The replacement step of R73: infinities and magnitudes above top. -/
def bxClamp (bx8 sat : Bool) : FVal → FVal
  | .nan => .nan
  | .inf s => if sat then .fin s (bxTop bx8).1 (bxTop bx8).2 else .nan
  | .fin s m e =>
    if magLe m e (bxTop bx8).1 (bxTop bx8).2 then .fin s m e
    else if sat then .fin s (bxTop bx8).1 (bxTop bx8).2 else .nan

/-- The smallest exponent E from `from_` on, among n candidates, whose bound m_max × 2^(E − 127) is at least a
magnitude. -/
def bxExp (bx8 : Bool) (m : Nat) (e : Int) (from_ : Nat) : Nat → Nat
  | 0 => from_
  | n + 1 =>
    if magLe m e (bxMaxM bx8) (bxMaxE bx8 + (from_ : Int) - 127) then from_ else bxExp bx8 m e (from_ + 1) n

/-- The larger of two finite magnitudes; NaNs do not count. -/
def bigger (b : Nat × Int) : FVal → Nat × Int
  | .fin _ m e => if magLe m e b.1 b.2 then b else (m, e)
  | _ => b

/-- The code of a magnitude rounded onto the element grid with selected exponent E (Table A.31). -/
def bxCode (bx8 : Bool) (mode : RMode) (neg : Bool) (m : Nat) (e : Int) (ex : Nat) : Nat :=
  if m = 0 then 0
  else
    let e' := e - ((ex : Int) - 127)
    if bx8 then
      let l : Int := e' + Nat.log2 m
      let q := max (min (l - 4) (-2)) (-4)
      let n := (roundQ mode neg m e' q).1
      n + (q + 4).toNat * 16
    else
      (roundQ mode neg m e' (-1)).1

/-- The encoder of R73: 32 values to 32 elements and a header; `mode j` is element j's rounding.
(Log entry 11 DEDUCED.) -/
def bxEncode (bx8 sat : Bool) (gap : Nat) (mode : Nat → RMode) (xs : List FVal) : List Nat × Nat :=
  let xs := xs.map (bxClamp bx8 sat)
  let big := xs.foldl bigger (0, 0)
  let ea := if big.1 = 0 then 0 else bxExp bx8 big.1 big.2 0 255
  let eb := if xs.any FVal.isNan then 0xFF else ea - gap
  let elem := fun (j : Nat) (v : FVal) =>
    match v with
    | .fin s m e =>
      let sel := decide (eb ≠ 0xFF) && magLe m e (bxMaxM bx8) (bxMaxE bx8 + (eb : Int) - 127)
      let c := bxCode bx8 (mode j) s m e (if sel then eb else ea)
      if bx8 then c + (if s then 64 else 0) + (if sel then 128 else 0)
      else c + (if s then 4 else 0) + (if sel then 8 else 0)
    | _ => if bx8 then 128 else 8
  (xs.mapIdx elem, eb * 256 + ea)

/-! ### Matrix arithmetic (R77, R78) -/

/-- acc_round (R78) under a rounding mode: an FP32 accumulator plus the products of one K-block, summed exactly and
rounded once; R114's dot products take fmt.RM in place of RNE. -/
def accRoundBy (mode : RMode) (ftz : Bool) (c : Word) (products : List FVal) : Word :=
  let cv := f32 ftz c
  let all := cv :: products
  if all.any FVal.isNan then 0x7FC00000
  else
    let pos := all.any fun v => v == .inf false
    let neg := all.any fun v => v == .inf true
    if pos && neg then 0x7FC00000
    else if pos then 0x7F800000
    else if neg then 0xFF800000
    else
      let sum : FVal := all.foldl (fun (acc v : FVal) => acc.add false v) (FVal.fin true 0 0)
      let v := match sum with
        | FVal.fin s 0 e => FVal.fin (s && all.all FVal.isNeg) 0 e
        | v => v
      BitVec.ofNat 32 (fmtFP32.encode mode false ftz v)

/-- acc_round of the matrix engine: RNE always (Table A.28). -/
def accRound (ftz : Bool) (c : Word) (products : List FVal) : Word := accRoundBy .rne ftz c products

end Sys2Proof.Machine
end

