-- ==== Sys2Proof/Machine/Table.lean ====
section
/-!
DEFINITION. The standing table (R285), the notification ring and its coalescer (R293, R294), MSI-X messages, and
the event log (R376).
-/

namespace Sys2Proof.Machine

/-- PHASE codes (Table C.7). -/
def Phase.code : Phase → Nat
  | .empty => 0
  | .pending => 1
  | .blocked => 2
  | .applying => 3
  | .converged => 4
  | .conflict => 5
  | .failed => 6

/-- MARK of a record: (VERSION << 8) | status (R285). -/
def Rec.mark (r : Rec) : Nat :=
  r.version % 2 ^ 56 * 256 + (if r.paused then 32 else 0) + (if r.deleted then 16 else 0) + r.phase.code

/-- Bytes n to n + 3 of a body as a number, and 8 bytes. -/
def w32 (l : List Byte) (n : Nat) : Nat := leNat ((l.drop n).take 4)
def w64 (l : List Byte) (n : Nat) : Nat := leNat ((l.drop n).take 8)
def w16 (l : List Byte) (n : Nat) : Nat := leNat ((l.drop n).take 2)

/-- Bits lo to lo + n − 1 of a number. -/
def bits (v lo n : Nat) : Nat := v / 2 ^ lo % 2 ^ n

/-- Bytes of a MAPPING record's page size (Table C.13). -/
def pageBytes (code : Nat) : Nat := if code = 0 then 0x10000 else if code = 1 then 0x200000 else 0x40000000

/-- Pages of a context's first-touch pool that hold no frame of a page, lowest first, and how many. -/
def State.poolPages (s : State) (c : Ctx) : List Nat :=
  ((List.range c.pool).map fun k => c.poolBase + 0x10000 * k).filter fun a =>
    !s.pages.any fun p => p.ctx == c.ctx && p.sp == .dev && p.frame == a && p.kind == .mapping
def State.poolFree (s : State) (c : Ctx) : Nat :=
  c.pool - (s.pages.filter fun p => p.ctx == c.ctx && p.sp == .dev && p.kind == .mapping
    && decide (c.poolBase ≤ p.frame) && decide (p.frame < c.poolBase + 0x10000 * c.pool)).length

/-- Tokens of an EXPERT queue: on chip, and spilled behind them (R334). -/
def Queue.tokens (q : Queue) : Nat := q.entries.length + q.spilled.length

/-- Head age of an EXPERT queue in clk: the time since its oldest token's push was released into it (R332). -/
def State.headAge (s : State) (q : Queue) : Nat :=
  match q.entries with
  | e :: _ => s.clk - e.at_
  | [] => 0

/-- Clk of one unit of T, 0.25 µs at 940 MHz (R332). -/
def ageUnit : Nat := 235

/-- The head age of an EXPERT queue counts in its record's largest, in units of 0.25 µs (R330). -/
def State.sawAge (s : State) (q : Queue) : State :=
  let r := s.record q.slot
  s.putRecord { r with maxAge := max r.maxAge (s.headAge q / ageUnit) }

/-- The ACTUAL area of a standing entry (R296, R300, R330, R350); a CONTEXT record shows the context that it has made.
(Log entry 109 DEDUCED.) -/
def State.actual (s : State) (r : Rec) : List Byte :=
  if r.kind = 1 then
    match (s.ctx? r.ctx).filter fun c => c.slot == r.slot with
    | some c =>
      leBytes 8 (Config.pageRoot c.ctx) ++ leBytes 4 (s.poolFree c)
        ++ leBytes 4 (s.teams.filter (fun t => t.ctx == c.ctx && t.state == .saved)).length
        ++ leBytes 8 c.endCode ++ leBytes 8 c.endPc
    | none => []
  else if r.kind = 2 then
    let ps := s.pages.filter (fun p => p.kind == .mapping && p.slot == r.slot)
    leBytes 4 r.made ++ leBytes 4 (if bits (w32 r.body 0x0C) 10 2 = 1 then ps.length else 0) ++ leBytes 4 r.moves
      ++ leBytes 4 (s.holds.filter (fun h => !h.remote && ps.any (fun p => p.ctx == h.ctx && p.va == h.va))).length
  else match s.queue? r.slot with
    | none => []
    | some q =>
      match q.kind with
      | .expert =>
        leBytes 4 q.entries.length ++ leBytes 4 q.spilled.length ++ leBytes 8 r.firings
          ++ leBytes 4 (max r.maxAge (s.headAge q / ageUnit))
      | .stream =>
        leBytes 8 q.frames ++ leBytes 8 q.partials ++ leBytes 8 q.late ++ leBytes 8 q.droppedEntries
      | _ => []

/-- A byte list cut or filled with zeros to n bytes. -/
def padTo (n : Nat) (l : List Byte) : List Byte := (l ++ List.replicate n 0).take n

/-- Writing a record's standing entry: every other field first, then the mark with a release at SYSTEM scope
(R285). -/
def State.writeStanding (s : State) (slot : Nat) : State :=
  let r := s.record slot
  let e := harrowBase + 0x400000 + 0x100 * slot
  let rest := leBytes 4 r.cursor ++ leBytes 2 r.fault ++ leBytes 2 0 ++ leBytes 4 r.writer
    ++ leBytes 4 r.handle.toNat ++ leBytes 8 r.refused ++ leBytes 8 r.dropped ++ leBytes 8 r.conflicts
    ++ leBytes 8 0 ++ padTo 192 (s.actual r)
  let s : State := { s with recs := s.recs.map fun x => if x.slot = slot then { x with shown := s.actual r } else x }
  let s := s.unitStore ⟨.dev, e + 0x10⟩ rest
  let s := s.unitStore ⟨.dev, e⟩ (leBytes 8 r.version)
  s.unitStore ⟨.dev, e + 8⟩ (leBytes 8 r.mark)

/-- A record replaced and its standing entry written. -/
def State.setRecord (s : State) (r : Rec) : State := (s.putRecord r).writeStanding r.slot

/-- The ACTUAL areas of live records kept current (R285): a standing entry whose counts have changed is rewritten.
(Log entries 4 DESIGN CHOICE, 109 DEDUCED.) -/
def State.refreshActual (s : State) : State :=
  s.each (s.recs.filter fun r => r.live && decide (s.actual r ≠ r.shown)) fun s r => s.writeStanding r.slot

/-- An MSI-X message on the host link, held while its vector is masked (R294). The device has 64 vectors (R340): an
index above 63 names none, and nothing is sent. (Log entry 116 DEDUCED.) -/
def State.msix (s : State) (v : Nat) : State :=
  if 64 ≤ v then s
  else if s.masked.contains v then
    (if s.heldMsix.contains v then s else { s with heldMsix := s.heldMsix ++ [v] })
  else s.emit (.msix v)

/-- The coalescer (R294): NCOUNT pending entries, or one pending for NHOLD µs, give one message that covers every
pending entry. While its vector is masked the message is held, and the entries stay pending until it is issued. One µs
is 940 clk. -/
def State.coalesce (s : State) : State :=
  if s.pendingNotes ≠ [] ∧ (s.ncount ≤ s.pendingNotes.length ∨
      s.pendingNotes.any (fun t => decide (t + 940 * s.nhold ≤ s.clk))) then
    if 64 ≤ s.nvector then s
    else if s.masked.contains s.nvector then { s with noteHeld := some s.nvector }.msix s.nvector
    else { s with pendingNotes := [], noteHeld := none }.msix s.nvector
  else s

/-- The 64 bytes of a notification entry (Table C.10). -/
def Note.bytes (n : Note) : List Byte :=
  leBytes 2 n.kind ++ leBytes 2 n.fault ++ leBytes 4 n.slot ++ leBytes 4 n.id ++ leBytes 4 n.writer
    ++ leBytes 8 n.mark ++ leBytes 8 n.base ++ leBytes 4 n.lastWriter ++ leBytes 4 n.cursor ++ leBytes 8 n.seq
    ++ List.replicate 16 0

/-- One entry written to the ring, and PROD advanced (R293): entry n, whose number is that of its event, lies at place n
modulo 31,744, whatever PROD's 32 bits hold. -/
def State.writeNote (s : State) (n : Note) : State :=
  let s := s.unitStore ⟨.dev, harrowBase + 0xA10000 + 64 * (n.seq % 31744)⟩ n.bytes
  { s with prod := s.prod + 1, pendingNotes := s.pendingNotes ++ [s.clk] }.coalesce

/-- An event of R293: written at once, or held in order and counted while the ring is full. -/
def State.notify (s : State) (n : Note) : State :=
  let n := { n with seq := s.noteSeq }
  let s := { s with noteSeq := s.noteSeq + 1 }
  if s.notes ≠ [] ∨ (s.prod - s.cons).toNat = 31744 then
    { s with notes := s.notes ++ [n], overrun := s.overrun + 1 }
  else s.writeNote n

/-- Held events written while the ring has room. -/
def State.flushNotes : Nat → State → State
  | 0, s => s
  | k + 1, s =>
    match s.notes with
    | [] => s
    | n :: r => if (s.prod - s.cons).toNat = 31744 then s else State.flushNotes k (State.writeNote { s with notes := r } n)

/-- A record enters CONVERGED or FAILED (R286), with its notification. -/
def State.enter (s : State) (slot : Nat) (f : Rec → Rec) : State :=
  let r := f (s.record slot)
  let s := s.setRecord r
  s.notify { kind := if r.phase = .converged then 1 else 2, fault := r.fault, slot := slot, id := r.id, writer := r.writer,
             mark := r.mark, base := 0, lastWriter := r.writer, cursor := r.cursor, seq := 0 }

/-- A step of a record fails with a code (R286): CURSOR and what earlier steps made stay. -/
def State.failRecord (s : State) (slot code : Nat) : State :=
  s.enter slot fun r => { r with phase := .failed, fault := code, waiting := false, starting := false, versionConverged := false }

/-- Bytes of the crash region written by the management core (R274, R376). -/
def State.crashPut (s : State) (off : Nat) (bytes : List Byte) : State :=
  { s with crash := cellsPutAll s.crash off bytes }

/-- One event record (Table D.4), and the producer count at 0x0048. -/
def State.logEvent (s : State) (cause place ctx die cluster core isl addr policy : Nat) : State :=
  let e := leBytes 8 s.events ++ leBytes 8 (s.clk / 940) ++ leBytes 1 cause ++ leBytes 1 place ++ leBytes 1 ctx
    ++ leBytes 1 die ++ leBytes 1 core ++ leBytes 1 cluster ++ leBytes 2 isl ++ leBytes 8 addr ++ leBytes 4 policy
    ++ List.replicate 28 0
  let s := s.crashPut (0x2000 + 64 * (s.events % 65408)) e
  let s := { s with events := s.events + 1 }
  s.crashPut 0x48 (leBytes 8 s.events)

end Sys2Proof.Machine
end

