-- ==== Sys2Proof/Machine/Xlate.lean ====
section
/-!
DEFINITION. Translation (R302), the classes of a failed translation (R303), and code regions (R43).
-/

namespace Sys2Proof.Machine

/-- Trap causes (Table A.25). -/
abbrev cIllegalInstruction : Nat := 0x01
abbrev cIllegalRegister : Nat := 0x02
abbrev cIllegalOperand : Nat := 0x03
abbrev cStallShort : Nat := 0x04
abbrev cMisaligned : Nat := 0x05
abbrev cPageFault : Nat := 0x06
abbrev cProtection : Nat := 0x07
abbrev cPoison : Nat := 0x08
abbrev cPathDepth : Nat := 0x09
abbrev cPathUnbalanced : Nat := 0x0A
abbrev cPathOverflow : Nat := 0x0B
abbrev cLoopOverflow : Nat := 0x0C
abbrev cCopyRights : Nat := 0x0D
abbrev cCopyOperand : Nat := 0x0E
abbrev cPlaneCollision : Nat := 0x0F
abbrev cQueueKind : Nat := 0x10
abbrev cExpertSpill : Nat := 0x11
abbrev cCommitFull : Nat := 0x12
abbrev cDepthLimit : Nat := 0x13
abbrev cMatrixStream : Nat := 0x14
abbrev cAccRange : Nat := 0x15
abbrev cHostAbsent : Nat := 0x16
abbrev cSoftware : Nat := 0x17
abbrev cBreak : Nat := 0x18

/-- The installed page of a context that holds a virtual address; another context's page misses (R302). -/
def State.page? (s : State) (ctx va : Nat) : Option Page :=
  s.pages.find? fun p => p.ctx == ctx && decide (p.va ≤ va) && decide (va < p.va + p.size)

/-- The live MAPPING record of a context whose pages cover a virtual address (Table C.13). -/
def State.covering? (s : State) (ctx va : Nat) : Option Rec :=
  s.recs.find? fun r =>
    r.live && r.kind == 2 && r.ctx == ctx &&
    (let v := w64 r.body 0
     let n := w32 r.body 8 * pageBytes (bits (w32 r.body 0x0C) 0 2)
     decide (v ≤ va) && decide (va < v + n))

/-- The outcome of a translation: a location with its rights and whether it is a supervisor page, a move under
way, or the cause of the failure. -/
inductive XRes where
  | ok (loc : PAddr) (perm : BitVec 3) (sup : Bool)
  | moving
  | fail (cause : Nat)
  deriving DecidableEq, Repr

/-- Translating a virtual address (R302): an address at or above 2^52 raises PROTECTION (R129), a revoked host
page HOST_ABSENT, and no page PAGE_FAULT. -/
def State.translate (s : State) (ctx va : Nat) : XRes :=
  if 2 ^ 52 ≤ va then .fail cProtection
  else match s.page? ctx va with
    | none => .fail cPageFault
    | some p =>
      if p.revoked then .fail cHostAbsent
      else if p.moving then .moving
      else .ok ⟨p.sp, p.frame + (va - p.va)⟩ p.perm p.sup

/-- Whether a byte of a run of a context's addresses lies on a page whose move is under way: a unit's access to it waits
(R311). (Log entry 19 DEDUCED.) -/
def State.movingIn (s : State) (ctx va n : Nat) : Bool :=
  s.pages.any fun p => p.ctx == ctx && p.moving && !p.revoked && decide (p.va < va + n) && decide (va < p.va + p.size)

/-- The ports of a LINK body. -/
def linkPorts (b : List Byte) : List Nat := (List.range 8).filter fun p => (bits (w64 b 8) 0 8).testBit p

/-- Whether a location is reached over ports of which one carries no flits (R343, R347). -/
def State.portsDown (s : State) (sp : Space) : Bool :=
  match sp with
  | .peer k => (linkPorts (s.record k).body).any fun p => !(s.port p).up
  | _ => false

/-- Whether a lane under way waits: for its host page to apply again (R353), for its link's ports (R343), or to be
translated afresh (R313). -/
def State.laneAway (s : State) (ctx : Nat) (l : LaneReq) : Bool :=
  l.stale || s.portsDown l.loc.sp || l.loc.sp == .host && (match s.page? ctx l.va with
    | some p => p.revoked
    | none => false)

/-- Bytes of the physically contiguous run from a virtual address within the pages of its mapping (R147), looked for over
at most k further pages.  The two halves of the launch area are one page (R321). -/
def State.runFrom (s : State) (ctx : Nat) (p : Page) (va : Nat) : Nat → Nat
  | 0 => p.va + p.size - va
  | k + 1 =>
    match s.page? ctx (p.va + p.size) with
    | some q =>
      if p.kind = .launchArea ∧ q.kind = .kickPage then p.va + p.size - va + q.size
      else if q.slot = p.slot ∧ q.kind = p.kind ∧ q.sp = p.sp ∧ q.frame = p.frame + p.size ∧ q.perm = p.perm ∧
          q.revoked = false ∧ q.moving = false then
        p.va + p.size - va + s.runFrom ctx q (p.va + p.size) k
      else p.va + p.size - va
    | none => p.va + p.size - va

/-- Whether an address lies in a code region of the context, which is read-only to groups (R43).
(Log entry 12 DEDUCED.) -/
def State.inCode (s : State) (ctx va n : Nat) : Bool :=
  s.images.any fun c => c.ctx == ctx && decide (c.va < va + n) && decide (va < c.va + c.len)

/-- Whether the peer of a LINK record exports a run of bytes (R345). (Log entry 40 DEDUCED.) -/
def State.peerTakes (s : State) (link a n : Nat) : Bool :=
  match (s.record link).peerExp with
  | [v, l] => decide (v ≤ a) && decide (a + n ≤ v + l)
  | _ => false

/-- The class of a failed lane (Table C.14): whether it is a first touch, whether it is parkable (unapplied page or
absent host), and the id of the MAPPING record that covers the address. (Log entry 18 DEDUCED.) -/
def State.faultClass (s : State) (ctx va cause : Nat) : Bool × Bool × Nat :=
  match s.covering? ctx va with
  | none => (false, false, 0)
  | some r =>
    let pol := bits (w32 r.body 0x0C) 10 2
    if cause = cHostAbsent then (false, true, r.id)
    else if cause = cPageFault then
      if pol = 1 then (true, false, r.id)
      else (false, !r.deleting && (s.page? ctx va).isNone, r.id)
    else (false, false, r.id)

/-- Whether the host or a peer can read a location (R239): host and peer memory, a host-visible far page, and the
Harrow ranges. (Log entry 82 DEDUCED.) -/
def State.hostSees (s : State) (p : PAddr) : Bool :=
  match p.sp with
  | .host => true
  | .peer _ => true
  | .dev =>
    (decide (harrowBase ≤ p.a) && decide (p.a < farBase)) ||
      s.pages.any fun g => g.hostVis && g.sp == .dev && decide (g.frame ≤ p.a) && decide (p.a < g.frame + g.size)
  | _ => false

/-- The bytes at a context's virtual address, as far as they translate with the read right and carry no poison
(capture steps, images, argument blocks). -/
def State.readVa (s : State) (ctx va : Nat) : Nat → Except Nat (List Byte)
  | 0 => .ok []
  | n + 1 =>
    match s.translate ctx va with
    | .ok loc perm _ =>
      if perm.getLsbD 0 = false then .error 0x13
      else if s.poisonedAt loc then .error 0x14
      else match s.readVa ctx (va + 1) n with
        | .ok r => .ok (s.byteAt loc :: r)
        | .error e => .error e
    | _ => .error 0x13

/-- Bytes stored at a context's virtual address by a unit of the device, byte by byte where they translate with
the write right; the second part counts those that do not. -/
def State.writeVa (s : State) (ctx va : Nat) : List Byte → State × Nat
  | [] => (s, 0)
  | b :: bs =>
    match s.translate ctx va with
    | .ok loc perm _ =>
      if perm.getLsbD 1 then (s.unitStore loc [b]).writeVa ctx (va + 1) bs
      else let r := s.writeVa ctx (va + 1) bs; (r.1, r.2 + 1)
    | _ => let r := s.writeVa ctx (va + 1) bs; (r.1, r.2 + 1)

end Sys2Proof.Machine
end

