-- ==== Sys2Proof/Machine/JobGeom.lean ====
section
/-!
DEFINITION. Job cards (Tables A.69 to A.71): their fields, the runs of a job (R172), its destination span and
completion area (R177), and the ends of a job (Table A.73).
-/

namespace Sys2Proof.Machine

/-- Doubleword i of a card. -/
def cardD (c : List Nat) (i : Nat) : Nat := nth c i 0

def cardHoff (c : List Nat) : Nat := bits (cardD c 0) 44 20
def cardNop (c : List Nat) : Nat := bits (cardD c 0) 40 4
def cardCrypt (c : List Nat) : Nat := bits (cardD c 0) 38 2
def cardKind (c : List Nat) : Nat := bits (cardD c 0) 36 2
def cardFout (c : List Nat) : Nat := bits (cardD c 0) 28 4
def cardFin (c : List Nat) : Nat := bits (cardD c 0) 24 4
def cardKey (c : List Nat) : Nat := bits (cardD c 0) 16 8
def cardRun (c : List Nat) : Nat := bits (cardD c 0) 0 16 + 1
def cardSrcSpad (c : List Nat) : Bool := (cardD c 1).testBit 63
def cardSrc (c : List Nat) : Nat := bits (cardD c 1) 0 52
def cardDstSpad (c : List Nat) : Bool := (cardD c 2).testBit 63
def cardDst (c : List Nat) : Nat := bits (cardD c 2) 0 52
def cardMcast (c : List Nat) : Nat := bits (cardD c 3) 52 8
def cardCmpl (c : List Nat) : Nat := bits (cardD c 3) 0 52

/-- Micro-op word i (D4 to D7, low half first). -/
def cardOp (c : List Nat) (i : Nat) : Nat := bits (cardD c (4 + i / 2)) (32 * (i % 2)) 32

/-- The used micro-op words, in order. -/
def cardOps (c : List Nat) : List Nat := (List.range (cardNop c)).map (cardOp c)

/-- A stride code's bytes: sext(c[7:4]) × 2^c[3:0] (R171). -/
def strideOf (c : Nat) : Int :=
  let m : Int := if bits c 4 4 < 8 then (bits c 4 4 : Int) else (bits c 4 4 : Int) - 16
  m * (2 ^ bits c 0 4 : Nat)

/-- A LOOP word: iterations, source stride with its dilation, destination stride, pad. -/
structure LoopWord where
  n : Nat
  ss : Int
  ds : Int
  pad : Nat
  deriving DecidableEq, Repr

/-- The LOOP words of a card, the first outermost (R172). -/
def cardLoops (c : List Nat) : List LoopWord :=
  (cardOps c).filterMap fun w =>
    if bits w 30 2 = 1 then
      some { n := bits w 20 10 + 1, ss := strideOf (bits w 12 8) * (bits w 2 2 + 1 : Nat), ds := strideOf (bits w 4 8),
             pad := bits w 0 2 }
    else none

/-- Bytes of one element; raw bytes count as one (Table A.3). -/
def fmtSize (f : Nat) : Nat :=
  if f = 0 ∨ f = 8 then 4 else if f = 1 ∨ f = 2 then 2 else 1

/-- Number of runs of a job. -/
def cardRuns (c : List Nat) : Nat := ((cardLoops c).map LoopWord.n).foldl (· * ·) 1

/-- Source offset, destination offset and padding of run r, the last index fastest. -/
def runOffsets : List LoopWord → Nat → Int × Int × Bool
  | [], _ => (0, 0, false)
  | l :: ls, r =>
    let inner := (ls.map LoopWord.n).foldl (· * ·) 1
    let i := r / inner % l.n
    let rest := runOffsets ls (r % inner)
    (i * l.ss + rest.1, i * l.ds + rest.2.1, decide (i < l.pad) || decide (l.n - l.pad ≤ i) || rest.2.2)

/-- Elements of one run. -/
def cardElems (c : List Nat) : Nat := cardRun c / fmtSize (cardFin c)

/-- Bytes one run writes to the element array: BX4 packs two elements to a byte. -/
def cardOutBytes (c : List Nat) : Nat :=
  if cardFout c = 6 then cardElems c / 2 else if cardFout c = 5 then cardElems c
  else cardElems c * fmtSize (cardFout c)

/-- Blocks of one run of a BX job. -/
def cardBlocks (c : List Nat) : Nat := if cardFout c = 5 ∨ cardFout c = 6 then cardElems c / 32 else 0

/-- The lowest and the highest offset that the loops add (R177: a stride may be negative). -/
def offLow (ls : List LoopWord) (f : LoopWord → Int) : Int :=
  (ls.map fun l => min 0 ((l.n - 1 : Nat) * f l)).foldl (· + ·) 0
def offHigh (ls : List LoopWord) (f : LoopWord → Int) : Int :=
  (ls.map fun l => max 0 ((l.n - 1 : Nat) * f l)).foldl (· + ·) 0

/-- First and last byte of the element-array destination (R177). -/
def dstLow (c : List Nat) : Nat := (cardDst c + offLow (cardLoops c) LoopWord.ds).toNat
def dstHigh (c : List Nat) : Nat := (cardDst c + offHigh (cardLoops c) LoopWord.ds).toNat + cardOutBytes c - 1
def srcLow (c : List Nat) : Nat := (cardSrc c + offLow (cardLoops c) LoopWord.ss).toNat
def srcHigh (c : List Nat) : Nat := (cardSrc c + offHigh (cardLoops c) LoopWord.ss).toNat + cardRun c - 1

/-- First byte of the header array, and its bytes. -/
def hdrLow (c : List Nat) : Nat := cardDst c + 64 * cardHoff c
def hdrLen (c : List Nat) : Nat := 2 * cardBlocks c * cardRuns c

/-- Sectors of the destination span: the element array's, then the header array's (R177). -/
def elemSectors (c : List Nat) : Nat := dstHigh c / 4096 - dstLow c / 4096 + 1
def hdrSectors (c : List Nat) : Nat :=
  if hdrLen c = 0 then 0 else (hdrLow c + hdrLen c - 1) / 4096 - hdrLow c / 4096 + 1
def cardSectors (c : List Nat) : Nat := elemSectors c + hdrSectors c

/-- Sector of the span in which a destination byte lies; a byte of the header array counts from its own run. -/
def sectorOf (c : List Nat) (hdr : Bool) (a : Nat) : Nat :=
  if hdr then elemSectors c + (a / 4096 - hdrLow c / 4096) else a / 4096 - dstLow c / 4096

/-- Destination addresses of run r: of its elements, and of its headers. -/
def runDst (c : List Nat) (r : Nat) : Nat := (cardDst c + (runOffsets (cardLoops c) r).2.1).toNat
def runSrc (c : List Nat) (r : Nat) : Nat := (cardSrc c + (runOffsets (cardLoops c) r).1).toNat
def runHdr (c : List Nat) (r : Nat) : Nat := hdrLow c + 2 * (cardBlocks c * r)

/-- Every destination byte of a run with its sector. -/
def runBytes (c : List Nat) (r : Nat) : List (Nat × Nat) :=
  (List.range (cardOutBytes c)).map (fun i => (runDst c r + i, sectorOf c false (runDst c r + i)))
  ++ (List.range (2 * cardBlocks c)).map (fun i => (runHdr c r + i, sectorOf c true (runHdr c r + i)))

/-- The list without repeats. -/
def dedup : List Nat → List Nat
  | [] => []
  | x :: r => let t := dedup r; if t.contains x then t else x :: t

/-- Destination bytes of a job, each once, with the sector of each. -/
def cardBytes (c : List Nat) : List (Nat × Nat) := (List.range (cardRuns c)).flatMap (runBytes c)

/-- Bytes that a job has not written, replays included (R178). -/
def Job.missingBytes (j : Job) : List (Nat × Nat) := (cardBytes j.card).filter fun b => !j.wrote.contains b.1

/-- Sectors with a missing byte. -/
def Job.missingSectors (j : Job) : List Nat := dedup (j.missingBytes.map Prod.snd)

/-- Landed bytes: the distinct destination bytes written (R178). (Log entry 39 DEDUCED.) -/
def Job.landed (j : Job) : Nat := j.wrote.length

/-- The sector bitmap as 64-bit words (Table A.72). -/
def bitmapBytes (sectors : Nat) (missing : List Nat) : List Byte :=
  let n := (sectors + 63) / 64
  (List.range n).flatMap fun w =>
    leBytes 8 (((List.range 64).filter (fun i => decide (w * 64 + i < sectors) && !missing.contains (w * 64 + i))).foldl
      (fun acc i => acc + 2 ^ i) 0)

/-- The completion area that a job's end writes (Table A.72), with the state, outside its IV and tag. -/
def Job.areaHead (j : Job) (state : Nat) : List Byte :=
  leBytes 8 (state + (if j.skipped then 8 else 0) + j.landed % 2 ^ 40 * 2 ^ 24) ++ leBytes 4 (cardSectors j.card)
    ++ leBytes 4 (match j.missingSectors with
      | [] => 0xFFFFFFFF
      | x :: r => r.foldl min x)

/-- A team's token replaced. -/
def State.putToken (s : State) (tid k : Nat) (f : Token → Token) : State :=
  match s.team? tid with
  | none => s
  | some t => s.putTeam { t with tokens := t.tokens.mapIdx (fun i x => if i = k then f x else x) }

/-- The core's order unit without a job. -/
def State.dropOrder (s : State) (core jid : Nat) : State :=
  let c := s.core core
  s.putCore { c with order := c.order.filter (· ≠ jid) }

/-- A store of a job (R235): it joins co(x) with reach DEVICE, and where the host can see the bytes it goes on to
SYSTEM in a later step. -/
def State.jobStore (s : State) (p : PAddr) (bytes : List Byte) (ctx : Nat) : State :=
  let (i, s) := s.newId
  let later := p.sp == .dev && s.hostSees p
  let s := if later then
      { s with stores := s.stores ++ [{ sid := i, gid := 0, ctx := ctx, acc := 0, lane := 0, tgt := .mem p, data := bytes,
                                        reach := .device, rel := none, cluster := 0, die := 0, epoch := 0, passC := 0,
                                        passD := 0 }] }
    else s
  s.storeHome p bytes i (!later) false ctx

/-- Bytes of the completion area (R170). -/
def cardArea (c : List Nat) : Nat := 0x40 + (cardSectors c + 63) / 64 * 8

/-- Whether two byte runs of one address space meet. -/
def runsMeet (a n b m : Nat) : Bool := decide (a < b + m) && decide (b < a + n)

/-- Whether a job reads or writes a byte of a run of virtual addresses: with a run of its own, or in its completion
area. -/
def Job.uses (j : Job) (va n : Nat) : Bool :=
  let c := j.card
  runsMeet (cardCmpl c) (cardArea c) va n || (List.range (cardRuns c)).any fun r =>
    (!cardSrcSpad c && runsMeet (runSrc c r) (cardRun c) va n)
      || (!cardDstSpad c && (runsMeet (runDst c r) (cardOutBytes c) va n
        || (cardBlocks c != 0 && runsMeet (runHdr c r) (2 * cardBlocks c) va n)))

/-- Whether a completion area lies on a page that moves: its writes wait (R311). (Log entry 19 DEDUCED.) -/
def State.areaMoves (s : State) (j : Job) : Bool := s.movingIn j.ctx (cardCmpl j.card) (cardArea j.card)

/-- Doublewords of a completion area stored, where their page still takes them and outside the code regions (R43): with
reach SYSTEM for the REMOTE kinds (R177). -/
def State.writeArea (s : State) (j : Job) (va : Nat) (bytes : List Byte) : State :=
  s.each (List.range ((bytes.length + 7) / 8)) fun s i =>
    match s.translate j.ctx (va + 8 * i) with
    | .ok loc perm _ =>
      if perm.getLsbD 1 && loc.sp == .dev && !s.inCode j.ctx (va + 8 * i) 8 then
        let b := (bytes.drop (8 * i)).take 8
        if 2 ≤ cardKind j.card then s.unitStore loc b else s.jobStore loc b j.ctx
      else s
    | _ => s

/-- The end of a started job (R177): the completion area is written, where it still can be, and the token's state
changes last.  A completion area that can no longer be written makes the end FAILED (R170). -/
def State.finishJob (s : State) (j : Job) (state : Nat) : State :=
  let va := cardCmpl j.card
  let ok := (List.range ((cardArea j.card + 7) / 8)).all fun i =>
    match s.translate j.ctx (va + 8 * i) with
    | .ok loc perm _ => perm.getLsbD 1 && loc.sp == .dev && !s.inCode j.ctx (va + 8 * i) 8
    | _ => false
  let state := if ok then state else 4
  let s := s.writeArea j (va + 0x40) (bitmapBytes (cardSectors j.card) j.missingSectors)
  let s := s.writeArea j (va + 0x1C) (leBytes 4 0)
  let s := s.writeArea j (va + 0x30) (List.replicate 16 0)
  let s := s.writeArea j (va + 8) ((j.areaHead state).drop 8)
  let s := s.writeArea j va ((j.areaHead state).take 8)
  let s := (s.putJob { j with state := .ended }).dropOrder j.core j.jid
  let s := s.putToken j.tid j.tok fun t => { t with state := state, landed := j.landed, skipped := j.skipped }
  match s.team? j.tid with
  | none => s
  | some t => s.putTeam { t with jobs := t.jobs.filter (· ≠ j.jid) }

/-- A job whose host or link is gone ends FAILED (R347, R353), once its completion area can be written (R311). -/
def State.failJob (s : State) (j : Job) : State :=
  if s.areaMoves j then s.putJob { j with failed := true } else s.finishJob { j with failed := true } 4

/-- A waiting job is discarded without reading or writing (R175). -/
def State.discardJob (s : State) (j : Job) : State :=
  let s := (s.putJob { j with state := .ended }).dropOrder j.core j.jid
  let s := s.putToken j.tid j.tok fun t => { t with state := 6 }
  match s.team? j.tid with
  | none => s
  | some t => s.putTeam { t with jobs := t.jobs.filter (· ≠ j.jid) }

/-- The head of a team's job queue leaves for its home core's order unit while it is unguarded or its guard is true;
under a false guard it is discarded (R175).  At most n jobs leave. -/
def State.pumpJobs (s : State) (tid : Nat) : Nat → State
  | 0 => s
  | n + 1 =>
    match s.team? tid with
    | none => s
    | some t => match t.jobs with
      | [] => s
      | jid :: rest => match s.job? jid with
        | none => s
        | some j =>
          let v := match j.guard with
            | none => 1
            | some k => t.guards.getD k 0
          if v = 0 then s
          else if v = 1 then
            let s := (s.putTeam { t with jobs := rest }).putJob { j with state := .waiting, core := t.home }
            let c := s.core t.home
            (s.putCore { c with order := c.order ++ [jid] }).pumpJobs tid n
          else (s.discardJob j).pumpJobs tid n

end Sys2Proof.Machine
end

