-- ==== Sys2Proof/Machine/Order.lean ====
section
/-!
DEFINITION. The ordering machine (R222 to R240): reach, stores widening towards their home, the order of a location
as a group sees it, what a load may return, and counters falling in issue order (R34).
-/

namespace Sys2Proof.Machine

/-- Whether two stores go to one location, so that they keep program order (R227, R236). -/
def Store.meets (x y : Store) : Bool :=
  match x.tgt, y.tgt with
  | .mem p, .mem q => overlap p x.data.length q y.data.length
  | .plane t r w _ _, .plane t' r' w' _ _ => t == t' && r == r' && w == w'
  | _, _ => false

/-- The reach a store comes to with its next PERFORM (Table A.56): the cluster port, the outbound port when its
home lies on another die, home, and at last SYSTEM where the host can see it. -/
def State.nextReach (s : State) (x : Store) : Nat :=
  match x.tgt with
  | .plane .. => 4
  | .mem loc =>
    match loc.sp with
    | .win _ => 4
    | .dev =>
      if x.reach = .none then 1
      else if x.reach = .cluster then (if homeDie loc.a = x.die then (if s.hostSees loc then 3 else 4) else 2)
      else if x.reach = .die then (if s.hostSees loc then 3 else 4)
      else 4
    | _ => if x.reach = .none then 1 else 4

/-- Whether everything the group issued before identity `upTo`, that stores, is performed at a scope (R230). -/
def State.performedAt (s : State) (gid upTo scope : Nat) : Bool :=
  s.stores.all (fun x => !(x.gid == gid && decide (x.acc < upTo) && decide (x.reach.num < x.reachAt scope)))
  && (match s.group? gid with
      | some g => g.acc.all (fun a => !(decide (a.id < upTo) && a.pendingAtomic))
      | none => true)

/-- Whether one store of a group comes before another in program order, lanes of one instruction in the order of their
stores; that of an ATOMIC has its instruction's place. -/
def Store.before (y x : Store) : Bool :=
  decide (y.acc < x.acc) || (decide (y.acc = x.acc) && decide (y.sid < x.sid))

/-- Whether a store goes to host memory. -/
def Store.toHost (x : Store) : Bool :=
  match x.tgt with
  | .mem p => p.sp == .host
  | .plane .. => false

/-- Whether the lane that a store is of has still to be translated afresh (R313). -/
def State.storeStale (s : State) (x : Store) : Bool :=
  match s.group? x.gid with
  | some g => g.acc.any fun a => a.id == x.acc && a.lanes.any fun l => l.lane == x.lane && l.stale
  | none => false

/-- Whether a PERFORM of a store may be taken (R224): program order to its location, among stores and after the reads
and atomics issued before it (R227, R228), the group's earlier writes to host memory (R341), the release it may be
(R230), JOIN (R233), and the ports of a link it travels over (R343). -/
def State.mayPerform (s : State) (x : Store) : Bool :=
  let n := s.nextReach x
  s.stores.all (fun y => !(y.gid == x.gid && y.before x && y.meets x && decide (y.reach.num < n)))
  && (match s.group? x.gid, x.tgt with
      | some g, .mem p => !g.accessBefore x.acc p x.data.length
      | _, _ => true)
  && (decide (n < 4) || !x.toHost || s.stores.all (fun y => !(y.gid == x.gid && y.before x && y.toHost)))
  && (match x.rel with
      | none => true
      | some sc => decide (n < scopeReach sc) || s.performedAt x.gid x.acc sc)
  && s.joinClear x.gid x.epoch && !s.storeStale x
  && (match x.tgt with
      | .mem p => !s.portsDown p.sp
      | .plane .. => true)

/-- A word of a plane region, as a group sees its next value (R246). -/
def Plane.presentAt (p : Plane) (w : Nat) : Word :=
  match p.present.find? (fun e => e.1 == w) with
  | some e => e.2
  | none => 0

/-! ### Reading a location -/

/-- The place below which a read by an access of identity `upTo` may not fall: that of the group's floor, which counts
its own stores from their ISSUE (R227). -/
def State.floorPlace (s : State) (g : Group) (p : PAddr) (upTo : Nat) : Nat :=
  let own := s.stores.filter fun x => x.gid == g.gid && decide (x.acc < upTo) && (match x.tgt with
    | .mem loc => overlap loc x.data.length p 1
    | .plane .. => false)
  (own.map fun x => s.placeOf g p x.sid).foldl max (s.placeOf g p (g.floor p))

/-- The L1 block of a core that holds a location. -/
def State.l1At (s : State) (core : Nat) (p : PAddr) : Option L1Block :=
  s.l1.find? fun b => b.core == core && decide (b.loc.sp = p.sp) && decide (b.loc.a ≤ p.a) && decide (p.a < b.loc.a + 16)

/-- The byte that a core's L1 line gives a group's access, when the line may serve it (R226): it took its store after
the group's freshness mark, and that store is not earlier than the group's floor. -/
def State.l1Byte (s : State) (g : Group) (upTo : Nat) (p : PAddr) : Option (Nat × Byte) :=
  match s.l1At (coreOf g.die g.core) p with
  | none => none
  | some b =>
    let i := p.a - b.loc.a
    let sid := b.sids.getD i 0
    if g.mark < b.took.getD i 0 ∧ s.floorPlace g p upTo ≤ s.placeOf g p sid then some (sid, b.bytes.getD i 0) else none

/-- The bytes that the L1 line gives an access of n bytes, when every byte of the line may serve it (R135: one
single-copy-atomic read). -/
def State.lineBytes (s : State) (g : Group) (upTo : Nat) (p : PAddr) (n : Nat) : Option (List (Nat × Byte)) :=
  let line := (List.range n).map fun i => s.l1Byte g upTo (p.plus i)
  if line.all Option.isSome then some (line.filterMap id) else none

/-- An L1 block with the bytes of a store written over those it holds (R128). -/
def L1Block.write (b : L1Block) (loc : PAddr) (data : List Byte) (sid step : Nat) : L1Block :=
  let at_ := fun i => b.loc.a + i - loc.a
  let hit := fun i => decide (loc.a ≤ b.loc.a + i) && decide (b.loc.a + i < loc.a + data.length)
  { b with
    bytes := b.bytes.mapIdx fun i x => if hit i then data.getD (at_ i) x else x
    sids := b.sids.mapIdx fun i x => if hit i then sid else x
    took := b.took.mapIdx fun i x => if hit i then step else x }

/-- The issuing core's L1 line, when present, takes a store performed at CLUSTER (R224). -/
def State.l1Store (s : State) (core : Nat) (loc : PAddr) (data : List Byte) (sid : Nat) : State :=
  { s with l1 := s.l1.map fun b =>
      if b.core = core && overlap b.loc 16 loc data.length then b.write loc data sid s.opStep else b }

/-- The state without a store. -/
def State.dropStore (s : State) (sid : Nat) : State := { s with stores := s.stores.filter (fun y => y.sid ≠ sid) }

/-- A store reaches its home: it joins the coherence order.  A store to the first-touch port is a request for a
frame (R306). -/
def State.goHome (s : State) (x : Store) (loc : PAddr) : State :=
  match loc.sp with
  | .port c =>
    let s := s.dropStore x.sid
    match s.ctx? c with
    | some cx => s.putCtx { cx with ftReqs := cx.ftReqs ++ [(x.gid, leNat x.data)] }
    | none => s
  | _ =>
    let see := loc.sp = .dev && s.hostSees loc
    let s := if see then
        { s with stores := s.stores.map (fun y => if y.sid = x.sid then { y with reach := .device } else y) }
      else s.dropStore x.sid
    s.storeHome loc x.data x.sid (!see) false x.ctx

/-- One PERFORM of a memory store (R224): its reach widens to the next point. -/
def State.performMem (s : State) (x : Store) (loc : PAddr) : State :=
  let s := { s with opStep := s.opStep + 1 }
  let n := s.nextReach x
  if x.reach = .device then
    let s := s.dropStore x.sid
    { s with co := s.co.map fun e => if e.sid = x.sid then { e with sys := true } else e }
  else
    let s := if x.reach = .none then
        (match s.group? x.gid with
         | some g => s.l1Store (coreOf g.die g.core) loc x.data x.sid
         | none => s)
      else s
    if n = 1 then
      { s with stores := s.stores.map fun y => if y.sid = x.sid then { y with reach := .cluster, passC := s.opStep } else y }
    else if n = 2 then
      { s with stores := s.stores.map fun y => if y.sid = x.sid then { y with reach := .die, passD := s.opStep } else y }
    else
      let s := s.goHome x loc
      match s.group? x.gid with
      | some g => s.putGroup (s.raiseAll g loc (x.data.map fun b => (x.sid, b)))
      | none => s

/-! ### Counters -/

/-- A counter of Table A.7. -/
def Group.count (g : Group) (path : Nat) : Nat := (g.acc.filter (fun a => a.path == path)).length

/-- Whether an access has returned (Table A.7): a store when it is performed at its scope, a load or pop when its
registers are written, an atomic when it is performed too, and one under exec = 0 after one beat. -/
def State.accDone (s : State) (a : Access) : Bool :=
  match a.kind with
  | .nothing => decide (a.issued + 4 ≤ s.clk)
  | .xlate => a.returned
  | .qget => a.returned
  | .qtry => a.returned
  | .qtryp => a.returned
  | _ =>
    a.lanes.all (fun l => l.finished)
      && s.stores.all (fun x => !(x.acc == a.id && decide (x.reach.num < x.reachAt a.scope)))

/-- Accesses that stay, and those that leave: each path gives up its oldest accesses first (R34). -/
def splitDone (isDone : Access → Bool) : List Access → List Nat → List Access × List Access
  | [], _ => ([], [])
  | a :: r, blocked =>
    if !blocked.contains a.path && isDone a then
      let x := splitDone isDone r blocked
      (x.1, a :: x.2)
    else
      let x := splitDone isDone r (a.path :: blocked)
      (a :: x.1, x.2)

/-- Some lanes of a returned access to be reported under a cause; none where there are none. -/
def Access.report (a : Access) (cause : Nat) (ps : List LaneReq) : List PoisonRec :=
  if ps.isEmpty then []
  else [{ cause := cause, path := a.path, acc := a.id, pc := a.pc, lanes := ps,
          scalar := a.kind == .sld || a.kind == .sld64 || a.kind == .satadd || a.kind == .satcas
            || a.kind == .spollne || a.kind == .sldacq,
          access := if a.kind == .st then 1 else if a.kind == .atom || a.kind == .satadd || a.kind == .satcas then 2 else 0,
          width := a.width }]

/-- What a returned access leaves to be reported: POISON (R132), and PAGE_FAULT for lanes lost with a link (R347). -/
def Access.reports (a : Access) : List PoisonRec :=
  a.report cPoison (a.lanes.filter fun l => l.poisoned && l.lost.isNone)
    ++ a.report cPageFault (a.lanes.filter fun l => l.lost.isSome)

/-- The registers of a returned access written: until then they hold their previous values (R34). -/
def Group.writeBack (g : Group) (a : Access) : Group := a.results.foldl Group.land g

/-- A group's counters fall, and the registers of the accesses they fall past are written (R34). -/
def State.retire (s : State) (gid : Nat) : State :=
  match s.group? gid with
  | none => s
  | some g =>
    let x := splitDone s.accDone g.acc []
    let g := x.2.foldl Group.writeBack g
    s.putGroup { g with acc := x.1, back := g.back || !x.2.isEmpty, poison := g.poison ++ x.2.flatMap Access.reports }

/-- The context that a line's owner tag names (R363); none where the tag is invalid. (Log entry 67 DEDUCED.) -/
def State.ownerOf (s : State) (a : Nat) : Option Nat :=
  (s.tags.find? fun t => decide (t.1 ≤ a) && decide (a < t.1 + t.2.1)).map fun t => t.2.2

/-- Whether an error in the granule of an access falls to POISON, as it does where the line's owner tag is invalid, which
ends no context; otherwise the context ends (R132, R365, R366). -/
def State.poisonPolicy (s : State) (ctx va : Nat) (loc : PAddr) : Bool :=
  let policy := match s.page? ctx va with
    | some p => p.rasPoison
    | none => false
  match loc.sp with
  | .win _ => false
  | .dev => (s.ownerOf loc.a).isNone || policy
  | _ => policy

/-- An access of a group replaced. -/
def Group.putAcc (g : Group) (a : Access) : Group :=
  { g with acc := g.acc.map fun y => if y.id = a.id then a else y }

/-- The group and the access of an identity. -/
def State.access? (s : State) (acc : Nat) : Option (Group × Access) :=
  match s.groups.find? (fun g => g.acc.any (fun a => a.id == acc)) with
  | none => none
  | some g => match g.acc.find? (fun a => a.id == acc) with
    | none => none
    | some a => some (g, a)

/-- The freshness mark an acquire sets when it completes (R229): at CLUSTER scope or wider, or at TEAM for a team
on a core pair. -/
def State.acquired (s : State) (g : Group) (scope : Nat) : Group :=
  let pair := match s.team? g.tid with
    | some t => t.home != t.partner
    | none => false
  if 1 ≤ scope ∨ pair = true then { g with mark := s.opStep } else g

end Sys2Proof.Machine
end

