-- ==== Sys2Proof/Machine/Perform.lean ====
section
/-!
DEFINITION. Plane words (R184, R245, R246), one PERFORM of any store, and performing a group's earlier stores at a
scope at once, as releases ask (R230).
-/

namespace Sys2Proof.Machine

/-- The next value that a word without a write of this step shows (R246). -/
def Plane.carried (p : Plane) (w : Nat) : Word := if p.carry = 1 then 0 else p.presentAt w

/-- The rule's combination of two values (R184). -/
def Plane.combine (p : Plane) (a b : Word) : Word :=
  match p.rule with
  | 0 => if a.toInt ≤ b.toInt then a else b
  | 1 => if a.toInt ≤ b.toInt then b else a
  | 3 => a + b
  | 4 => f32AddRne a b
  | _ => a

/-- A write's key: member, lane, program order, the order saturating at 0x7_FFFF (R250). -/
def planeKey (member lane order : Nat) : Word :=
  BitVec.ofNat 32 (member * 2 ^ 24 + lane * 2 ^ 19 + min order 0x7FFFF)

/-- One lane's PST performed on a word (R184). -/
def Plane.pst (p : Plane) (w : Nat) (x key : Word) : Plane :=
  match p.next.find? (fun e => e.w == w) with
  | none =>
    let x' := if p.carry = 2 then p.combine (p.carried w) x else x
    { p with next := p.next ++ [{ w := w, x := x', key := key, coll := none }] }
  | some e =>
    let lower := p.rule = 2 ∧ key.toNat < e.key.toNat
    let e' : NextWord := { e with
      x := if p.rule = 2 then (if lower then x else e.x) else if p.rule = 5 then e.x else p.combine e.x x
      key := if lower then key else e.key
      coll := match e.coll with
        | some c => some c
        | none => some (key, x) }
    { p with next := p.next.map fun y => if y.w = w then e' else y }

/-- What PQRY shows of a word: the next value, and C and W (R186). -/
def Plane.query (p : Plane) (w : Nat) : Word × Word :=
  match p.next.find? (fun e => e.w == w) with
  | none => (p.carried w, 0)
  | some e => (e.x, if e.coll.isSome then 3 else 1)

/-- A completed swap (R185, R245): the next values become present, W and C return to 0, and the step count
rises. -/
def Plane.swap (p : Plane) : Plane :=
  let kept := if p.carry = 1 then [] else p.present.filter (fun e => !p.next.any (fun n => n.w == e.1))
  { p with
    present := kept ++ (p.next.map (fun n => (n.w, n.x))).filter (fun e => e.2 ≠ 0)
    next := [], steps := p.steps + 1 }

/-- A cancelled swap clears every C and keeps X and W (R185). -/
def Plane.cancel (p : Plane) : Plane := { p with next := p.next.map fun n => { n with coll := none } }

/-- A team's plane region of an id. -/
def Team.plane? (t : Team) (id : Nat) : Option Plane := t.planes.find? (fun p => p.id == id)
def Team.putPlane (t : Team) (p : Plane) : Team := { t with planes := putKey Plane.id p t.planes }

/-- A group's rank in a step group, in ascending GRP order (R184). -/
def Plane.rank (p : Plane) (grp : Nat) : Nat := ((List.range grp).filter (fun i => p.members.testBit i)).length

/-- One PERFORM of a store (R224): a memory store widens its reach, a plane write updates the next plane. -/
def State.performOne (s : State) (x : Store) : State :=
  match x.tgt with
  | .mem loc => s.performMem x loc
  | .plane tid r w lane order =>
    let s := { s.dropStore x.sid with opStep := s.opStep + 1 }
    match s.team? tid with
    | none => s
    | some t => match t.plane? r with
      | none => s
      | some p =>
        let member := match s.group? x.gid with
          | some g => p.rank g.grp
          | none => 0
        s.putTeam (t.putPlane (p.pst w (BitVec.ofNat 32 (leNat x.data)) (planeKey member lane order)))

/-- A store performed again and again until it has a reach, as far as its PERFORM may be taken, at most k times. -/
def State.performTo (s : State) (sid need : Nat) : Nat → State
  | 0 => s
  | k + 1 =>
    match s.stores.find? (fun x => x.sid == sid) with
    | none => s
    | some x => if need ≤ x.reach.num ∨ s.mayPerform x = false then s else (s.performOne x).performTo sid need k

/-- An atomic operation on a word (Table A.58). -/
def atomNew (op : Nat) (m x y : Word) : Word :=
  match op with
  | 0 => m + x
  | 1 => if m.toInt ≤ x.toInt then m else x
  | 2 => if m.toInt ≤ x.toInt then x else m
  | 3 => if m.toNat ≤ x.toNat then m else x
  | 4 => if m.toNat ≤ x.toNat then x else m
  | 5 => m &&& x
  | 6 => m ||| x
  | 7 => m ^^^ x
  | 8 => x
  | 9 => if m = x then y else m
  | 10 => f32AddRne m x
  | 11 => f32Max m x
  | _ => f32Min m x

/-- A write to a register, as a returned access makes it. -/
def wordTo (scalar : Bool) (reg lane : Nat) (x : Word) : Landing :=
  { scalar := scalar, reg := reg, lanes := if scalar then 0 else BitVec.ofNat 32 (2 ^ lane),
    value := if scalar then [x] else vmk fun _ => x, due := 0 }

/-- A lane of an access that is over: its register writes join the access's results. -/
def Access.finish (a : Access) (l : Nat) (poisoned : Bool) (ws : List Landing) : Access :=
  { a with
    lanes := a.lanes.map fun y => if y.lane = l then { y with finished := true, poisoned := poisoned } else y
    results := a.results ++ ws }

/-- The new word of an ATOMIC written at home (R224): its store has reach SYSTEM, or DEVICE where the host can see the
page, and then goes on to SYSTEM in a PERFORM of its own. -/
def State.atomicStore (s : State) (g : Group) (a : Access) (l : LaneReq) (new : Word) : State :=
  let see := decide (l.loc.sp = .dev) && s.hostSees l.loc
  let (id, s) := s.newId
  let s := s.storeHome l.loc (leBytes 4 new.toNat) id (!see) false g.ctx
  if see then
    { s with stores := s.stores ++
        [{ sid := id, gid := g.gid, ctx := g.ctx, acc := a.id, lane := l.lane, tgt := .mem l.loc,
           data := leBytes 4 new.toNat, reach := .device, rel := none, cluster := g.core / 4, die := g.die, epoch := a.epoch,
           passC := 0, passD := 0 }] }
  else s

/-- One ATOMIC step of a lane (R234): the word is read, computed and written at home as one step, and the lane
receives the old word.  On a poisoned granule memory and the register stay (R132). -/
def State.atomicLane (s : State) (g : Group) (a : Access) (l : LaneReq) : State :=
  -- the word's line leaves the issuing core's L1 (R128)
  let s : State := { s with
    opStep := s.opStep + 1
    l1 := s.l1.filter fun b => !(b.core == coreOf g.die g.core && overlap b.loc 16 l.loc 4) }
  if s.anyPoison l.loc 4 then s.putGroup (g.putAcc (a.finish l.lane true []))
  else
    let m := s.wordAt l.loc
    let op := if a.kind = .spataddF then 10 else a.op
    let s := if op = 9 ∧ m ≠ l.x then s else s.atomicStore g a l (atomNew op m l.x l.y)
    let g := (s.group? g.gid).getD g
    let scalar := a.kind == .satadd || a.kind == .satcas
    let g := g.putAcc (a.finish l.lane false [wordTo scalar a.dst l.lane m])
    let last := match (s.coAt l.loc).getLast? with
      | some e => e.1
      | none => 0
    s.putGroup (s.raiseAll g l.loc ((List.range 4).map fun _ => (last, 0)))

/-- Whether the ATOMIC of a lane may be taken (R227, R228, R233): the group's earlier stores to the word are home, its
earlier reads and atomics of it have been taken, and so have the lanes below it on the same word (R139). -/
def State.mayAtomic (s : State) (g : Group) (a : Access) (l : LaneReq) : Bool :=
  !l.finished && !s.laneAway g.ctx l
  && s.stores.all (fun x => !(x.gid == g.gid && decide (x.acc < a.id) && (match x.tgt with
      | .mem p => overlap p x.data.length l.loc 4 && decide (x.reach.num < 3)
      | _ => false)))
  && !g.accessBefore a.id l.loc 4
  && a.lanes.all (fun y => !(decide (y.lane < l.lane) && !y.finished && decide (y.loc = l.loc)))
  && s.joinClear g.gid a.epoch

/-- Whether the word of an atomic ends the context: an uncorrectable error under the policy END (R132, R365).
(Log entry 133 DEDUCED.) -/
def State.atomicEnds (s : State) (g : Group) (l : LaneReq) : Bool :=
  s.anyPoison l.loc 4 && !s.poisonPolicy g.ctx l.va l.loc

/-- The atomic `id` of a group taken lane by lane, as far as its ATOMIC steps may be: the group's earlier stores to its
words go home first (R227).  A lane whose word ends the context is left to a step of its own.
(Log entry 133 DEDUCED.) -/
def State.takeAtomic (s : State) (id : Nat) : State :=
  match s.access? id with
  | none => s
  | some (_, a) =>
    s.each (a.lanes.filter (fun l => !l.finished)) fun s l =>
      let s := s.each (s.stores.filter fun x => x.gid == a.gid && decide (x.acc < id) && (match x.tgt with
          | .mem p => overlap p x.data.length l.loc 4
          | .plane .. => false)) fun s x => s.performTo x.sid 3 4
      match s.access? id with
      | some (g, a) => if s.mayAtomic g a l && !s.atomicEnds g l then s.atomicLane g a l else s
      | none => s

/-- Identities in rising order. -/
def insertId (n : Nat) : List Nat → List Nat
  | [] => [n]
  | m :: r => if n ≤ m then n :: m :: r else m :: insertId n r
def sortIds (l : List Nat) : List Nat := l.foldr insertId []

/-- The identities of a group's atomics, and of its stores of a kind, before one, in issue order. -/
def State.writesBefore (s : State) (keep : Store → Bool) (gid upTo : Nat) : List Nat :=
  let st := (s.stores.filter fun x => x.gid == gid && decide (x.acc < upTo) && keep x).map Store.sid
  let at_ := match s.group? gid with
    | some g => (g.acc.filter fun a => decide (a.id < upTo) && a.pendingAtomic).map Access.id
    | none => []
  sortIds (st ++ at_)

/-- Some stores performed at a scope, as far as their steps may be taken. -/
def State.performAll (s : State) (scope : Nat) (xs : List Store) : State :=
  s.each xs fun s x => s.performTo x.sid (x.reachAt scope) 4

/-- A release at a scope (R230) over a group's atomics and its stores of a kind: those that it issued before an identity
are performed there, in issue order, as far as their own steps may be taken. (Log entry 23 DESIGN CHOICE.) -/
def State.releaseWhere (s : State) (keep : Store → Bool) (gid upTo scope : Nat) : State :=
  (s.each (s.writesBefore keep gid upTo) fun s id =>
    let s := (s.performAll scope (s.stores.filter fun x => x.sid == id)).takeAtomic id
    s.performAll scope (s.stores.filter fun x => x.acc == id)).retire gid

/-- A release over the stores, atomics, scratchpad writes and plane writes of a group (R230). -/
def State.release (s : State) (gid upTo scope : Nat) : State := s.releaseWhere (fun _ => true) gid upTo scope

end Sys2Proof.Machine
end

