-- ==== Sys2Proof/Machine/Ending.lean ====
section
/-!
DEFINITION. Releasing what a team holds (R203, R37), and the end of a context (R319, R320).
-/

namespace Sys2Proof.Machine

/-- The cells of a memory outside a range: the range then reads as zeros. -/
def cellsZero (m : List Host.Cell) (a n : Nat) : List Host.Cell :=
  m.filter fun c => !(decide (a ≤ c.1) && decide (c.1 < a + n))

/-- A device frame zeroed (R298, R301), with the poison of its granules.  Its locations begin anew: no earlier store of
theirs and no L1 line of them is left. (Log entry 78 DESIGN CHOICE.) -/
def State.zeroFrame (s : State) (a n : Nat) : State :=
  let inside := fun (p : PAddr) => p.sp == .dev && decide (a ≤ p.a) && decide (p.a < a + n)
  { s with dev := cellsZero s.dev a n,
           devPoison := s.devPoison.filter (fun g => !(decide (a ≤ g) && decide (g < a + n))),
           co := s.co.filter (fun e => !inside e.loc),
           l1 := s.l1.filter (fun b => !inside b.loc) }

/-- A frame released: zeroed, and its owner tag cleared (R363). -/
def State.freeFrame (s : State) (a n : Nat) : State :=
  let s := s.zeroFrame a n
  { s with frames := s.frames.filter (fun f => f.1 ≠ a), tags := s.tags.filter (fun t => t.1 ≠ a) }

/-- The lowest free run of n bytes at a multiple of n from `lo`, below `hi`. -/
def State.findFrame (s : State) (lo hi n : Nat) : Nat → Option Nat
  | 0 => none
  | k + 1 =>
    if hi < lo + n then none
    else match s.frames.find? (fun f => decide (f.1 < lo + n) && decide (lo < f.1 + f.2)) with
      | none => some lo
      | some f => State.findFrame s ((f.1 + f.2 + n - 1) / n * n) hi n k

/-- A frame of near (0) or far (1) memory allocated, zeroed and tagged with its owner (R301, R363).
(Log entry 65 DESIGN CHOICE.) -/
def State.allocFrame (s : State) (far : Nat) (n ctx : Nat) : Option (Nat × State) :=
  let lo := if far = 1 then farBase else 0
  let hi := if far = 1 then farBase + s.dieCount * farShare else s.dieCount * nearSize
  match s.findFrame lo hi n (s.frames.length + 1) with
  | none => none
  | some a =>
    let s := s.zeroFrame a n
    some (a, { s with frames := s.frames ++ [(a, n)], tags := s.tags ++ [(a, n, ctx)] })

/-- A private block released (R299). -/
def State.freeBlock (s : State) (ctx blk : Nat) : State :=
  match s.ctx? ctx with
  | none => s
  | some c => s.putCtx { c with blocks := c.blocks.filter (· ≠ blk) }

/-- Every private block of a team's groups released. -/
def State.freeBlocks (s : State) (tid : Nat) : State :=
  s.each (s.groups.filter (fun g => g.tid == tid)) fun s g => s.freeBlock g.ctx g.priv

/-- A team's tentative pops undone (R37): the entries return to the head of their queues in their original
order. -/
def Queue.undo (q : Queue) (tid : Nat) : Queue :=
  let back := (q.tents.filter (fun t => t.tid == tid)).map Tentative.entry
  { q with entries := back ++ q.entries, tents := q.tents.filter (fun t => t.tid ≠ tid) }

/-- The team's pops waiting in queues withdrawn. -/
def State.withdrawPops (s : State) (tid : Nat) : State :=
  let ids := (s.groups.filter (fun g => g.tid == tid)).flatMap (fun g => g.acc.map Access.id)
  { s with queues := s.queues.map fun q => { q with pops := q.pops.filter (fun p => !ids.contains p) } }

/-! ### The lease of a matrix engine (R217) -/

/-- The quantum of a context's leases (R217): 256 × (LEASEQ + 1) MMAs (Table C.12). -/
def State.quantum (s : State) (ctx : Nat) : Nat :=
  match s.ctx? ctx with
  | some c => 256 * (c.leaseq + 1)
  | none => 4096

/-- Whether a waiting team comes before another (R217): three leases seen to pass, then launch priority, then the
longer wait. -/
def leaseBefore (a b : Stream) : Bool :=
  let ha := decide (3 ≤ a.passed)
  let hb := decide (3 ≤ b.passed)
  if ha != hb then ha
  else if a.prio != b.prio then decide (b.prio < a.prio)
  else decide (a.waiting.getD 0 < b.waiting.getD 0)

/-- The waiting teams of a core's engine, with their streams. -/
def State.leaseQueue (s : State) (core : Nat) (but : Option Nat) : List (Nat × Stream) :=
  s.teams.filterMap fun t => if t.home == core && some t.tid != but && t.state != .saved then
    (match t.stream with
     | some m => if m.waiting.isSome && !m.ended && m.stopped.isNone then some (t.tid, m) else none
     | none => none)
  else none

/-- The waiting teams of a core's engine see a lease pass to another team. -/
def State.countPass (s : State) (core tid : Nat) : State :=
  { s with teams := s.teams.map fun t =>
    if t.home == core && t.tid != tid then
      { t with stream := t.stream.map fun m => if m.waiting.isSome then { m with passed := m.passed + 1 } else m }
    else t }

/-- The lease of a core's engine passes from its holder to the waiting team that the three keys choose (R217); with none
waiting it is free. -/
def State.passLease (s : State) (core : Nat) : State :=
  let c := s.core core
  match s.leaseQueue core c.lease.holder with
  | [] => s.putCore { c with lease := { c.lease with holder := none } }
  | x :: r =>
    let w := r.foldl (fun (m y : Nat × Stream) => if leaseBefore y.2 m.2 then y else m) x
    let from_ := match c.lease.lastMma with
      | some l => l + 32
      | none => s.clk
    let q := match s.team? w.1 with
      | some t => s.quantum t.ctx
      | none => 4096
    let s := s.putCore { c with lease :=
      { holder := some w.1, issued := 0, began := s.clk, quantum := q, lastMma := c.lease.lastMma, notBefore := from_ } }
    s.countPass core w.1

/-- A lease that a team holds given up (R217). -/
def State.dropLease (s : State) (tid : Nat) : State :=
  s.each (s.cores.filter fun c => c.lease.holder == some tid) fun s c => s.passLease c.core

/-- A team gone: its groups, its place on the core and its stores' issuers; its private blocks are released. -/
def State.dropTeam (s : State) (tid : Nat) : State :=
  let s := ((s.withdrawPops tid).freeBlocks tid).dropLease tid
  { s with groups := s.groups.filter (fun g => g.tid ≠ tid), teams := s.teams.filter (fun t => t.tid ≠ tid),
           jobs := s.jobs.filter (fun j => j.tid ≠ tid),
           stores := s.stores.filter (fun x => match x.tgt with
             | .plane t .. => t != tid
             | .mem _ => true) }

/-- The stores of a team's groups performed at DEVICE at once (R240), in issue order; one that the host can see goes on
to SYSTEM in a later step. -/
def State.landStores (s : State) (tid : Nat) : State :=
  let gs := (s.groups.filter (fun g => g.tid == tid)).map Group.gid
  let mine := s.stores.filter (fun x => gs.contains x.gid)
  s.each mine fun s x =>
    match x.tgt with
    | .mem loc =>
      if x.reach = .device then s
      else
        let s := if x.reach = .none then
            (match s.group? x.gid with
             | some g => s.l1Store (coreOf g.die g.core) loc x.data x.sid
             | none => s)
          else s
        s.goHome x loc
    | .plane .. => s

/-- What a stopped team still has in flight (R314): its reads return to nobody, and its stores and atomics are performed in
issue order. -/
def State.drainTeam (s : State) (tid : Nat) : State :=
  let gs := (s.groups.filter (fun g => g.tid == tid)).map Group.gid
  let s : State := { s with groups := s.groups.map fun g =>
    if g.tid = tid then { g with acc := g.acc.filter Access.pendingAtomic } else g }
  s.each gs fun s g => s.release g s.nextId 3

/-- An uncommitted team discarded (R37, R317), or any team at the end of its context (R320). -/
def State.discardTeam (s : State) (tid : Nat) : State :=
  let s := s.landStores tid
  let s : State := { s with queues := s.queues.map (fun q => q.undo tid) }
  s.dropTeam tid

/-- The jobs of a team at the end of its context (R320): started jobs end FAILED, the others DISCARDED. -/
def State.failJobs (s : State) (tid : Nat) : State :=
  s.each (s.jobs.filter (fun j => j.tid == tid && j.state != .ended)) fun s j =>
    if j.state = .running then s.finishJob { j with failed := true } 4 else s.discardJob j

/-- Where record n of a queue's spill ring lies (R334). (Log entry 49 DESIGN CHOICE.) -/
def Queue.spillVa (q : Queue) (n : Nat) : Nat := q.ring + 16 * (n % max q.spill 1)

/-- Whether one of n records from a number on lies on a page that moves, so that the unit's access to it waits (R311).
(Log entry 19 DEDUCED.) -/
def State.ringMoves (s : State) (q : Queue) (from_ n : Nat) : Bool :=
  (List.range n).any fun k => s.movingIn q.ctx (q.spillVa (from_ + k)) 16

/-- The oldest spilled token moves back on chip (R334); the words of a record that cannot be read are free values.
(Log entry 49 DESIGN CHOICE.) -/
def State.unspillOne (s : State) (q : Queue) : Queue × State :=
  match q.spilled with
  | [] => (q, s)
  | x :: r =>
    let w := match s.readVa q.ctx (q.spillVa q.ringHead) 16 with
      | .ok b => ((List.range 4).map fun k => BitVec.ofNat 32 (w32 b (4 * k)), s)
      | .error _ =>
        let (u, s) := s.free
        let (v, s) := s.free
        ([u.extractLsb' 0 32, u.extractLsb' 32 32, v.extractLsb' 0 32, v.extractLsb' 32 32], s)
    ({ q with entries := q.entries ++ [{ id := x.1, regs := [], words := w.1, at_ := x.2 }], ringHead := q.ringHead + 1,
              spilled := r }, w.2)

/-- Up to n spilled tokens moved back. -/
def State.unspill (s : State) (q : Queue) : Nat → Queue × State
  | 0 => (q, s)
  | n + 1 => let x := s.unspillOne q; x.2.unspill x.1 n

/-- Spilled tokens moved back while there is room on chip (R334). -/
def State.refill (s : State) (q : Queue) : Queue × State := s.unspill q (min q.spilled.length (q.cap - q.entries.length))

/-- A failed token returned to a reorder unit (R335, R337). -/
def Queue.failToken (q : Queue) (seq pos : Nat) : Queue :=
  match q.rtoks.find? (fun t => t.seq == seq && t.pos == pos) with
  | some _ => { q with rtoks := q.rtoks.map fun t => if t.seq = seq ∧ t.pos = pos then { t with failed := true } else t }
  | none => { q with rtoks := q.rtoks ++ [{ seq := seq, pos := pos, k := 0, got := [], failed := true }] }

/-- What a queue still holds at the end of its context, by its delete policy (R278, R335): under DROP an EXPERT queue's
tokens, with those of its firings (R331), go to its reorder queue as failed tokens; every other entry and pending token is
counted in DROPPED. (Log entries 13 DEDUCED, 139 DEDUCED.) -/
def State.endQueue (s : State) (slot : Nat) : State :=
  match s.queue? slot with
  | none => s
  | some q =>
    let toR := q.kind = .expert ∧ q.drop = true
    let (q, s) := s.unspill q q.spilled.length
    let toks := q.entries.map QEntry.words ++ (s.batches.filter fun b => b.queue == q.slot).flatMap Batch.all
    let s := if toR then
        match s.queues.find? (fun r => r.handle == q.rdom && r.kind == .reorder) with
        | some r => s.putQueue (toks.foldl (fun r w => r.failToken (nth w 0 0).toNat (nth w 1 0).toNat) r)
        | none => s
      else s
    let r := s.record q.slot
    let s := s.putRecord { r with
      dropped := r.dropped + (if toR then 0 else toks.length) + q.rtoks.length + q.rfails.length }
    s.putQueue { q with entries := [], rtoks := [], rseqs := [], rfails := [], closed := true, pops := [] }

/-- A context ends with a code (R319, R320): its teams are discarded, its jobs and records fail item by item, and
its resources are released.  Other contexts are untouched. -/
def State.endContext (s : State) (ctx code pc : Nat) : State :=
  match s.ctx? ctx with
  | none => s
  | some c =>
    if c.live = false then s else
    let ts := (s.teams.filter (fun t => t.ctx == ctx)).map Team.tid
    let s := s.putCtx { c with live := false, endCode := code, endPc := pc, keys := [], ftReqs := [], blocks := [],
                               absentSince := none }
    let s := s.each ts State.drainTeam
    let s := s.each ts State.failJobs
    let s := s.each ts State.discardTeam
    let s : State := { s with
                      launches := s.launches.filter (fun l => l.ctx ≠ ctx),
                      chains := s.chains.filter (fun ch =>
                        (s.launches.find? (fun l => l.lid == ch.launch && l.ctx == ctx)).isNone) }
    let own := s.queues.filter fun q => q.ctx == ctx
    let s := s.each ((own.filter (·.kind != .reorder) ++ own.filter (·.kind == .reorder)).map Queue.slot) State.endQueue
    let s : State := { s with
                      batches := s.batches.filter (fun b => !own.any fun q => q.slot == b.queue),
                      queues := s.queues.filter (fun q => q.ctx ≠ ctx),
                      faults := s.faults.filter (fun f => f.ctx ≠ ctx),
                      images := s.images.filter (fun i => i.ctx ≠ ctx) }
    let s := s.each (s.recs.filter (fun r => r.live && r.ctx == ctx && r.kind != 1)) fun s r =>
      s.enter r.slot (fun r =>
        { r with
          phase := .failed, fault := 0x27, waiting := false, starting := false, handle := 0,
          die := none, versionConverged := false })
    let own := (s.tags.filter fun t => t.2.2 == ctx).map (fun t => (t.1, t.2.1)) ++ c.areas
    let s : State := { s with
                      pages := s.pages.filter (fun p => p.ctx ≠ ctx), migReqs := s.migReqs.filter (fun r => r.ctx ≠ ctx),
                      holds := s.holds.filter (fun h => h.ctx ≠ ctx), moves := s.moves.filter (fun m => m.ctx ≠ ctx),
                      shoots := s.shoots.filter (fun x => x.ctx ≠ ctx) }
    let s := s.each own fun s f => s.freeFrame f.1 f.2
    if code = 0x25 then s
    else s.failRecord c.slot code

end Sys2Proof.Machine
end

