-- ==== Sys2Proof/Machine/Ops.lean ====
section
/-!
DEFINITION. The named operations over a group's registers, the checks every instruction makes in the order of R18,
the end of an instruction (R93), fetching (R43), taking an exception (R59, R106) and returning from one (R107).
-/

namespace Sys2Proof.Machine

/-- What one step answers. -/
abbrev Answer := Host.Outcome State Fault Refusal

/-! ### Accesses in flight and registers -/

/-- Vector registers an access in flight will write (R34). -/
def Access.vDsts (a : Access) : List Nat :=
  match a.kind with
  | .ld => (List.range ((a.width + 3) / 4)).map (a.dst + ·)
  | .spld => (List.range ((a.width + 3) / 4)).map (a.dst + ·)
  | .atom => [a.dst]
  | .spatadd => [a.dst]
  | .spataddF => [a.dst]
  | .tag => if a.op = 1 then [] else [a.dst]
  | .pld => [a.dst]
  | .qget => (List.range a.width).map (a.dst + ·)
  | .qtry => (List.range a.width).map (a.dst + ·)
  | .qtryp => (List.range a.width).map (a.dst + ·)
  | _ => []

/-- Scalar registers an access in flight will write. -/
def Access.sDsts (a : Access) : List Nat :=
  match a.kind with
  | .sld => [a.dst]
  | .sld64 => [a.dst, a.dst + 1]
  | .satadd => [a.dst]
  | .satcas => [a.dst]
  | .spollne => [a.dst]
  | .sldacq => [a.dst]
  | .qtry => [a.dst2]
  | .qtryp => [a.dst2]
  | _ => []

/-- Whether a register still awaits a write (R49, R50). -/
def Group.busyV (g : Group) (r : Nat) : Bool :=
  g.landing.any (fun w => !w.scalar && w.reg == r) || g.acc.any (fun a => a.vDsts.contains r)
def Group.busyS (g : Group) (r : Nat) : Bool :=
  r != 0 && (g.landing.any (fun w => w.scalar && w.reg == r) || g.acc.any (fun a => a.sDsts.contains r))

/-! ### The checks of R18 -/

/-- The registers an instruction names (for the budget of R17 and the FOLD limit of R257), reads, and writes. -/
structure Uses where
  vN : List Nat
  sN : List Nat
  vR : List Nat
  sR : List Nat
  deriving DecidableEq, Repr

/-- Steps 2 and 3 (first check) of R18: the register budget, the scalar registers of a foldable chain's stage, and
STALL_SHORT when SCHK is on. -/
def Group.common (g : Group) (u : Uses) : Option Nat :=
  if u.vN.any (fun r => decide (g.v.length ≤ r)) then some cIllegalRegister
  else if g.fold && u.sN.any (fun r => decide (15 < r)) then some cIllegalRegister
  else if g.schk && (u.vR.any g.busyV || u.sR.any g.busyS) then some cStallShort
  else none

/-! ### The end of an instruction -/

/-- The end check of R93 at address a, on the loop stack with its top first; `next` is where the program counter
goes when no loop takes it. -/
def endCheck : List LoopEntry → Word → Word → List LoopEntry × Word
  | [], _, next => ([], next)
  | e :: r, a, next =>
    if e.stop = a then
      if e.count - 1 ≠ 0 then ({ e with count := e.count - 1 } :: r, e.start) else endCheck r a next
    else (e :: r, next)

/-- An instruction issued at a clk with stall count sc: the group's next one issues at clk + 4 × (1 + SC) or later
(R47), and the group is no longer urgent (R206). -/
def Group.stamp (g : Group) (clk sc : Nat) : Group :=
  { g with readyAt := clk + 4 * (1 + sc), lastIssue := some clk, readyFor := 0, maxN := 0, urgent := false, tried := none }

/-- An instruction of len bytes completes without a taken transfer (R93).  A re-issued instruction then gives back
the exec it was re-issued under (R107). -/
def Group.advance (g : Group) (len : Nat) : Group :=
  { g with
    pc := (endCheck g.loops g.pc (g.pc + BitVec.ofNat 32 len)).2
    loops := (endCheck g.loops g.pc (g.pc + BitVec.ofNat 32 len)).1
    exec := g.reissue.getD g.exec
    reissue := none
    wait := .none }

/-- The loop entries that a taken BR, JMPR or RET to a target leaves (R94). -/
def popLoops (t : Word) : List LoopEntry → List LoopEntry
  | [] => []
  | e :: r => if e.start.toNat ≤ t.toNat ∧ t.toNat ≤ e.stop.toNat then e :: r else popLoops t r

/-- A taken transfer restores the BACKOFF lowering when its target lies past the anchor (R100). -/
def Group.restore (g : Group) (t : Word) : Group :=
  match g.anchor with
  | none => g
  | some a => if a.toNat < t.toNat then { g with lower := 0 } else g

/-- The program counter after a taken transfer of len bytes: its target, or, where ERET re-issued the transfer, the
instruction after it, with the exec it was re-issued under (R107). -/
def Group.goto (g : Group) (len : Nat) (t : Word) : Group :=
  if g.reissue.isSome then g.advance len else { g with pc := t, wait := .none }

/-- A group made to issue its instruction again a beat later. (Log entries 19 DEDUCED, 87 DESIGN CHOICE.) -/
def State.again (s : State) (g : Group) : State := s.putGroup { g with readyAt := s.clk + 4 }

/-! ### Fetching -/

/-- Whether the group runs its supervisor handler. -/
def Group.inHandler (g : Group) : Bool := g.handler.isSome

/-- The code base of a group and its limit: the image's, or HANDLER without a limit (R43). -/
def State.codeOf (s : State) (g : Group) : Nat × Option Nat :=
  if g.inHandler then (match s.ctx? g.ctx with
    | some c => (c.handler, none)
    | none => (0, none))
  else (g.codeBase, some g.codeSize)

/-- No cause: the fetch waits for the move of a page (R311). -/
abbrev cMoving : Nat := 0

/-- The parcel at a program counter, or the cause of a fetch that faults (R43, R44). -/
def State.parcel (s : State) (ctx base : Nat) (limit : Option Nat) (pc : Word) : Except Nat (List Byte) :=
  if (match limit with
      | some n => decide (n ≤ pc.toNat)
      | none => false) then .error cProtection
  else match s.translate ctx (base + pc.toNat) with
    | .ok loc perm _ =>
      if limit = none ∧ perm.getLsbD 0 = false then .error cProtection
      else .ok (s.bytesAt loc 2)
    | .moving => .error cMoving
    | .fail c => .error c

/-- The bytes of the instruction at a program counter: one parcel, two, or those of an EXT pair (R56).
(Log entry 99 DEDUCED.) -/
def State.fetchBytes (s : State) (ctx base : Nat) (limit : Option Nat) (pc : Word) : Except Nat (List Byte) :=
  match s.parcel ctx base limit pc with
  | .error c => .error c
  | .ok p0 =>
    if leNat p0 % 2 = 0 then .ok p0
    else match s.parcel ctx base limit (pc + 2) with
      | .error c => .error c
      | .ok p1 =>
        if fld (leNat p0) 3 5 = 0x1E ∧ fld (leNat p0) 1 2 = 0 then
          match s.parcel ctx base limit (pc + 4) with
          | .error c => .error c
          | .ok p2 =>
            if leNat p2 % 2 = 0 then .ok (p0 ++ p1 ++ p2)
            else match s.parcel ctx base limit (pc + 6) with
              | .error c => .error c
              | .ok p3 => .ok (p0 ++ p1 ++ p2 ++ p3)
        else .ok (p0 ++ p1)

/-- The bytes of a group's instruction at an address. -/
def State.groupBytes (s : State) (g : Group) (pc : Word) : Except Nat (List Byte) :=
  s.fetchBytes g.ctx (s.codeOf g).1 (s.codeOf g).2 pc

/-! ### Taking an exception -/

/-- Address of a group's block of the fault-record area (R304). -/
def State.faultBlock (s : State) (g : Group) : Nat :=
  match s.ctx? g.ctx with
  | some c => c.frarea + 1024 * ((g.die * 40 + g.core) * 128 + g.slot)
  | none => 0

/-- Table C.15: a lane's fault record. -/
def LaneFail.bytes (f : LaneFail) (pc : Word) : List Byte :=
  leBytes 8 f.va ++ leBytes 1 f.cause ++ leBytes 1 f.access ++ leBytes 1 f.width
    ++ leBytes 1 ((if f.firstTouch then 1 else 0) + (if f.parkable then 2 else 0)) ++ leBytes 4 f.mapId
    ++ leBytes 4 pc.toNat ++ List.replicate 12 0

/-- The fault records of the failing lanes written to the group's block. -/
def State.writeFails (s : State) (g : Group) (pc : Word) (fails : List LaneFail) : State :=
  s.each fails fun s f => (s.writeVa g.ctx (s.faultBlock g + 32 * f.lane) (f.bytes pc)).1

/-- The mask of the failing lanes. -/
def failMask (fails : List LaneFail) : Word := fails.foldl (fun m f => m ||| BitVec.ofNat 32 (2 ^ f.lane)) 0

/-- The first of the causes of step 4 in R61's order among failing lanes. -/
def failCause (fails : List LaneFail) : Nat :=
  if fails.any (fun f => f.cause == cPageFault) then cPageFault
  else if fails.any (fun f => f.cause == cHostAbsent) then cHostAbsent
  else if fails.any (fun f => f.cause == cProtection) then cProtection
  else if fails.any (fun f => f.cause == cMisaligned) then cMisaligned
  else cPoison

/-- The clk from which a group that has trapped issues: the stall count of the instruction that trapped has no effect
(R47). -/
def Group.unstalled (g : Group) : Nat :=
  match g.lastIssue with
  | some t => t + 4
  | none => g.readyAt

/-- Trap entry (R59, R106).  Every pending fixed-latency write lands first (R51); the supervisor registers are
set; the group's state is saved and the group enters its context's handler at offset 0.  A trap inside a handler
ends the context with HANDLER_TRAP, and one in a context without a handler with NO_HANDLER (R305). -/
def State.trapEntry (s : State) (g : Group) (code : Nat) (info : Word) (epc emask : Word) (frec : Nat)
    (perLane : Bool) : State :=
  if g.inHandler then (s.putGroup g.settle).endContext g.ctx 0x21 epc.toNat
  else match s.ctx? g.ctx with
    | none => s.putGroup g.settle
    | some c =>
      if c.handler = 0 then (s.putGroup g.settle).endContext g.ctx 0x20 epc.toNat
      else s.putGroup { g.settle with
        epc := epc, ecause := BitVec.ofNat 32 code ||| (info <<< 8), emask := emask, frec := frec,
        handler := some { exec := g.reissue.getD g.exec, fmt := g.fmt, path := g.path, loops := g.loops, u := g.u,
                          depth := g.depth, super := g.super, code := code, perLane := perLane },
        exec := emask, super := true, path := [], loops := [], u := 0, depth := 0, pc := 0,
        reissue := none, wait := .none, park := none, readyAt := g.unstalled }

/-- A trap of the instruction being issued, for a cause not raised per lane (R59): EPC is the instruction, EMASK
its exec, FREC 0; its SC has no effect (R47). -/
def State.trap (s : State) (g : Group) (code : Nat) : State :=
  s.trapEntry (g.stamp s.clk 0) code 0 g.pc g.exec 0 false

/-- TRAP and BRK (R105): the end check comes first (R95), and EPC is the address it selects. -/
def State.trapCode (s : State) (g : Group) (len code : Nat) (info : Word) : State :=
  let g' := (g.stamp s.clk 0).advance len
  s.trapEntry g' code info g'.pc g.exec 0 false

/-- Parking (R303): outside a handler the supervisor registers are set and the records written; inside one they are
left as they are.  The group then issues nothing. -/
def State.parkGroup (s : State) (g : Group) (fails : List LaneFail) : State :=
  let p : Park := { pc := g.pc, lanes := failMask fails, fails := fails, posted := false, since := s.clk }
  if g.inHandler then s.putGroup { g.settle with park := some p, wait := .none }
  else
    let s := s.writeFails g g.pc fails
    s.putGroup { g.settle with
      epc := g.pc, ecause := BitVec.ofNat 32 (failCause fails), emask := failMask fails, frec := s.faultBlock g,
      park := some p, wait := .none }

/-- The end of a check phase with failing lanes (R131, R303): the group parks when every failing lane does, and
otherwise traps with its per-lane records. -/
def State.failLanes (s : State) (g : Group) (fails : List LaneFail) : State :=
  if fails.all LaneFail.parkable then s.parkGroup g fails
  else
    let s := s.writeFails g g.pc fails
    s.trapEntry g (failCause fails) 0 g.pc (failMask fails) (s.faultBlock g) true

/-- Length of the instruction at an address, as far as it can be fetched. (Log entry 121 DEDUCED.) -/
def State.lenAt (s : State) (g : Group) (pc : Word) : Except Nat Nat :=
  match s.groupBytes g pc with
  | .error c => .error c
  | .ok bs => .ok (if bs.length = 6 then 8 else bs.length)

/-- Whether that length waits for the move of a page (R311). (Log entry 99 DEDUCED.) -/
def State.lenWaits (s : State) (g : Group) (pc : Word) : Bool :=
  match s.lenAt g pc with
  | .error c => c == cMoving
  | .ok _ => false

/-- Whether a return with EMASK = 0 after a cause raised per lane waits for that length. (Log entry 99 DEDUCED.) -/
def State.eretWaits (s : State) (g : Group) (v : SavedCtx) : Bool :=
  v.perLane && g.emask == 0 && s.lenWaits { g with handler := none } g.epc

/-- The return from an exception (R107): the saved state is restored; after a cause raised per lane the instruction
at EPC is issued again under EMASK, or, with EMASK = 0, counts as complete; after any other cause the group goes
on at EPC. (Log entries 124 DEDUCED, 141 DESIGN CHOICE.) -/
def State.eret (s : State) (g : Group) (v : SavedCtx) : State :=
  let g : Group := { g.settle with
    fmt := v.fmt, path := v.path, loops := v.loops, u := v.u, depth := v.depth, super := v.super,
    handler := none, park := none, wait := .none, pc := g.epc }
  if v.perLane then
    if g.emask ≠ 0 then s.putGroup { g with exec := g.emask, reissue := some v.exec }
    else
      let g : Group := { g with exec := v.exec, reissue := none }
      match s.lenAt g g.pc with
      | .ok n => s.putGroup (g.advance n)
      | .error c => s.trapEntry g c 0 g.pc g.exec 0 false
  else s.putGroup { g with exec := v.exec, reissue := none }

/-! ### Issuing -/

/-- The matrix stream that a group meets: its team's, which in a folded chain is the matrix stage's alone, as it is in the
spread form (R259, R268). -/
def State.streamOf (s : State) (g : Group) : Option Stream :=
  match s.team? g.tid with
  | none => none
  | some t => match t.chain.bind s.chain? with
    | none => t.stream
    | some c =>
      if c.folded && (c.mst.bind fun k => c.stages[k]?).map Stage.gid != some g.gid then none else t.stream

/-- A trap raised outside the group's own issue and taken at its next one (R164, R103, R132); a stopped matrix
stream traps every group of its team outside its handler (R193). -/
def State.duePend (s : State) (g : Group) : Option PendTrap :=
  match g.pend with
  | p :: _ => some p
  | [] =>
    if g.inHandler then none
    else match (s.streamOf g).bind Stream.stopped with
      | none => none
      | some _ =>
        let h := match s.groups.find? (fun x => x.tid == g.tid && x.grp == 0) with
          | some x => s.faultBlock x
          | none => s.faultBlock g
        some { code := cMatrixStream, emask := g.exec, frec := h, recs := [], perLane := false }

/-- Such a trap taken: EPC is the instruction about to issue, which has not executed. (Log entry 123 DEDUCED.) -/
def State.takePend (s : State) (g : Group) (p : PendTrap) : State :=
  let g : Group := { (g.stamp s.clk 0) with pend := g.pend.drop 1 }
  if p.recs = [] then s.trapEntry g p.code 0 g.pc p.emask p.frec p.perLane
  else
    let s := s.each p.recs fun s r => (s.writeVa g.ctx (s.faultBlock g + 32 * r.1) r.2).1
    s.trapEntry g p.code 0 g.pc p.emask (s.faultBlock g) p.perLane

/-- Table A.78: the stream fault record, with the tile the word names or 0xFF. -/
def streamRecord (pc : Word) (cause tile word : Nat) : List Byte :=
  leBytes 4 pc.toNat ++ leBytes 1 cause ++ leBytes 1 tile ++ leBytes 2 0 ++ leBytes 4 word

/-- A trap in the matrix stream stops it at the trapping word (R193). -/
def State.stopStream (s : State) (t : Team) (m : Stream) (cause : Nat) (tile word : Nat) : State :=
  let s := s.putTeam { t with stream := some { m with stopped := some cause } }
  match s.groups.find? (fun x => x.tid == t.tid && x.grp == 0) with
  | none => s
  | some g => (s.writeVa g.ctx (s.faultBlock g) (streamRecord m.pc cause tile word)).1

/-- The word at a stream's program counter, as far as it can be fetched, for its fault record. -/
def State.streamWord (s : State) (t : Team) (m : Stream) : Nat :=
  match s.fetchBytes t.ctx t.codeBase (some t.codeSize) m.pc with
  | .ok bs => leNat (bs.take 4)
  | .error _ => 0

/-- The meaning of a group instruction: in a matrix stream its word stops the stream (R55); a pending trap of the
group comes first; otherwise k acts. -/
def withGroup (s : State) (k : Issue → Group → State) : Answer :=
  match s.issue with
  | none => .fault .noIssue
  | some i =>
    match i.who with
    | .group gid =>
      match s.group? gid with
      | none => .fault .noAgent
      | some g =>
        match s.duePend g with
        | some p => .next (s.takePend g p)
        | none => .next (k i g)
    | .stream tid =>
      match s.team? tid with
      | none => .fault .noAgent
      | some t =>
        match t.stream with
        | none => .fault .noAgent
        | some m => .next (s.stopStream t m cMatrixStream 0xFF (s.streamWord t m))

/-- A group instruction with its registers, its further checks (steps 3 of R18) and its effect. -/
def instr (s : State) (u : Uses) (more : Issue → Group → Option Nat) (eff : Issue → Group → State) : Answer :=
  withGroup s fun i g =>
    match g.common u with
    | some c => s.trap g c
    | none =>
      match more i g with
      | some c => s.trap g c
      | none => eff i g

/-- An instruction whose effect is on the group alone and that goes on to the next instruction. -/
def plain (s : State) (u : Uses) (more : Issue → Group → Option Nat) (eff : Issue → Group → Group) : Answer :=
  instr s u more fun i g => s.putGroup (((eff i g).stamp s.clk i.sc).advance i.len)

/-- No further check. -/
def noCheck : Issue → Group → Option Nat := fun _ _ => none

/-- The first cause of a list of checks that fails. -/
def firstCause : List (Bool × Nat) → Option Nat
  | [] => none
  | (b, c) :: r => if b then some c else firstCause r

end Sys2Proof.Machine
end

