-- ==== Sys2Proof/Machine/Operands.lean ====
section
/-!
DEFINITION. Operand forms: the immediates of Table A.23 alone and after EXT, transfer targets (R58), and the
registers that instructions of one shape name, read and write.
-/

namespace Sys2Proof.Machine

/-- The 24 bits of the EXT before the word, and whether there is one. -/
def Issue.x (i : Issue) : Nat := (i.ext.getD 0).toNat

/-! ### Immediates (Table A.23) -/

/-- imm10 of SADDI: sign-extended alone. -/
def Issue.imm10s (i : Issue) (v : BitVec 10) : Word :=
  if i.ext.isSome then BitVec.ofNat 32 (i.x * 2 ^ 10 + v.toNat) else v.signExtend 32

/-- imm10 of SANDI, SORI and SXORI: zero-extended alone. -/
def Issue.imm10z (i : Issue) (v : BitVec 10) : Word :=
  if i.ext.isSome then BitVec.ofNat 32 (i.x * 2 ^ 10 + v.toNat) else v.zeroExtend 32

/-- imm18 of SLUI: x[13:0] fills the low bits. -/
def Issue.imm18 (i : Issue) (v : BitVec 18) : Word := BitVec.ofNat 32 (v.toNat * 2 ^ 14 + i.x % 2 ^ 14)

/-- imm7 of VADDI, VANDI, VORI, VXORI and VMULI: a signed value of 7 bits, or of 31. -/
def Issue.imm7 (i : Issue) (v : BitVec 7) : Word :=
  if i.ext.isSome then (BitVec.ofNat 31 (i.x * 2 ^ 7 + v.toNat)).signExtend 32 else v.signExtend 32

/-- The target of a BR or DBR (R58): off14 halfwords from the instruction's address. -/
def Issue.target14 (i : Issue) (pc : Word) (v : BitVec 14) : Word :=
  pc + BitVec.ofInt 32 (2 * (if i.ext.isSome then (BitVec.ofNat 38 (i.x * 2 ^ 14 + v.toNat)).toInt else v.toInt))

/-- The target of a CALL (R58). -/
def Issue.target24 (i : Issue) (pc : Word) (v : BitVec 24) : Word :=
  pc + BitVec.ofInt 32 (2 * (if i.ext.isSome then (BitVec.ofNat 48 (i.x * 2 ^ 24 + v.toNat)).toInt else v.toInt))

/-- end10 of LOOP in halfwords. -/
def Issue.end10 (i : Issue) (v : BitVec 10) : Word :=
  if i.ext.isSome then BitVec.ofNat 32 (i.x * 2 ^ 10 + v.toNat) else v.zeroExtend 32

/-- imm12 of the scalar memory instructions in words, and of DLY in beats. -/
def Issue.imm12 (i : Issue) (v : BitVec 12) : Word :=
  if i.ext.isSome then BitVec.ofNat 32 (i.x * 2 ^ 12 + v.toNat) else v.zeroExtend 32

/-- imm6 of the team-window instructions: 30 bits after EXT. -/
def Issue.imm6 (i : Issue) (v : BitVec 6) : Word :=
  if i.ext.isSome then BitVec.ofNat 32 (i.x * 2 ^ 6 + v.toNat) else v.zeroExtend 32

/-- Address of the instruction after the one at pc. -/
def Issue.after (i : Issue) (pc : Word) : Word := pc + BitVec.ofNat 32 i.len

/-! ### The registers that instructions of one shape use -/

/-- The registers from r on. -/
def regsFrom (r n : Nat) : List Nat := (List.range n).map (r + ·)

/-- A vector destination with vector sources. -/
def usesV (dsts srcs : List Nat) : Uses := { vN := dsts ++ srcs, sN := [], vR := srcs, sR := [] }

/-- A scalar destination with scalar sources. -/
def usesS (dsts srcs : List Nat) : Uses := { vN := [], sN := dsts ++ srcs, vR := [], sR := srcs }

/-- No register. -/
def usesNone : Uses := { vN := [], sN := [], vR := [], sR := [] }

/-- The two registers of a 64-bit operand (R20). -/
def pairRegs (r : Nat) : List Nat := [r, r + 1]

/-- Two 16-bit elements of a lane word (R64). -/
def half (x : Word) (j : Nat) : Nat := x.toNat / 2 ^ (16 * j) % 2 ^ 16

/-- Slot j of k elements to a lane word (Table A.27). -/
def slotOf (k : Nat) (x : Word) (j : Nat) : Nat := x.toNat / 2 ^ (32 / k * j) % 2 ^ (32 / k)

/-- A lane word from its k slots. -/
def packSlots (k : Nat) (f : Nat → Nat) : Word :=
  BitVec.ofNat 32 (((List.range k).map (fun j => f j % 2 ^ (32 / k) * 2 ^ (32 / k * j))).foldl (· + ·) 0)

/-- Elements to a lane of a format code (Table A.27). -/
def perLane (code : Nat) : Nat :=
  if code = 0 ∨ code = 8 then 1 else if code = 1 ∨ code = 2 then 2 else 4

end Sys2Proof.Machine
end

