-- ==== Sys2Proof/Machine/VectorInt.lean ====
section
/-!
DEFINITION. Vector integer instructions: VI3A and VI3B (R111), VVI (R112) and their 16-bit forms (R46).
-/

namespace Sys2Proof.Machine

/-- A three-operand lane function of latency n (R109): every lane is read before one is written. -/
def vecBin (n d a b : Nat) (f : Word → Word → Word) (s : State) : Answer :=
  plain s (usesV [d] [a, b]) noCheck fun _ g =>
    g.writeV s.clk n d (vmk fun l => f (g.vlane a l) (g.vlane b l))

/-- An immediate lane function (R112): `imm` forms the immediate, `ok` says whether it is allowed. -/
def vecImm (n d a : Nat) (imm : Issue → Word) (ok : Bool) (f : Word → Word → Word) (s : State) : Answer :=
  plain s (usesV [d] [a]) (fun _ _ => firstCause [(!ok, cIllegalOperand)]) fun i g =>
    g.writeV s.clk n d (vmk fun l => f (g.vlane a l) (imm i))

def smin (a b : Word) : Word := if a.toInt ≤ b.toInt then a else b
def smax (a b : Word) : Word := if a.toInt ≤ b.toInt then b else a
def zmin (a b : Word) : Word := if a.toNat ≤ b.toNat then a else b
def zmax (a b : Word) : Word := if a.toNat ≤ b.toNat then b else a

/-- High 32 bits of the signed and of the unsigned product. -/
def mulhiS (a b : Word) : Word := BitVec.ofInt 32 (a.toInt * b.toInt / 2 ^ 32)
def mulhiZ (a b : Word) : Word := BitVec.ofNat 32 (a.toNat * b.toNat / 2 ^ 32)

/-- Shifts and the rotate take the low five bits of the amount. -/
def shl5 (a b : Word) : Word := a <<< (b.toNat % 32)
def shrz5 (a b : Word) : Word := a >>> (b.toNat % 32)
def shrs5 (a b : Word) : Word := a.sshiftRight (b.toNat % 32)
def rotl5 (a b : Word) : Word := a.rotateLeft (b.toNat % 32)

/-- R111: va + vb. -/
def execVaddI (d a b : BitVec 7) (s : State) : Answer :=
  vecBin 1 d.toNat a.toNat b.toNat (fun x y => x + y) s

/-- R111: va − vb. -/
def execVsubI (d a b : BitVec 7) (s : State) : Answer :=
  vecBin 1 d.toNat a.toNat b.toNat (fun x y => x - y) s

/-- R111: low 32 bits of the product. -/
def execVmullo (d a b : BitVec 7) (s : State) : Answer :=
  vecBin 2 d.toNat a.toNat b.toNat (fun x y => x * y) s

/-- R111: high 32 bits of the signed product. -/
def execVmulhiS (d a b : BitVec 7) (s : State) : Answer :=
  vecBin 2 d.toNat a.toNat b.toNat mulhiS s

/-- R111: high 32 bits of the unsigned product. -/
def execVmulhiZ (d a b : BitVec 7) (s : State) : Answer :=
  vecBin 2 d.toNat a.toNat b.toNat mulhiZ s

/-- R111: AND. -/
def execVand (d a b : BitVec 7) (s : State) : Answer :=
  vecBin 1 d.toNat a.toNat b.toNat (fun x y => x &&& y) s

/-- R111: OR. -/
def execVor (d a b : BitVec 7) (s : State) : Answer :=
  vecBin 1 d.toNat a.toNat b.toNat (fun x y => x ||| y) s

/-- R111: XOR. -/
def execVxor (d a b : BitVec 7) (s : State) : Answer :=
  vecBin 1 d.toNat a.toNat b.toNat (fun x y => x ^^^ y) s

/-- R111: left shift. -/
def execVshl (d a b : BitVec 7) (s : State) : Answer :=
  vecBin 1 d.toNat a.toNat b.toNat shl5 s

/-- R111: right shift with zero fill. -/
def execVshrz (d a b : BitVec 7) (s : State) : Answer :=
  vecBin 1 d.toNat a.toNat b.toNat shrz5 s

/-- R111: right shift with sign fill. -/
def execVshrs (d a b : BitVec 7) (s : State) : Answer :=
  vecBin 1 d.toNat a.toNat b.toNat shrs5 s

/-- R111: signed minimum. -/
def execVminS (d a b : BitVec 7) (s : State) : Answer :=
  vecBin 1 d.toNat a.toNat b.toNat smin s

/-- R111: signed maximum. -/
def execVmaxS (d a b : BitVec 7) (s : State) : Answer :=
  vecBin 1 d.toNat a.toNat b.toNat smax s

/-- R111: unsigned minimum. -/
def execVminZ (d a b : BitVec 7) (s : State) : Answer :=
  vecBin 1 d.toNat a.toNat b.toNat zmin s

/-- R111: unsigned maximum. -/
def execVmaxZ (d a b : BitVec 7) (s : State) : Answer :=
  vecBin 1 d.toNat a.toNat b.toNat zmax s

/-- R111: left rotate. -/
def execVrotl (d a b : BitVec 7) (s : State) : Answer :=
  vecBin 1 d.toNat a.toNat b.toNat rotl5 s

/-- R112: the immediate of Table A.23. -/
def execVaddi (d a i : BitVec 7) (s : State) : Answer :=
  vecImm 1 d.toNat a.toNat (fun q => q.imm7 i) true (fun x y => x + y) s

/-- R112: the immediate of Table A.23. -/
def execVandi (d a i : BitVec 7) (s : State) : Answer :=
  vecImm 1 d.toNat a.toNat (fun q => q.imm7 i) true (fun x y => x &&& y) s

/-- R112: the immediate of Table A.23. -/
def execVori (d a i : BitVec 7) (s : State) : Answer :=
  vecImm 1 d.toNat a.toNat (fun q => q.imm7 i) true (fun x y => x ||| y) s

/-- R112: the immediate of Table A.23. -/
def execVxori (d a i : BitVec 7) (s : State) : Answer :=
  vecImm 1 d.toNat a.toNat (fun q => q.imm7 i) true (fun x y => x ^^^ y) s

/-- R112: a shift by imm7, at most 31. -/
def execVshli (d a i : BitVec 7) (s : State) : Answer :=
  vecImm 1 d.toNat a.toNat (fun _ => i.zeroExtend 32) (decide (i.toNat < 32)) shl5 s

/-- R112: a shift by imm7, at most 31. -/
def execVshrzi (d a i : BitVec 7) (s : State) : Answer :=
  vecImm 1 d.toNat a.toNat (fun _ => i.zeroExtend 32) (decide (i.toNat < 32)) shrz5 s

/-- R112: a shift by imm7, at most 31. -/
def execVshrsi (d a i : BitVec 7) (s : State) : Answer :=
  vecImm 1 d.toNat a.toNat (fun _ => i.zeroExtend 32) (decide (i.toNat < 32)) shrs5 s

/-- R112: the immediate of Table A.23. -/
def execVmuli (d a i : BitVec 7) (s : State) : Answer :=
  vecImm 2 d.toNat a.toNat (fun q => q.imm7 i) true (fun x y => x * y) s

/-- R46: vd is the first source and va the second. -/
def execVaddI16 (d : BitVec 6) (a : BitVec 5) (s : State) : Answer :=
  vecBin 1 d.toNat d.toNat a.toNat (fun x y => x + y) s

/-- R46: vd is the first source and va the second. -/
def execVsubI16 (d : BitVec 6) (a : BitVec 5) (s : State) : Answer :=
  vecBin 1 d.toNat d.toNat a.toNat (fun x y => x - y) s

/-- R46: vd is the first source and va the second. -/
def execVand16 (d : BitVec 6) (a : BitVec 5) (s : State) : Answer :=
  vecBin 1 d.toNat d.toNat a.toNat (fun x y => x &&& y) s

/-- R46: vd is the first source and va the second. -/
def execVor16 (d : BitVec 6) (a : BitVec 5) (s : State) : Answer :=
  vecBin 1 d.toNat d.toNat a.toNat (fun x y => x ||| y) s

/-- R46: vd is the first source and va the second. -/
def execVxor16 (d : BitVec 6) (a : BitVec 5) (s : State) : Answer :=
  vecBin 1 d.toNat d.toNat a.toNat (fun x y => x ^^^ y) s

/-- R46: vd is the first source and va the second. -/
def execVshl16 (d : BitVec 6) (a : BitVec 5) (s : State) : Answer :=
  vecBin 1 d.toNat d.toNat a.toNat shl5 s

/-- R46: vd is the first source and va the second. -/
def execVshrz16 (d : BitVec 6) (a : BitVec 5) (s : State) : Answer :=
  vecBin 1 d.toNat d.toNat a.toNat shrz5 s

/-- R46: vd is the first source and va the second. -/
def execVmullo16 (d : BitVec 6) (a : BitVec 5) (s : State) : Answer :=
  vecBin 2 d.toNat d.toNat a.toNat (fun x y => x * y) s

/-- R46: vd is the first source and va the second. -/
def execVshrs16 (d : BitVec 6) (a : BitVec 5) (s : State) : Answer :=
  vecBin 1 d.toNat d.toNat a.toNat shrs5 s

/-- R46: VMOV reads only va. -/
def execVmov (d : BitVec 6) (a : BitVec 5) (s : State) : Answer :=
  plain s (usesV [d.toNat] [a.toNat]) noCheck fun _ g => g.writeV s.clk 1 d.toNat (vmk fun l => g.vlane a.toNat l)

/-- R46: VNOT reads only va. -/
def execVnot16 (d : BitVec 6) (a : BitVec 5) (s : State) : Answer :=
  plain s (usesV [d.toNat] [a.toNat]) noCheck fun _ g => g.writeV s.clk 1 d.toNat (vmk fun l => ~~~ g.vlane a.toNat l)

end Sys2Proof.Machine
end

