-- ==== Sys2Proof/Machine/VectorFloat.lean ====
section
/-!
DEFINITION. Vector floating-point arithmetic: VF3A (R113), VF3H (R114), their 16-bit forms (R46), and the compares
(R115).
-/

namespace Sys2Proof.Machine

/-- An FP32 result of an arithmetic instruction: rounded once by fmt.RM, with the SAT = 0 columns of Table A.29
(R113). -/
def arith32 (fmt : Word) (v : FVal) : Word :=
  BitVec.ofNat 32 (fmtFP32.encode (rmOf (fmtRM fmt)) false (fmtFTZ fmt) v)

/-- Whether a sum that is exactly zero is −0: under RDN. -/
def isRdn (fmt : Word) : Bool := fmtRM fmt == 3

/-- A lane function of three FP32 operands with fmt (R113); vd is the third source. -/
def vecF (n d a b : Nat) (readsD : Bool) (f : Word → Word → Word → Word → Word) (s : State) : Answer :=
  plain s (usesV [d] (if readsD then [d, a, b] else [a, b])) noCheck fun _ g =>
    g.writeV s.clk n d (vmk fun l => f g.fmt (g.vlane a l) (g.vlane b l) (g.vlane d l))

def fadd (fmt x y : Word) : Word :=
  arith32 fmt ((f32 (fmtFTZ fmt) x).add (isRdn fmt) (f32 (fmtFTZ fmt) y))
def fsub (fmt x y : Word) : Word :=
  arith32 fmt ((f32 (fmtFTZ fmt) x).add (isRdn fmt) (f32 (fmtFTZ fmt) y).neg)
def fmul (fmt x y : Word) : Word := arith32 fmt ((f32 (fmtFTZ fmt) x).mul (f32 (fmtFTZ fmt) y))
def ffma (fmt x y z : Word) : Word :=
  arith32 fmt (((f32 (fmtFTZ fmt) x).mul (f32 (fmtFTZ fmt) y)).add (isRdn fmt) (f32 (fmtFTZ fmt) z))
def ffnma (fmt x y z : Word) : Word :=
  arith32 fmt ((f32 (fmtFTZ fmt) z).add (isRdn fmt) ((f32 (fmtFTZ fmt) x).mul (f32 (fmtFTZ fmt) y)).neg)

/-- VCPSGN: x with the sign of y. -/
def copySign (x y : Word) : Word := (x &&& 0x7FFFFFFF) ||| (y &&& 0x80000000)

/-- R113, Table A.46. -/
def execVaddF (d a b : BitVec 7) (s : State) : Answer :=
  vecF 2 d.toNat a.toNat b.toNat false (fun m x y _ => fadd m x y) s

/-- R113, Table A.46. -/
def execVsubF (d a b : BitVec 7) (s : State) : Answer :=
  vecF 2 d.toNat a.toNat b.toNat false (fun m x y _ => fsub m x y) s

/-- R113, Table A.46. -/
def execVmulF (d a b : BitVec 7) (s : State) : Answer :=
  vecF 2 d.toNat a.toNat b.toNat false (fun m x y _ => fmul m x y) s

/-- R113, Table A.46. -/
def execVfmaF (d a b : BitVec 7) (s : State) : Answer :=
  vecF 2 d.toNat a.toNat b.toNat true ffma s

/-- R113, Table A.46. -/
def execVfnmaF (d a b : BitVec 7) (s : State) : Answer :=
  vecF 2 d.toNat a.toNat b.toNat true ffnma s

/-- R113, Table A.46. -/
def execVminF (d a b : BitVec 7) (s : State) : Answer :=
  vecF 2 d.toNat a.toNat b.toNat false (fun _ x y _ => f32Min x y) s

/-- R113, Table A.46. -/
def execVmaxF (d a b : BitVec 7) (s : State) : Answer :=
  vecF 2 d.toNat a.toNat b.toNat false (fun _ x y _ => f32Max x y) s

/-- R113, Table A.46. -/
def execVcpsgn (d a b : BitVec 7) (s : State) : Answer :=
  vecF 1 d.toNat a.toNat b.toNat false (fun _ x y _ => copySign x y) s

/-- R46: vd is the first source and va the second. -/
def execVaddF16 (d : BitVec 6) (a : BitVec 5) (s : State) : Answer :=
  vecF 2 d.toNat d.toNat a.toNat false (fun m x y _ => fadd m x y) s

/-- R46: vd is the first source and va the second. -/
def execVsubF16 (d : BitVec 6) (a : BitVec 5) (s : State) : Answer :=
  vecF 2 d.toNat d.toNat a.toNat false (fun m x y _ => fsub m x y) s

/-- R46: vd is the first source and va the second. -/
def execVmulF16 (d : BitVec 6) (a : BitVec 5) (s : State) : Answer :=
  vecF 2 d.toNat d.toNat a.toNat false (fun m x y _ => fmul m x y) s

/-- R46: vd is the first source and va the second. -/
def execVmaxF16 (d : BitVec 6) (a : BitVec 5) (s : State) : Answer :=
  vecF 2 d.toNat d.toNat a.toNat false (fun _ x y _ => f32Max x y) s

/-- R46: vd is the first source and va the second. -/
def execVminF16 (d : BitVec 6) (a : BitVec 5) (s : State) : Answer :=
  vecF 2 d.toNat d.toNat a.toNat false (fun _ x y _ => f32Min x y) s

/-- Two 16-bit results packed in a lane. -/
def pack2 (f : Nat → Nat) : Word := packSlots 2 f

/-- A 16-bit result rounded as R113 gives, in an element format. -/
def arith16 (t : FFmt) (fmt : Word) (v : FVal) : Nat := t.encode (rmOf (fmtRM fmt)) false (fmtFTZ fmt) v

/-- An element operand. -/
def el16 (t : FFmt) (fmt x : Word) (j : Nat) : FVal := t.decode (fmtFTZ fmt) (half x j)

def hadd (t : FFmt) (fmt x y _z : Word) : Word :=
  pack2 fun j => arith16 t fmt ((el16 t fmt x j).add (isRdn fmt) (el16 t fmt y j))
def hmul (t : FFmt) (fmt x y _z : Word) : Word :=
  pack2 fun j => arith16 t fmt ((el16 t fmt x j).mul (el16 t fmt y j))
def hfma (t : FFmt) (fmt x y z : Word) : Word :=
  pack2 fun j => arith16 t fmt (((el16 t fmt x j).mul (el16 t fmt y j)).add (isRdn fmt) (el16 t fmt z j))

/-- The two-element dot product with an FP32 addend, rounded once by fmt.RM (R114). -/
def hdot2 (t : FFmt) (fmt x y z : Word) : Word :=
  accRoundBy (rmOf (fmtRM fmt)) (fmtFTZ fmt) z
    [(el16 t fmt x 0).mul (el16 t fmt y 0), (el16 t fmt x 1).mul (el16 t fmt y 1)]

/-- R114. -/
def execVaddH (d a b : BitVec 7) (s : State) : Answer :=
  vecF 2 d.toNat a.toNat b.toNat false (hadd fmtFP16) s

/-- R114. -/
def execVmulH (d a b : BitVec 7) (s : State) : Answer :=
  vecF 2 d.toNat a.toNat b.toNat false (hmul fmtFP16) s

/-- R114. -/
def execVfmaH (d a b : BitVec 7) (s : State) : Answer :=
  vecF 2 d.toNat a.toNat b.toNat true (hfma fmtFP16) s

/-- R114. -/
def execVdot2H (d a b : BitVec 7) (s : State) : Answer :=
  vecF 2 d.toNat a.toNat b.toNat true (hdot2 fmtFP16) s

/-- R114. -/
def execVaddBf (d a b : BitVec 7) (s : State) : Answer :=
  vecF 2 d.toNat a.toNat b.toNat false (hadd fmtBF16) s

/-- R114. -/
def execVmulBf (d a b : BitVec 7) (s : State) : Answer :=
  vecF 2 d.toNat a.toNat b.toNat false (hmul fmtBF16) s

/-- R114. -/
def execVfmaBf (d a b : BitVec 7) (s : State) : Answer :=
  vecF 2 d.toNat a.toNat b.toNat true (hfma fmtBF16) s

/-- R114. -/
def execVdot2Bf (d a b : BitVec 7) (s : State) : Answer :=
  vecF 2 d.toNat a.toNat b.toNat true (hdot2 fmtBF16) s

/-- VCMP (R115): the mask of the lanes in exec where the test holds; sd stays under exec = 0. -/
def vecCmp (d a b : Nat) (test : Word → Word → Word → Bool) (s : State) : Answer :=
  plain s { vN := [a, b], sN := [d], vR := [a, b], sR := [] } noCheck fun _ g =>
    if g.exec = 0 then g
    else g.writeS s.clk 2 d (maskOf g.exec fun l => test g.fmt (g.vlane a l) (g.vlane b l))

/-- An FP32 test, under FTZ of the inputs. -/
def cmpF (f : FVal → FVal → Bool) (fmt x y : Word) : Bool := f (f32 (fmtFTZ fmt) x) (f32 (fmtFTZ fmt) y)

/-- R115, Table A.47. -/
def execVcmpEqF (d : BitVec 6) (a b : BitVec 7) (s : State) : Answer :=
  vecCmp d.toNat a.toNat b.toNat (cmpF fun x y => x.eq y) s

/-- R115, Table A.47. -/
def execVcmpNeF (d : BitVec 6) (a b : BitVec 7) (s : State) : Answer :=
  vecCmp d.toNat a.toNat b.toNat (cmpF fun x y => !x.eq y) s

/-- R115, Table A.47. -/
def execVcmpLtF (d : BitVec 6) (a b : BitVec 7) (s : State) : Answer :=
  vecCmp d.toNat a.toNat b.toNat (cmpF fun x y => x.lt y) s

/-- R115, Table A.47. -/
def execVcmpLeF (d : BitVec 6) (a b : BitVec 7) (s : State) : Answer :=
  vecCmp d.toNat a.toNat b.toNat (cmpF fun x y => x.lt y || x.eq y) s

/-- R115, Table A.47. -/
def execVcmpGtF (d : BitVec 6) (a b : BitVec 7) (s : State) : Answer :=
  vecCmp d.toNat a.toNat b.toNat (cmpF fun x y => y.lt x) s

/-- R115, Table A.47. -/
def execVcmpGeF (d : BitVec 6) (a b : BitVec 7) (s : State) : Answer :=
  vecCmp d.toNat a.toNat b.toNat (cmpF fun x y => y.lt x || x.eq y) s

/-- R115, Table A.47. -/
def execVcmpUnF (d : BitVec 6) (a b : BitVec 7) (s : State) : Answer :=
  vecCmp d.toNat a.toNat b.toNat (cmpF fun x y => x.isNan || y.isNan) s

/-- R115, Table A.47. -/
def execVcmpOrF (d : BitVec 6) (a b : BitVec 7) (s : State) : Answer :=
  vecCmp d.toNat a.toNat b.toNat (cmpF fun x y => !x.isNan && !y.isNan) s

/-- R115, Table A.47. -/
def execVcmpEqI (d : BitVec 6) (a b : BitVec 7) (s : State) : Answer :=
  vecCmp d.toNat a.toNat b.toNat (fun _ x y => x == y) s

/-- R115, Table A.47. -/
def execVcmpNeI (d : BitVec 6) (a b : BitVec 7) (s : State) : Answer :=
  vecCmp d.toNat a.toNat b.toNat (fun _ x y => x != y) s

/-- R115, Table A.47. -/
def execVcmpLtS (d : BitVec 6) (a b : BitVec 7) (s : State) : Answer :=
  vecCmp d.toNat a.toNat b.toNat (fun _ x y => decide (x.toInt < y.toInt)) s

/-- R115, Table A.47. -/
def execVcmpLeS (d : BitVec 6) (a b : BitVec 7) (s : State) : Answer :=
  vecCmp d.toNat a.toNat b.toNat (fun _ x y => decide (x.toInt ≤ y.toInt)) s

/-- R115, Table A.47. -/
def execVcmpLtZ (d : BitVec 6) (a b : BitVec 7) (s : State) : Answer :=
  vecCmp d.toNat a.toNat b.toNat (fun _ x y => decide (x.toNat < y.toNat)) s

/-- R115, Table A.47. -/
def execVcmpLeZ (d : BitVec 6) (a b : BitVec 7) (s : State) : Answer :=
  vecCmp d.toNat a.toNat b.toNat (fun _ x y => decide (x.toNat ≤ y.toNat)) s

/-- R115, Table A.47. -/
def execVcmpTst (d : BitVec 6) (a b : BitVec 7) (s : State) : Answer :=
  vecCmp d.toNat a.toNat b.toNat (fun _ x y => x &&& y != 0) s

/-- R115, Table A.47. -/
def execVcmpNtst (d : BitVec 6) (a b : BitVec 7) (s : State) : Answer :=
  vecCmp d.toNat a.toNat b.toNat (fun _ x y => x &&& y == 0) s

end Sys2Proof.Machine
end

