-- ==== Sys2Proof/Machine/Trans.lean ====
section
/-!
DEFINITION. The transcendental functions (R122, Tables A.50 and A.51) and the rounding functions of R123.  An exact
result is formed as a ratio or a square root with a sticky bit; the others are evaluated in fixed point with 192
fraction bits, far beyond what rounding once to FP32 asks for.
-/

namespace Sys2Proof.Machine

/-- Fixed-point 1, π and ln 2, with 192 fraction bits. -/
def fixOne : Nat := 2 ^ 192
def fixPi : Nat := 0x3243f6a8885a308d313198a2e03707344a4093822299f31d0
def fixLn2 : Nat := 0xb17217f7d1cf79abc9e3b39803f2f6af40f343267298b62d

/-- A magnitude with a sticky bit below it. -/
def sticky (neg : Bool) (v : Nat) (e : Int) (exact : Bool) : FVal := .fin neg (2 * v + (if exact then 0 else 1)) (e - 1)

/-- The integer square root of n < 4^bits, bit by bit. -/
def isqrt (n : Nat) : Nat → Nat → Nat
  | 0, r => r
  | b + 1, r => if (r + 2 ^ b) * (r + 2 ^ b) ≤ n then isqrt n b (r + 2 ^ b) else isqrt n b r

/-- m × 2^e with an even exponent. -/
def evenExp (m : Nat) (e : Int) : Nat × Int := if e % 2 = 0 then (m, e) else (2 * m, e - 1)

def recip : FVal → FVal
  | .nan => .nan
  | .inf s => .fin s 0 0
  | .fin s m e =>
    if m = 0 then .inf s else sticky s (2 ^ 64 / m) (-64 - e) (decide (2 ^ 64 % m = 0))

def root : FVal → FVal
  | .nan => .nan
  | .inf s => if s then .nan else .inf false
  | .fin s m e =>
    if m = 0 then .fin s 0 0
    else if s then .nan
    else
      let x := evenExp m e
      let n := x.1 * 2 ^ 64
      let r := isqrt n 48 0
      sticky false r (x.2 / 2 - 32) (decide (r * r = n))

def recipRoot : FVal → FVal
  | .nan => .nan
  | .inf s => if s then .nan else .fin false 0 0
  | .fin s m e =>
    if m = 0 then .inf s
    else if s then .nan
    else
      let x := evenExp m e
      let r := isqrt (2 ^ 128 / x.1) 65 0
      sticky false r (-64 - x.2 / 2) (decide (r * r * x.1 = 2 ^ 128))

/-- 1 + y/a (1 + y/(a+1) (…)) over n factors, for the exponential series. -/
def expSeries (y : Nat) : Nat → Nat → Nat
  | 0, _ => fixOne
  | n + 1, a => fixOne + y * expSeries y n (a + 1) / (fixOne * a)

/-- 1 − u/(2·3) (1 − u/(4·5) (…)), the series of sin t / t at u = t². -/
def sinSeries (u : Nat) : Nat → Nat → Nat
  | 0, _ => fixOne
  | n + 1, a => fixOne - u * sinSeries u n (a + 2) / (fixOne * a * (a + 1))

/-- 1/a + w (1/(a+2) + …), the series of artanh z / z at w = z². -/
def atanhSeries (w : Nat) : Nat → Nat → Nat
  | 0, _ => 0
  | n + 1, a => fixOne / a + w * atanhSeries w n (a + 2) / fixOne

/-- 2^x for a finite x. -/
def exp2Fin (s : Bool) (m : Nat) (e : Int) : FVal :=
  let k := (-e).toNat
  let up := m * 2 ^ e.toNat
  let n := up / 2 ^ k
  let f := up % 2 ^ k
  if 0 ≤ e ∨ f = 0 then
    (if s then (if 200 < n then .fin false 1 (-200) else .fin false 1 (-(n : Int)))
     else if 128 ≤ n then .inf false else .fin false 1 n)
  else if s then
    (if 200 < n then .fin false 1 (-200)
     else sticky false (expSeries ((2 ^ k - f) * fixLn2 / 2 ^ k) 52 1) (-193 - (n : Int)) false)
  else if 128 ≤ n then .inf false
  else sticky false (expSeries (f * fixLn2 / 2 ^ k) 52 1) (-192 + (n : Int)) false

def exp2 : FVal → FVal
  | .nan => .nan
  | .inf s => if s then .fin false 0 0 else .inf false
  | .fin s m e => exp2Fin s m e

def log2 : FVal → FVal
  | .nan => .nan
  | .inf s => if s then .nan else .inf false
  | .fin s m e =>
    if m = 0 then .inf true
    else if s then .nan
    else
      let l := Nat.log2 m
      let n : Int := e + l
      if m = 2 ^ l then .fin (decide (n < 0)) n.natAbs 0
      else
        let z := (m - 2 ^ l) * fixOne / (m + 2 ^ l)
        let ln := 2 * z * atanhSeries (z * z / fixOne) 70 1 / fixOne
        let v : Int := n * fixOne + (ln * fixOne / fixLn2 : Nat)
        sticky (decide (v < 0)) v.natAbs (-192) false

/-- sin(π m / 2^k) for 0 < m / 2^k < 1/2, with a sign. -/
def sinPiFrac (neg : Bool) (m k : Nat) : FVal :=
  let t := fixPi * m
  sticky neg (t * sinSeries (t * t / 2 ^ (2 * k + 192)) 30 2) (-384 - (k : Int)) false

def sinPi : FVal → FVal
  | .nan => .nan
  | .inf _ => .nan
  | .fin s m e =>
    let k := (-e).toNat
    let n := m / 2 ^ k
    let f := m % 2 ^ k
    if m = 0 ∨ 0 ≤ e ∨ f = 0 then .fin s 0 0
    else
      let neg := s != decide (n % 2 = 1)
      if 2 * f = 2 ^ k then .fin neg 1 0
      else if 2 * f < 2 ^ k then sinPiFrac neg f k
      else sinPiFrac neg (2 ^ k - f) k

def cosPi : FVal → FVal
  | .nan => .nan
  | .inf _ => .nan
  | .fin _ m e =>
    let k := (-e).toNat
    let up := m * 2 ^ e.toNat
    let n := up / 2 ^ k
    let f := up % 2 ^ k
    if f = 0 then .fin (decide (n % 2 = 1)) 1 0
    else if 2 * f = 2 ^ k then .fin false 0 0
    else if 2 * f < 2 ^ k then sinPiFrac (decide (n % 2 = 1)) (2 ^ k - 2 * f) (k + 1)
    else sinPiFrac (decide (n % 2 = 0)) (2 * f - 2 ^ k) (k + 1)

def tanh : FVal → FVal
  | .nan => .nan
  | .inf s => .fin s 1 0
  | .fin s m e =>
    if m = 0 then .fin s 0 0
    else if 10 * 2 ^ (-e).toNat ≤ m * 2 ^ e.toNat then .fin s (2 ^ 40 - 1) (-40)
    else
      let y := 2 * m * 2 ^ e.toNat * fixOne / 2 ^ (-e).toNat
      let g := expSeries y 150 2
      let d := 2 * fixOne + y * g / fixOne
      sticky s (2 * m * g * fixOne / d) (e - 192) false

/-- The largest integral value not above a value (R123). -/
def floorV : FVal → FVal
  | .nan => .nan
  | .inf s => .inf s
  | .fin s m e =>
    let k := (-e).toNat
    if 0 ≤ e ∨ m % 2 ^ k = 0 then .fin s m e
    else if s then .fin true (m / 2 ^ k + 1) 0
    else .fin false (m / 2 ^ k) 0

/-- The value less its floor (R123). -/
def fractV : FVal → FVal
  | .nan => .nan
  | .inf _ => .fin false 0 0
  | .fin s m e =>
    let k := (-e).toNat
    if 0 ≤ e ∨ m % 2 ^ k = 0 then .fin false 0 0
    else if s then .fin false (2 ^ k - m % 2 ^ k) e
    else .fin false (m % 2 ^ k) e

end Sys2Proof.Machine
end

