-- ==== Sys2Proof/Machine/VectorUn.lean ====
section
/-!
DEFINITION. One-operand vector functions, VUN: conversions (R116 to R118), packing (R119 to R121), the
transcendentals (R122) and the bit and sign operations (R123).
-/

namespace Sys2Proof.Machine

/-- A conversion's SEED (R75): it advances once, with exec non-zero, whatever fmt.SR holds. -/
def Group.seedFor (g : Group) : Word := if g.exec = 0 then g.seed else advanceSeed g.seed

/-- A one-operand lane function of latency n with fmt. -/
def vecUn (n d a : Nat) (f : Word → Word → Word) (s : State) : Answer :=
  plain s (usesV [d] [a]) noCheck fun _ g => g.writeV s.clk n d (vmk fun l => f g.fmt (g.vlane a l))

/-- Several vector registers from d on written with one latency. -/
def Group.writeVs (g : Group) (clk n d : Nat) (xs : List Vec) : Group :=
  (xs.zipIdx).foldl (fun g x => g.writeV clk n (d + x.2) x.1) g

/-- A converting instruction: it reads n registers from a on and writes m from d on; the results depend on the
group with the advanced seed. (Log entry 26 DEDUCED.) -/
def vecConv (d a : Nat) (m n : Group → Nat) (more : Group → Option Nat) (f : Group → Word → List Vec) (s : State) :
    Answer :=
  withGroup s fun i g =>
    -- the register counts follow from fmt, so they are formed before the checks
    let u := usesV (regsFrom d (m g)) (regsFrom a (n g))
    match g.common u with
    | some c => s.trap g c
    | none =>
      match more g with
      | some c => s.trap g c
      | none =>
        let seed := g.seedFor
        s.putGroup ((({ g with seed := seed }.writeVs s.clk 3 d (f g seed)).stamp s.clk i.sc).advance i.len)

/-- Format codes that VCVT takes (R116). -/
def cvtCode (c : Nat) : Bool := decide (c ≤ 4) || c == 7 || c == 8

/-- cvt() of R117 on an element that goes to slot j of lane l. -/
def cvtElem (fmt seed : Word) (src dst l j x : Nat) : Nat :=
  convert (convMode fmt seed l j) (fmtSAT fmt) (fmtFTZ fmt) src dst x

/-- Registers read and written by VCVT: kC / kA or kA / kC (R116); a code it does not take counts as one. -/
def cvtReads (fmt : Word) : Nat :=
  if cvtCode (fmtAF fmt) && cvtCode (fmtCF fmt) then max 1 (perLane (fmtCF fmt) / perLane (fmtAF fmt)) else 1
def cvtWrites (fmt : Word) : Nat :=
  if cvtCode (fmtAF fmt) && cvtCode (fmtCF fmt) then max 1 (perLane (fmtAF fmt) / perLane (fmtCF fmt)) else 1

/-- VCVT (R116): each element keeps its lane. -/
def execVcvt (d a : BitVec 7) (s : State) : Answer :=
  vecConv d.toNat a.toNat (fun g => cvtWrites g.fmt) (fun g => cvtReads g.fmt)
    (fun g => firstCause [(!(cvtCode (fmtAF g.fmt) && cvtCode (fmtCF g.fmt)), cIllegalOperand)])
    (fun g seed =>
      let fa := fmtAF g.fmt
      let fc := fmtCF g.fmt
      let ka := perLane fa
      let kc := perLane fc
      (List.range (cvtWrites g.fmt)).map fun i => vmk fun l => packSlots kc fun j =>
        let n := i * kc + j
        cvtElem g.fmt seed fa fc l j (slotOf ka (g.vlane (a.toNat + n / ka) l) (n % ka)))
    s

/-- A conversion between a 32-bit integer and FP32 (R118). -/
def vecCvt32 (d a : Nat) (f : RMode → Bool → Bool → Word → Word) (s : State) : Answer :=
  vecConv d a (fun _ => 1) (fun _ => 1) (fun _ => none)
    (fun g seed => [vmk fun l => f (convMode g.fmt seed l 0) (fmtSAT g.fmt) (fmtFTZ g.fmt) (g.vlane a l)]) s

/-- An integer as an exact value. -/
def intValue (x : Int) : FVal := .fin (decide (x < 0)) x.natAbs 0

/-- R118: FP32 of the signed INT32. -/
def execVcvtfS (d a : BitVec 7) (s : State) : Answer :=
  vecCvt32 d.toNat a.toNat (fun m sat ftz x => BitVec.ofNat 32 (fmtFP32.encode m sat ftz (intValue x.toInt))) s

/-- R118: signed INT32 of the FP32. -/
def execVcvtsF (d a : BitVec 7) (s : State) : Answer :=
  vecCvt32 d.toNat a.toNat (fun m sat ftz x => BitVec.ofNat 32 (encodeInt 32 true m sat (f32 ftz x))) s

/-- R118: FP32 of the unsigned 32-bit value. -/
def execVcvtfZ (d a : BitVec 7) (s : State) : Answer :=
  vecCvt32 d.toNat a.toNat (fun m sat ftz x => BitVec.ofNat 32 (fmtFP32.encode m sat ftz (.fin false x.toNat 0))) s

/-- R118: unsigned 32-bit integer of the FP32. -/
def execVcvtzF (d a : BitVec 7) (s : State) : Answer :=
  vecCvt32 d.toNat a.toNat (fun m sat ftz x => BitVec.ofNat 32 (encodeInt 32 false m sat (f32 ftz x))) s

/-- VPKF8 (R119): element 4L + j of va to va+3 goes to slot j of vd[L]. -/
def execVpkf8 (d a : BitVec 7) (s : State) : Answer :=
  vecConv d.toNat a.toNat (fun _ => 1) (fun _ => 4)
    (fun g => firstCause [(!(fmtCF g.fmt == 3 || fmtCF g.fmt == 4), cIllegalOperand)])
    (fun g seed => [vmk fun l => packSlots 4 fun j =>
      let n := 4 * l + j
      cvtElem g.fmt seed 0 (fmtCF g.fmt) l j (g.vlane (a.toNat + n / 32) (n % 32)).toNat]) s

/-- VUPF8 (R119): element 32i + l of va goes to lane l of vd+i, exactly. (Log entry 26 DEDUCED.) -/
def execVupf8 (d a : BitVec 7) (s : State) : Answer :=
  vecConv d.toNat a.toNat (fun _ => 4) (fun _ => 1)
    (fun g => firstCause [(!(fmtAF g.fmt == 3 || fmtAF g.fmt == 4), cIllegalOperand)])
    (fun g seed => (List.range 4).map fun i => vmk fun l =>
      let n := 32 * i + l
      BitVec.ofNat 32 (cvtElem g.fmt seed (fmtAF g.fmt) 0 l 0 (slotOf 4 (g.vlane a.toNat (n / 4)) (n % 4)))) s

/-! ### BX packing (R72, R120, R121) -/

/-- Blocks of a register, lanes of a block and elements of a lane. -/
def bxBlocks (bx8 : Bool) : Nat := if bx8 then 4 else 8
def bxLanes (bx8 : Bool) : Nat := if bx8 then 8 else 4
def bxSlots (bx8 : Bool) : Nat := if bx8 then 4 else 8

/-- Whether exec holds all, and whether any, of a block's lanes. -/
def blockAll (bx8 : Bool) (exec : Word) (i : Nat) : Bool :=
  (List.range (bxLanes bx8)).all fun l => exec.getLsbD (i * bxLanes bx8 + l)
def blockAny (bx8 : Bool) (exec : Word) (i : Nat) : Bool :=
  (List.range (bxLanes bx8)).any fun l => exec.getLsbD (i * bxLanes bx8 + l)

/-- Block i of a register of FP32 values encoded by R73; element n draws by the lane and slot it is written to. -/
def bxBlockOf (bx8 : Bool) (fmt seed : Word) (i : Nat) (src : Vec) : List Nat × Nat :=
  bxEncode bx8 (fmtSAT fmt) (fmtGAP fmt)
    (fun n => convMode fmt seed (i * bxLanes bx8 + n / bxSlots bx8) (n % bxSlots bx8))
    (src.map (f32 (fmtFTZ fmt)))

/-- The element register and the header register that a pack writes, over the old ones (R72, R120). -/
def bxPack (bx8 : Bool) (fmt seed exec : Word) (src : Nat → Vec) (oldE oldH : Vec) : Vec × Vec :=
  let blocks := (List.range (bxBlocks bx8)).map fun i =>
    if blockAll bx8 exec i then some (bxBlockOf bx8 fmt seed i (src i)) else none
  (vmk fun l => match (blocks.getD (l / bxLanes bx8) none) with
      | some b => packSlots (bxSlots bx8) fun j => b.1.getD (l % bxLanes bx8 * bxSlots bx8 + j) 0
      | none => vget oldE l,
   vmk fun l => if bxBlocks bx8 ≤ l then 0 else match (blocks.getD l none) with
      | some b => BitVec.ofNat 32 b.2
      | none => vget oldH l)

/-- Writes landing in given lanes of a register, whatever exec holds. -/
def Group.writeLanes (g : Group) (clk n r : Nat) (m : Word) (x : Vec) : Group :=
  { g with landing := g.landing ++ [{ scalar := false, reg := r, lanes := m, value := x, due := clk + 4 * n }] }

/-- The lanes whose blocks exec holds, and the header lanes that a pack writes. -/
def bxElemLanes (bx8 : Bool) (exec : Word) : Word := maskOf 0xFFFFFFFF fun l => blockAll bx8 exec (l / bxLanes bx8)
def bxHdrLanes (bx8 : Bool) (exec : Word) : Word :=
  maskOf 0xFFFFFFFF fun l => decide (bxBlocks bx8 ≤ l) || blockAll bx8 exec l

/-- VPKBX8 and VPKBX4 (R120). -/
def vecPack (bx8 : Bool) (d a : Nat) (s : State) : Answer :=
  instr s (usesV [d, d + 1] (regsFrom a (bxBlocks bx8)))
    (fun _ g => firstCause
      [((List.range (bxBlocks bx8)).any (fun i => blockAny bx8 g.exec i && !blockAll bx8 g.exec i), cIllegalOperand)])
    fun i g =>
      let seed := g.seedFor
      let r := bxPack bx8 g.fmt seed g.exec (fun i => g.vreg (a + i)) [] []
      let g : Group := { g with seed := seed }
      let g := if g.exec = 0 then g
        else (g.writeLanes s.clk 3 d (bxElemLanes bx8 g.exec) r.1).writeLanes s.clk 3 (d + 1) (bxHdrLanes bx8 g.exec) r.2
      s.putGroup ((g.stamp s.clk i.sc).advance i.len)

/-- R120. -/
def execVpkbx8 (d a : BitVec 7) (s : State) : Answer := vecPack true d.toNat a.toNat s
/-- R120. -/
def execVpkbx4 (d a : BitVec 7) (s : State) : Answer := vecPack false d.toNat a.toNat s

/-- Element n of block i in an element register. -/
def bxElemAt (bx8 : Bool) (v : Vec) (i n : Nat) : Nat :=
  slotOf (bxSlots bx8) (vget v (i * bxLanes bx8 + n / bxSlots bx8)) (n % bxSlots bx8)

/-- VUPBX8 and VUPBX4 (R121). (Log entry 26 DEDUCED.) -/
def vecUnpack (bx8 : Bool) (d a : Nat) (s : State) : Answer :=
  vecConv d a (fun _ => bxBlocks bx8) (fun _ => 2) (fun _ => none)
    (fun g seed => (List.range (bxBlocks bx8)).map fun i => vmk fun l =>
      BitVec.ofNat 32 (fmtFP32.encode (convMode g.fmt seed l 0) (fmtSAT g.fmt) (fmtFTZ g.fmt)
        (bxValue bx8 (bxElemAt bx8 (g.vreg a) i l) (g.vlane (a + 1) i).toNat))) s

/-- R121. -/
def execVupbx8 (d a : BitVec 7) (s : State) : Answer := vecUnpack true d.toNat a.toNat s
/-- R121. -/
def execVupbx4 (d a : BitVec 7) (s : State) : Answer := vecUnpack false d.toNat a.toNat s

/-! ### Transcendentals and bit operations -/

/-- A transcendental: correctly rounded, by fmt.RM or to nearest even (R122); an overflow takes the SAT = 0
columns. (Log entry 126 DEDUCED.) -/
def transRes (byRm : Bool) (f : FVal → FVal) (fmt x : Word) : Word :=
  BitVec.ofNat 32 (fmtFP32.encode (if byRm then rmOf (fmtRM fmt) else .rne) false (fmtFTZ fmt) (f (f32 (fmtFTZ fmt) x)))

/-- Leading zero bits of a word. -/
def clz32 (x : Word) : Nat := if x = 0 then 32 else 31 - Nat.log2 x.toNat

/-- Bit b moved to bit 31 − b. -/
def brev32 (x : Word) : Word := maskOf 0xFFFFFFFF fun b => x.getLsbD (31 - b)

/-- R122. -/
def execVrcp (d a : BitVec 7) (s : State) : Answer := vecUn 4 d.toNat a.toNat (transRes true recip) s

/-- R122. -/
def execVrsq (d a : BitVec 7) (s : State) : Answer := vecUn 4 d.toNat a.toNat (transRes false recipRoot) s

/-- R122. -/
def execVsqrt (d a : BitVec 7) (s : State) : Answer := vecUn 4 d.toNat a.toNat (transRes true root) s

/-- R122. -/
def execVexp2 (d a : BitVec 7) (s : State) : Answer := vecUn 4 d.toNat a.toNat (transRes false exp2) s

/-- R122. -/
def execVlog2 (d a : BitVec 7) (s : State) : Answer := vecUn 4 d.toNat a.toNat (transRes false log2) s

/-- R122. -/
def execVsinpi (d a : BitVec 7) (s : State) : Answer := vecUn 4 d.toNat a.toNat (transRes false sinPi) s

/-- R122. -/
def execVcospi (d a : BitVec 7) (s : State) : Answer := vecUn 4 d.toNat a.toNat (transRes false cosPi) s

/-- R122. -/
def execVtanh (d a : BitVec 7) (s : State) : Answer := vecUn 4 d.toNat a.toNat (transRes false tanh) s

/-- R123, Table A.52. -/
def execVabsF (d a : BitVec 7) (s : State) : Answer :=
  vecUn 1 d.toNat a.toNat (fun _ x => x &&& 0x7FFFFFFF) s

/-- R123, Table A.52. -/
def execVnegF (d a : BitVec 7) (s : State) : Answer :=
  vecUn 1 d.toNat a.toNat (fun _ x => x ^^^ 0x80000000) s

/-- R123, Table A.52. -/
def execVfloor (d a : BitVec 7) (s : State) : Answer :=
  vecUn 2 d.toNat a.toNat (fun m x => BitVec.ofNat 32 (fmtFP32.encode .rtz false (fmtFTZ m) (floorV (f32 (fmtFTZ m) x)))) s

/-- R123, Table A.52. -/
def execVfract (d a : BitVec 7) (s : State) : Answer :=
  vecUn 2 d.toNat a.toNat (fun m x => BitVec.ofNat 32 (fmtFP32.encode .rtz false (fmtFTZ m) (fractV (f32 (fmtFTZ m) x)))) s

/-- R123, Table A.52. -/
def execVabsI (d a : BitVec 7) (s : State) : Answer :=
  vecUn 1 d.toNat a.toNat (fun _ x => if x.toInt < 0 then -x else x) s

/-- R123, Table A.52. -/
def execVnegI (d a : BitVec 7) (s : State) : Answer :=
  vecUn 1 d.toNat a.toNat (fun _ x => -x) s

/-- R123, Table A.52. -/
def execVnot (d a : BitVec 7) (s : State) : Answer :=
  vecUn 1 d.toNat a.toNat (fun _ x => ~~~ x) s

/-- R123, Table A.52. -/
def execVpopc (d a : BitVec 7) (s : State) : Answer :=
  vecUn 1 d.toNat a.toNat (fun _ x => BitVec.ofNat 32 (popcount x)) s

/-- R123, Table A.52. -/
def execVclz (d a : BitVec 7) (s : State) : Answer :=
  vecUn 1 d.toNat a.toNat (fun _ x => BitVec.ofNat 32 (clz32 x)) s

/-- R123, Table A.52. -/
def execVbrev (d a : BitVec 7) (s : State) : Answer :=
  vecUn 1 d.toNat a.toNat (fun _ x => brev32 x) s

end Sys2Proof.Machine
end

