-- ==== Sys2Proof/Machine/Lane.lean ====
section
/-!
DEFINITION. Lane movement and reduction, VLANE (R124, R125), and the scalar and vector moves, VMOVS (R126).
-/

namespace Sys2Proof.Machine

/-- A shuffle by an immediate from 0 to 31 (R124): lane l takes the va lane that `src` names. -/
def laneImm (d a imm : Nat) (src : Nat → Nat) (s : State) : Answer :=
  plain s (usesV [d] [a]) (fun _ _ => firstCause [(decide (31 < imm), cIllegalOperand)]) fun _ g =>
    g.writeV s.clk 2 d (vmk fun l => g.vlane a (src l))

/-- R124: the va lane that vb[4:0] names. -/
def execVshfl (d a b : BitVec 7) (s : State) : Answer :=
  plain s (usesV [d.toNat] [a.toNat, b.toNat]) noCheck fun _ g =>
    g.writeV s.clk 2 d.toNat (vmk fun l => g.vlane a.toNat ((g.vlane b.toNat l).toNat % 32))

/-- R124: the lane at l xor imm. -/
def execVshflx (d a i : BitVec 7) (s : State) : Answer :=
  laneImm d.toNat a.toNat i.toNat (fun l => l ^^^ i.toNat) s

/-- R124: the lane imm below, or l where there is none. -/
def execVshflup (d a i : BitVec 7) (s : State) : Answer :=
  laneImm d.toNat a.toNat i.toNat (fun l => if i.toNat ≤ l then l - i.toNat else l) s

/-- R124: the lane imm above, or l where there is none. -/
def execVshfldn (d a i : BitVec 7) (s : State) : Answer :=
  laneImm d.toNat a.toNat i.toNat (fun l => if l + i.toNat ≤ 31 then l + i.toNat else l) s

/-- R124: lane imm for every lane. -/
def execVbcast (d a i : BitVec 7) (s : State) : Answer := laneImm d.toNat a.toNat i.toNat (fun _ => i.toNat) s

/-- add of R125: round_rne under FTZ, whatever fmt.RM holds, with overflow to ±∞. -/
def laneAdd (fmt x y : Word) : Word :=
  BitVec.ofNat 32 (fmtFP32.encode .rne false (fmtFTZ fmt) ((f32 (fmtFTZ fmt) x).add false (f32 (fmtFTZ fmt) y)))

/-- The lanes of va, with the identity in the lanes outside exec. -/
def reduceStart (exec id : Word) (v : Vec) : Vec := vmk fun l => if exec.getLsbD l then vget v l else id

/-- The butterfly of R125 over the distances 1 to 16. -/
def butterfly (op : Word → Word → Word) (t : Vec) : Vec :=
  [1, 2, 4, 8, 16].foldl (fun (t : Vec) (d : Nat) => vmk fun l => op (vget t l) (vget t (l ^^^ d))) t

/-- The inclusive scan of R125. -/
def scanUp (op : Word → Word → Word) (t : Vec) : Vec :=
  [1, 2, 4, 8, 16].foldl
    (fun (t : Vec) (d : Nat) => vmk fun l => if d ≤ l then op (vget t (l - d)) (vget t l) else vget t l) t

/-- A reduction or scan (R125). -/
def laneReduce (d a : Nat) (f : Word → Word → Vec → Vec) (s : State) : Answer :=
  plain s (usesV [d] [a]) noCheck fun _ g => g.writeV s.clk 2 d (f g.fmt g.exec (g.vreg a))

/-- R125. -/
def execVraddF (d a : BitVec 7) (s : State) : Answer :=
  laneReduce d.toNat a.toNat (fun m e v => butterfly (laneAdd m) (reduceStart e 0x80000000 v)) s

/-- R125. -/
def execVrmaxF (d a : BitVec 7) (s : State) : Answer :=
  laneReduce d.toNat a.toNat (fun _ e v => butterfly f32Max (reduceStart e 0x7FC00000 v)) s

/-- R125. -/
def execVscanF (d a : BitVec 7) (s : State) : Answer :=
  laneReduce d.toNat a.toNat (fun m e v => scanUp (laneAdd m) (reduceStart e 0x80000000 v)) s

/-- R126: a scalar to every lane in exec. -/
def execVbcs (d : BitVec 7) (r : BitVec 6) (s : State) : Answer :=
  plain s { vN := [d.toNat], sN := [r.toNat], vR := [], sR := [r.toNat] } noCheck fun _ g =>
    g.writeV s.clk 1 d.toNat (vmk fun _ => g.sreg r.toNat)

/-- R126: lane imm of the register in the vd field to a scalar, whatever exec holds. -/
def execVmovsl (a : BitVec 7) (r : BitVec 6) (i : BitVec 5) (s : State) : Answer :=
  plain s { vN := [a.toNat], sN := [r.toNat], vR := [a.toNat], sR := [] } noCheck fun _ g =>
    g.writeS s.clk 1 r.toNat (g.vlane a.toNat i.toNat)

/-- R126: each lane's own index. -/
def execVlaneid (d : BitVec 7) (s : State) : Answer :=
  plain s (usesV [d.toNat] []) noCheck fun _ g => g.writeV s.clk 1 d.toNat (vmk fun l => BitVec.ofNat 32 l)

/-- R126: a scalar into lane imm, if that lane is in exec. -/
def execVsetl (d : BitVec 7) (r : BitVec 6) (i : BitVec 5) (s : State) : Answer :=
  plain s { vN := [d.toNat], sN := [r.toNat], vR := [], sR := [r.toNat] } noCheck fun _ g =>
    if g.exec.getLsbD i.toNat then g.setV d.toNat (BitVec.ofNat 32 (2 ^ i.toNat)) (vmk fun _ => g.sreg r.toNat) else g

end Sys2Proof.Machine
end

