-- ==== Sys2Proof/Machine/Scalar.lean ====
section
/-!
DEFINITION. Scalar arithmetic: SALU (R80), SIMM (R81) and SLUI (R82).
-/

namespace Sys2Proof.Machine

/-- A two-operand scalar function of latency n. -/
def scaBin (n d a b : Nat) (f : Word → Word → Word) (s : State) : Answer :=
  plain s (usesS [d] [a, b]) noCheck fun _ g => g.writeS s.clk n d (f (g.sreg a) (g.sreg b))

/-- A one-operand scalar function. -/
def scaUn (d a : Nat) (f : Word → Word) (s : State) : Answer :=
  plain s (usesS [d] [a]) noCheck fun _ g => g.writeS s.clk 1 d (f (g.sreg a))

/-- A scalar function that reads its destination as a source: f sd sa sb. -/
def scaTern (d a b : Nat) (f : Word → Word → Word → Word) (s : State) : Answer :=
  plain s (usesS [d] [a, b, d]) noCheck fun _ g => g.writeS s.clk 1 d (f (g.sreg d) (g.sreg a) (g.sreg b))

/-- Trailing zero bits of a word. -/
def ctz32 (x : Word) : Nat := ((List.range 32).find? (fun b => x.getLsbD b)).getD 32

/-- pos and wid of SBFE and SBFI. -/
def fieldPos (b : Word) : Nat := b.toNat % 32
def fieldWid (b : Word) : Nat := b.toNat / 32 % 32 + 1

def bitExtract (a b : Word) : Word := BitVec.ofNat 32 (a.toNat / 2 ^ fieldPos b % 2 ^ fieldWid b)

def bitInsert (d a b : Word) : Word :=
  let mask := BitVec.ofNat 32 ((2 ^ fieldWid b - 1) * 2 ^ fieldPos b)
  (d &&& ~~~ mask) ||| ((a <<< fieldPos b) &&& mask)

/-- A 64-bit function of two pairs (R20): an odd register traps ILLEGAL_OPERAND. -/
def scaPair (d a b : Nat) (f : BitVec 64 → BitVec 64 → BitVec 64) (s : State) : Answer :=
  plain s (usesS (pairRegs d) (pairRegs a ++ pairRegs b))
    (fun _ _ => firstCause [(decide (d % 2 = 1) || decide (a % 2 = 1) || decide (b % 2 = 1), cIllegalOperand)])
    fun _ g => g.setPair d (f (g.pair a) (g.pair b))

/-- A 64-bit shift of a pair by sb[5:0]. -/
def scaPairShift (d a b : Nat) (f : BitVec 64 → Nat → BitVec 64) (s : State) : Answer :=
  plain s (usesS (pairRegs d) (pairRegs a ++ [b]))
    (fun _ _ => firstCause [(decide (d % 2 = 1) || decide (a % 2 = 1), cIllegalOperand)])
    fun _ g => g.setPair d (f (g.pair a) ((g.sreg b).toNat % 64))

def boolWord (b : Bool) : Word := if b then 1 else 0

/-- R80, Table A.38. -/
def execSadd (d a b : BitVec 6) (s : State) : Answer :=
  scaBin 1 d.toNat a.toNat b.toNat (fun x y => x + y) s

/-- R80, Table A.38. -/
def execSsub (d a b : BitVec 6) (s : State) : Answer :=
  scaBin 1 d.toNat a.toNat b.toNat (fun x y => x - y) s

/-- R80, Table A.38. -/
def execSmul (d a b : BitVec 6) (s : State) : Answer :=
  scaBin 2 d.toNat a.toNat b.toNat (fun x y => x * y) s

/-- R80, Table A.38. -/
def execSmulhs (d a b : BitVec 6) (s : State) : Answer :=
  scaBin 2 d.toNat a.toNat b.toNat mulhiS s

/-- R80, Table A.38. -/
def execSmulhz (d a b : BitVec 6) (s : State) : Answer :=
  scaBin 2 d.toNat a.toNat b.toNat mulhiZ s

/-- R80, Table A.38. -/
def execSand (d a b : BitVec 6) (s : State) : Answer :=
  scaBin 1 d.toNat a.toNat b.toNat (fun x y => x &&& y) s

/-- R80, Table A.38. -/
def execSor (d a b : BitVec 6) (s : State) : Answer :=
  scaBin 1 d.toNat a.toNat b.toNat (fun x y => x ||| y) s

/-- R80, Table A.38. -/
def execSxor (d a b : BitVec 6) (s : State) : Answer :=
  scaBin 1 d.toNat a.toNat b.toNat (fun x y => x ^^^ y) s

/-- R80, Table A.38. -/
def execSandn (d a b : BitVec 6) (s : State) : Answer :=
  scaBin 1 d.toNat a.toNat b.toNat (fun x y => x &&& ~~~ y) s

/-- R80, Table A.38. -/
def execSshl (d a b : BitVec 6) (s : State) : Answer :=
  scaBin 1 d.toNat a.toNat b.toNat shl5 s

/-- R80, Table A.38. -/
def execSshrz (d a b : BitVec 6) (s : State) : Answer :=
  scaBin 1 d.toNat a.toNat b.toNat shrz5 s

/-- R80, Table A.38. -/
def execSshrs (d a b : BitVec 6) (s : State) : Answer :=
  scaBin 1 d.toNat a.toNat b.toNat shrs5 s

/-- R80, Table A.38. -/
def execSmins (d a b : BitVec 6) (s : State) : Answer :=
  scaBin 1 d.toNat a.toNat b.toNat smin s

/-- R80, Table A.38. -/
def execSmaxs (d a b : BitVec 6) (s : State) : Answer :=
  scaBin 1 d.toNat a.toNat b.toNat smax s

/-- R80, Table A.38. -/
def execSminz (d a b : BitVec 6) (s : State) : Answer :=
  scaBin 1 d.toNat a.toNat b.toNat zmin s

/-- R80, Table A.38. -/
def execSmaxz (d a b : BitVec 6) (s : State) : Answer :=
  scaBin 1 d.toNat a.toNat b.toNat zmax s

/-- R80, Table A.38. -/
def execSslts (d a b : BitVec 6) (s : State) : Answer :=
  scaBin 1 d.toNat a.toNat b.toNat (fun x y => boolWord (decide (x.toInt < y.toInt))) s

/-- R80, Table A.38. -/
def execSsltz (d a b : BitVec 6) (s : State) : Answer :=
  scaBin 1 d.toNat a.toNat b.toNat (fun x y => boolWord (decide (x.toNat < y.toNat))) s

/-- R80, Table A.38. -/
def execSseq (d a b : BitVec 6) (s : State) : Answer :=
  scaBin 1 d.toNat a.toNat b.toNat (fun x y => boolWord (x == y)) s

/-- R80, Table A.38. -/
def execSbfe (d a b : BitVec 6) (s : State) : Answer :=
  scaBin 1 d.toNat a.toNat b.toNat bitExtract s

/-- R80, Table A.38. -/
def execSpopc (d a : BitVec 6) (s : State) : Answer :=
  scaUn d.toNat a.toNat (fun x => BitVec.ofNat 32 (popcount x)) s

/-- R80, Table A.38. -/
def execSctz (d a : BitVec 6) (s : State) : Answer :=
  scaUn d.toNat a.toNat (fun x => BitVec.ofNat 32 (ctz32 x)) s

/-- R80, Table A.38. -/
def execSclz (d a : BitVec 6) (s : State) : Answer :=
  scaUn d.toNat a.toNat (fun x => BitVec.ofNat 32 (clz32 x)) s

/-- R80, Table A.38: sd is read as a source. -/
def execSbfi (d a b : BitVec 6) (s : State) : Answer :=
  scaTern d.toNat a.toNat b.toNat bitInsert s

/-- R80, Table A.38: sd is read as a source. -/
def execSsel (d a b : BitVec 6) (s : State) : Answer :=
  scaTern d.toNat a.toNat b.toNat (fun x y z => if x ≠ 0 then y else z) s

/-- R80, Table A.38: pairs. -/
def execSadd64 (d a b : BitVec 6) (s : State) : Answer :=
  scaPair d.toNat a.toNat b.toNat (fun x y => x + y) s

/-- R80, Table A.38: pairs. -/
def execSsub64 (d a b : BitVec 6) (s : State) : Answer :=
  scaPair d.toNat a.toNat b.toNat (fun x y => x - y) s

/-- R80, Table A.38: pairs. -/
def execSshl64 (d a b : BitVec 6) (s : State) : Answer :=
  scaPairShift d.toNat a.toNat b.toNat (fun x n => x <<< n) s

/-- R80, Table A.38: pairs. -/
def execSshrz64 (d a b : BitVec 6) (s : State) : Answer :=
  scaPairShift d.toNat a.toNat b.toNat (fun x n => x >>> n) s

/-- An immediate scalar function (R81). -/
def scaImm (d a : Nat) (imm : Issue → Word) (f : Word → Word → Word) (s : State) : Answer :=
  plain s (usesS [d] [a]) noCheck fun i g => g.writeS s.clk 1 d (f (g.sreg a) (imm i))

/-- R81. -/
def execSaddi (d a : BitVec 6) (i : BitVec 10) (s : State) : Answer :=
  scaImm d.toNat a.toNat (fun q => q.imm10s i) (fun x y => x + y) s

/-- R81. -/
def execSandi (d a : BitVec 6) (i : BitVec 10) (s : State) : Answer :=
  scaImm d.toNat a.toNat (fun q => q.imm10z i) (fun x y => x &&& y) s

/-- R81. -/
def execSori (d a : BitVec 6) (i : BitVec 10) (s : State) : Answer :=
  scaImm d.toNat a.toNat (fun q => q.imm10z i) (fun x y => x ||| y) s

/-- R81. -/
def execSxori (d a : BitVec 6) (i : BitVec 10) (s : State) : Answer :=
  scaImm d.toNat a.toNat (fun q => q.imm10z i) (fun x y => x ^^^ y) s

/-- SLUI (R82): x[23:14] of an EXT before it must be 0 (Table A.23). -/
def execSlui (d : BitVec 6) (v : BitVec 18) (s : State) : Answer :=
  plain s (usesS [d.toNat] []) (fun i _ => firstCause [(decide (2 ^ 14 ≤ i.x), cIllegalOperand)]) fun i g =>
    g.writeS s.clk 1 d.toNat (i.imm18 v)

end Sys2Proof.Machine
end

