-- ==== Sys2Proof/Machine/Wake.lean ====
section
/-!
DEFINITION. Waits that end (item 3 of R205): counters, tokens, fences, commits, barriers and their waves.
-/

namespace Sys2Proof.Machine

/-- A group's view of a barrier. -/
def Group.bar (g : Group) (b : Nat) : GBar := g.bars.getD b { arr := none, arrId := 0, obs := 0 }
def Group.putBar (g : Group) (b : Nat) (x : GBar) : Group := { g with bars := g.bars.set b x }

/-- A barrier that expects n groups, with no arrival yet (R152). -/
def Barrier.fresh (n : Nat) : Barrier :=
  { expect := n, isSet := false, arrived := 0, gen := 0, reach := 0, opens := [], seen := 0, seenP := 0 }

/-- A team's barrier. -/
def Team.bar (t : Team) (b : Nat) : Barrier := t.bars.getD b (Barrier.fresh 0)
def Team.putBar (t : Team) (b : Nat) (x : Barrier) : Team := { t with bars := t.bars.set b x }

/-- Groups released by an opening that their core sees at a clk, in waves of W every D clk under the CSLR of the team's
cluster, in ascending order (R155). (Log entry 127 DESIGN CHOICE.) -/
def State.waves (s : State) (t : Team) (scope from_ : Nat) (waits : Group → Bool) : State :=
  let c := s.cslr t.cluster
  let due := (s.groups.filter fun g => g.tid == t.tid && waits g).mapIdx fun i g =>
    (g.gid, from_ + i / (c.wave + 1) * c.space)
  { s with groups := s.groups.map fun g =>
      match due.find? (fun e => e.1 == g.gid) with
      | some e => { g with wait := .wave e.2 scope }
      | none => g }

/-- Whether a group is on its team's home core. -/
def Team.atHome (t : Team) (g : Group) : Bool := coreOf g.die g.core == t.home

/-- Groups released by an opening at a clk: the home core's waves from then on, the partner core's from 8 clk later (R155,
R212).  Waves are numbered for each team and core. (Log entry 127 DESIGN CHOICE.) -/
def State.releaseWaves (s : State) (t : Team) (scope at_ : Nat) (waits : Group → Bool) : State :=
  (s.waves t scope at_ fun g => waits g && t.atHome g).waves t scope (at_ + 8) fun g => waits g && !t.atHome g

/-- The stream past the word at its pc, with the end check of its loops (R93, R191). -/
def Stream.advance (m : Stream) : Stream :=
  { m with
    wait := MWait.none
    pc := (endCheck m.loops m.pc (m.pc + 4)).2
    loops := (endCheck m.loops m.pc (m.pc + 4)).1 }

/-- The clk by which every fixed-latency write that the team's groups have issued has landed. -/
def State.landedBy (s : State) (tid : Nat) : Nat :=
  ((s.groups.filter (fun g => g.tid == tid)).flatMap (fun g => g.landing.map Landing.due)).foldl max 0

/-- The stream passes an MWAITB on a barrier of generation `gen` (R153, R192): it issues again once the writes before
the arrivals have landed. -/
def Stream.pass (m : Stream) (b : Nat) (gen : Word) (ready : Nat) : Stream :=
  { m.advance with obs := m.obs.set b gen, readyAt := max m.readyAt ready }

/-- A matrix stream that waits on a barrier sees it open and goes on past its MWAITB (R191). -/
def Stream.open (m : Stream) (b : Nat) (gen : Word) (ready : Nat) : Stream :=
  if m.wait == MWait.bar b then m.pass b gen ready else m

def Team.openStream (t : Team) (b : Nat) (gen : Word) (ready : Nat) : Team :=
  { t with stream := t.stream.map fun m => m.open b gen ready }

/-- open(b) of R153: a new generation, in which later arrivals count.  What waits sees it in the next clk, on a partner
core 8 clk later (R212). (Log entry 129 DEDUCED.) -/
def State.openBarrier (s : State) (tid b : Nat) : State :=
  match s.team? tid with
  | none => s
  | some t =>
    let x := t.bar b
    let o := fun (p : Bool) (d : Nat) => { due := s.clk + d, partner := p, gen := x.gen + 1 : Opening }
    s.putTeam (t.putBar b { x with
      gen := x.gen + 1, arrived := 0,
      opens := x.opens ++ (o false 1 :: if t.home = t.partner then [] else [o true 9]) })

/-- The generation that a wait of a group sees. -/
def Team.seenGen (t : Team) (g : Group) (b : Nat) : Word := if t.atHome g then (t.bar b).seen else (t.bar b).seenP

/-- An opening that is due is seen on its core (R212): the groups waiting there are released by R155, and at the home core
the matrix stream at once. (Log entry 129 DEDUCED.) -/
def State.showOpening (s : State) (t : Team) (b : Nat) (o : Opening) : State :=
  let x := t.bar b
  let x : Barrier := { x with opens := x.opens.erase o }
  let mine := fun (g : Group) => g.tid == t.tid && g.wait == Wait.barw b && t.atHome g != o.partner
  let t := if o.partner then t.putBar b { x with seenP := o.gen }
    else (t.putBar b { x with seen := o.gen }).openStream b o.gen (s.landedBy t.tid)
  let s : State := { s.putTeam t with
    groups := s.groups.map fun g => if mine g then g.putBar b { g.bar b with obs := o.gen } else g }
  s.waves t 0 s.clk mine

/-- Whether the barrier's count is complete and the release of every counted arrival is performed (R153). -/
def State.barrierReady (s : State) (t : Team) (b : Nat) : Bool :=
  let x := t.bar b
  decide (0 < x.expect) && decide (x.expect ≤ x.arrived) && decide (x.reach ≤ s.clk) &&
    s.groups.all fun g =>
      !(g.tid == t.tid && (g.bar b).arr == some x.gen) || s.performedAt g.gid (g.bar b).arrId 0

/-- The copy token of a team. -/
def Team.token (t : Team) (k : Nat) : Token :=
  t.tokens.getD k { state := 0, landed := 0, skipped := false, cardLoc := 0, cardSpad := false, card := [], job := 0 }

/-- Whether a store is a write to another plane region than p, which a step of p does not wait for (R248). -/
def Store.otherRegion (x : Store) (p : Nat) : Bool :=
  match x.tgt with
  | .plane _ r _ _ _ => r != p
  | .mem _ => false

/-- Whether a group's arrival at a step of region p can be made (R185, R236, R248): its writes of the region and its
stores, atomics and scratchpad writes are performed at TEAM, and its reads of the region have been taken. -/
def State.stepReady (s : State) (g : Group) (p : Nat) : Bool :=
  s.stores.all (fun x => !(x.gid == g.gid && decide (x.reach.num < x.reachAt 0)) || x.otherRegion p)
    && g.acc.all fun a => !a.pendingAtomic && !(a.kind == .pld && a.op == p && a.pendingRead)

/-- Whether what a group waits for has come about; waves, check phases, delays, grid barriers and plane steps end by
steps of their own. -/
def State.waitOver (s : State) (g : Group) : Bool :=
  match g.wait with
  | .waitcnt p n => decide (g.count p ≤ n)
  | .waitk k =>
    (match s.team? g.tid with
     | some t => (t.token k).state != 1
     | none => true)
  | .fence scope kind upTo =>
    (kind == 1 || s.performedAt g.gid upTo scope)
      && (kind == 2 || g.acc.all (fun a => !(decide (a.id < upTo) && a.fenceWaits)))
  | .commit turn _ =>
    (match s.team? g.tid with
     | some t => decide (turn / 8 < s.clk) && t.held.all (fun h => !decide (h.turn < turn))
     | none => true)
  | .barw b =>
    (match s.team? g.tid with
     | some t => t.seenGen g b != (g.bar b).obs
     | none => false)
  | .bind q _ => g.acc.all (fun a => !(a.op == q && (a.kind == .qget || a.kind == .qtry || a.kind == .qtryp)))
  | .pstep p none => s.stepReady g p
  | .retry scope => s.performedAt g.gid s.nextId scope
  | .joined => s.joinClear g.gid g.epoch
  | _ => false

/-- The per-lane records of a poison report: the access's addresses (R132). -/
def PoisonRec.fails (p : PoisonRec) : List LaneFail :=
  p.lanes.map fun l =>
    { lane := if p.scalar then 0 else l.lane, va := l.va, cause := p.cause, access := p.access, width := p.width,
      firstTouch := false, parkable := false, mapId := l.lost.getD 0 }

/-- POISON at the instruction a group waits in (R132): its records name the access's addresses and pc, EPC is the
waiting instruction, and EMASK the poisoned lanes. -/
def State.poisonTrap (s : State) (g : Group) (p : PoisonRec) : State :=
  let g : Group := { g with poison := g.poison.erase p }
  let s := s.writeFails g p.pc p.fails
  s.trapEntry g p.cause 0 g.pc (failMask p.fails) (s.faultBlock g) true

/-- A wait that is over ends: the instruction completes, with the acquire it carries. -/
def State.endWait (s : State) (g : Group) (len : Nat) : State :=
  match g.wait with
  | .waitcnt p _ =>
    (match g.poison.find? (fun r => r.path == p) with
     | some r => s.poisonTrap g r
     | none => s.putGroup (g.advance len))
  | .waitk _ => s.putGroup ((s.acquired g 3).advance len)
  | .fence scope kind _ => s.putGroup ((if kind = 2 then g else s.acquired g scope).advance len)
  | .commit turn isEnd =>
    let s := match s.team? g.tid with
      | some t => s.putTeam { t with releasing := t.releasing.filter (fun r => r.1 ≠ turn) }
      | none => s
    if isEnd then s.putGroup { g with wait := .endDrain } else s.putGroup (g.advance len)
  | .barw b =>
    (match s.team? g.tid with
     | some t => s.putGroup ((s.acquired (g.putBar b { g.bar b with obs := t.seenGen g b }) 0).advance len)
     | none => s)
  | .bind q new => s.putGroup ({ g with q := g.q.set q new }.advance len)
  | .pstep p none => s.putGroup { g with wait := .pstep p (some s.clk) }
  | .retry _ => s.putGroup { g with wait := .none }
  | .joined => s.putGroup { g with wait := .none }
  | _ => s

/-- Every instruction that waits this way is one word of four bytes (R56 gives none of them an EXT). -/
def State.wake (s : State) (gid : Nat) : State :=
  match s.awake? gid with
  | none => s
  | some g => if s.waitOver g then s.endWait g 4 else s

/-- Every group of a team looked at in ascending order. -/
def State.wakeTeam (s : State) (tid : Nat) : State :=
  s.each ((s.groups.filter (fun g => g.tid == tid)).map Group.gid) State.wake

end Sys2Proof.Machine
end

