-- ==== Sys2Proof/Machine/Branch.lean ====
section
/-!
DEFINITION. Control flow: BR (R83), calls and returns (R84 to R86), divergence (R88, R89) and LOOP (R92).
-/

namespace Sys2Proof.Machine

/-- A control transfer: the effect leaves the program counter where it goes next. -/
def transfer (s : State) (u : Uses) (more : Issue → Group → Option Nat) (eff : Issue → Group → Group) : Answer :=
  instr s u more fun i g => s.putGroup ((eff i g).stamp s.clk i.sc)

/-- A taken BR, JMPR or RET to a target (R94, R100). -/
def Group.jump (g : Group) (len : Nat) (t : Word) : Group :=
  ({ g with loops := popLoops t g.loops }.restore t).goto len t

/-- A taken CALL, CALLR or DBR to a target: the loop stack stays (R94). -/
def Group.enter (g : Group) (len : Nat) (t : Word) : Group := (g.restore t).goto len t

/-- BR (R83). -/
def branch (srcs : List Nat) (take : Group → Bool) (o : BitVec 14) (s : State) : Answer :=
  transfer s (usesS [] srcs) noCheck fun i g =>
    if take g then g.jump i.len (i.target14 g.pc o) else g.advance i.len

/-- R83. -/
def execBrAlways (o : BitVec 14) (s : State) : Answer := branch [] (fun _ => true) o s
/-- R83. -/
def execBrSz (a : BitVec 6) (o : BitVec 14) (s : State) : Answer := branch [a.toNat] (fun g => g.sreg a.toNat == 0) o s
/-- R83. -/
def execBrSnz (a : BitVec 6) (o : BitVec 14) (s : State) : Answer := branch [a.toNat] (fun g => g.sreg a.toNat != 0) o s
/-- R83. -/
def execBrSneg (a : BitVec 6) (o : BitVec 14) (s : State) : Answer := branch [a.toNat] (fun g => (g.sreg a.toNat).msb) o s
/-- R83. -/
def execBrSnneg (a : BitVec 6) (o : BitVec 14) (s : State) : Answer := branch [a.toNat] (fun g => !(g.sreg a.toNat).msb) o s
/-- R83. -/
def execBrExecz (o : BitVec 14) (s : State) : Answer := branch [] (fun g => g.exec == 0) o s
/-- R83. -/
def execBrExecnz (o : BitVec 14) (s : State) : Answer := branch [] (fun g => g.exec != 0) o s
/-- R83. -/
def execBrExecall (o : BitVec 14) (s : State) : Answer := branch [] (fun g => g.exec == 0xFFFFFFFF) o s

/-- CALL (R84): s61 takes the address of the next instruction. -/
def execCall (o : BitVec 24) (s : State) : Answer :=
  transfer s (usesS [61] []) (fun _ g => firstCause [(g.depth == 255, cPathOverflow)])
    fun i g => ({ g.setS 61 (i.after g.pc) with depth := g.depth + 1 }.enter i.len (i.target24 g.pc o))

/-- CALLR (R84). -/
def execCallr (a : BitVec 6) (s : State) : Answer :=
  transfer s (usesS [61] [a.toNat])
    (fun _ g => firstCause [(g.depth == 255, cPathOverflow), ((g.sreg a.toNat).getLsbD 0, cMisaligned)])
    fun i g => ({ g.setS 61 (i.after g.pc) with depth := g.depth + 1 }.enter i.len (g.sreg a.toNat))

/-- RET (R85). -/
def execRet (s : State) : Answer :=
  transfer s (usesS [] [61])
    (fun _ g => firstCause
      [(g.depth == 0, cPathUnbalanced),
       ((match g.path with
         | e :: _ => e.depth == g.depth
         | [] => false), cPathUnbalanced),
       ((g.sreg 61).getLsbD 0, cMisaligned)])
    fun i g => { g with depth := g.depth - 1 }.jump i.len (g.sreg 61)

/-- JMPR (R86). -/
def execJmpr (a : BitVec 6) (s : State) : Answer :=
  transfer s (usesS [] [a.toNat]) (fun _ g => firstCause [((g.sreg a.toNat).getLsbD 0, cMisaligned)])
    fun i g => g.jump i.len (g.sreg a.toNat)

/-- DBR and DBR.T (R88): lanes split on a mask, or U rises when all go one way. -/
def divBranch (taken : Bool) (a : BitVec 6) (o : BitVec 14) (s : State) : Answer :=
  transfer s (usesS [] [a.toNat])
    (fun _ g =>
      let t := g.exec &&& g.sreg a.toNat
      let f := g.exec &&& ~~~ g.sreg a.toNat
      if t = 0 ∨ f = 0 then firstCause [(g.u == 255, cPathOverflow)]
      else firstCause [(decide (14 < g.path.length), cPathOverflow)])
    fun i g =>
      let t := g.exec &&& g.sreg a.toNat
      let f := g.exec &&& ~~~ g.sreg a.toNat
      let tgt := i.target14 g.pc o
      let nxt := i.after g.pc
      if t = 0 ∨ f = 0 then
        (let g : Group := { g with u := g.u + 1 }
         if t ≠ 0 then g.enter i.len tgt else g.advance i.len)
      else
        let re : PathEntry :=
          { rejoin := true, pc := BitVec.ofNat 32 g.u, mask := g.exec, fmt := g.fmt, depth := g.depth }
        if taken then
          let pe : PathEntry := { rejoin := false, pc := nxt, mask := f, fmt := g.fmt, depth := g.depth }
          { g with path := pe :: re :: g.path, exec := t, u := 0 }.enter i.len tgt
        else
          let pe : PathEntry := { rejoin := false, pc := tgt, mask := t, fmt := g.fmt, depth := g.depth }
          { g with path := pe :: re :: g.path, exec := f, u := 0 }.advance i.len

/-- R88: the not-taken path runs first. -/
def execDbr (a : BitVec 6) (o : BitVec 14) (s : State) : Answer := divBranch false a o s
/-- R88: the taken path runs first. -/
def execDbrT (a : BitVec 6) (o : BitVec 14) (s : State) : Answer := divBranch true a o s

/-- JOIN (R89); one that pops an entry begins a new epoch of the group's accesses (R233). -/
def execJoin (s : State) : Answer :=
  transfer s usesNone
    (fun _ g =>
      if 0 < g.u then none
      else match g.path with
        | [] => some cPathUnbalanced
        | e :: _ => if e.depth = g.depth then none else some cPathDepth)
    fun i g =>
      if 0 < g.u then { g with u := g.u - 1 }.advance i.len
      else match g.path with
        | [] => g
        | e :: r =>
          let g : Group := { g with path := r, exec := e.mask, fmt := e.fmt, epoch := g.epoch + 1 }
          if e.rejoin then { g with u := e.pc.toNat % 256 }.advance i.len
          else g.goto i.len e.pc

/-- The count of a LOOP: sa, or imm8 when sa is s0. -/
def loopCount (g : Group) (a : BitVec 6) (i : BitVec 8) : Word := if a = 0 then i.zeroExtend 32 else g.sreg a.toNat

/-- LOOP (R92).  A count of 0 skips the body, past the instruction at the end, whose length is fetched; on a page that
moves the fetch waits (R311). (Log entry 22 DEDUCED.) -/
def execLoop (a : BitVec 6) (n : BitVec 8) (e : BitVec 10) (s : State) : Answer :=
  instr s (usesS [] [a.toNat])
    (fun i g =>
      let stop := g.pc + 2 * i.end10 e
      if stop.toNat < (i.after g.pc).toNat then some cIllegalOperand
      else if loopCount g a n = 0 then
        (match s.lenAt g stop with
         | .ok _ => none
         | .error c => if s.lenWaits g stop then none else some c)
      else if g.loops.length = 4 then some cLoopOverflow
      else none)
    fun i g =>
      let stop := g.pc + 2 * i.end10 e
      if loopCount g a n = 0 then
        (match s.lenAt g stop with
         | .ok len => s.putGroup ((g.stamp s.clk i.sc).goto i.len (stop + BitVec.ofNat 32 len))
         | .error _ => s.again g)
      else
        let g := g.stamp s.clk i.sc
        s.putGroup ({ g with loops := { start := i.after g.pc, stop := stop, count := loopCount g a n } :: g.loops }.goto i.len
          (i.after g.pc))

end Sys2Proof.Machine
end

