-- ==== Sys2Proof/Machine/System.lean ====
section
/-!
DEFINITION. System instructions: exec, fmt and special registers (R96, R97), waiting and priority (R98 to R100),
ending and committing (R101, R102), LAUNCH (R103), guards (R104), traps (R105), ERET (R107) and FPOST (R108).
-/

namespace Sys2Proof.Machine

/-- NOP (R98). -/
def execNop (s : State) : Answer := plain s usesNone noCheck fun _ g => g

/-- DLY (R98): it has completed when its wait begins; the wait adds to its own SC. -/
def execDly (a : BitVec 6) (v : BitVec 12) (s : State) : Answer :=
  instr s (usesS [] [a.toNat]) noCheck fun i g =>
    let n := (g.sreg a.toNat + i.imm12 v).toNat
    let g' := (g.stamp s.clk i.sc).advance i.len
    s.putGroup (if n = 0 then g' else { g' with wait := .dly (g'.readyAt + 4 * n) })

/-! ### exec and fmt (R96) -/

/-- R96. -/
def execSexec (a : BitVec 6) (s : State) : Answer :=
  plain s (usesS [] [a.toNat]) noCheck fun _ g => { g with exec := g.sreg a.toNat }
/-- R96. -/
def execSexecand (a : BitVec 6) (s : State) : Answer :=
  plain s (usesS [] [a.toNat]) noCheck fun _ g => { g with exec := g.exec &&& g.sreg a.toNat }
/-- R96. -/
def execSexecandn (a : BitVec 6) (s : State) : Answer :=
  plain s (usesS [] [a.toNat]) noCheck fun _ g => { g with exec := g.exec &&& ~~~ g.sreg a.toNat }
/-- R96. -/
def execSgetexec (d : BitVec 6) (s : State) : Answer :=
  plain s (usesS [d.toNat] []) noCheck fun _ g => g.setS d.toNat g.exec
/-- R96: fmt stays when the value breaks R23 or R24. -/
def execFmtset (a : BitVec 6) (s : State) : Answer :=
  plain s (usesS [] [a.toNat]) (fun _ g => firstCause [(!fmtOk (g.sreg a.toNat), cIllegalOperand)]) fun _ g =>
    { g with fmt := g.sreg a.toNat }
/-- R96. -/
def execFmtget (d : BitVec 6) (s : State) : Answer :=
  plain s (usesS [d.toNat] []) noCheck fun _ g => g.setS d.toNat g.fmt

/-! ### Special registers (Table A.5) -/

/-- The registers that only supervisor code may name, those an SWR may write, and those listed at all. -/
def srSupervisor (x : Nat) : Bool := decide (0x20 ≤ x) && decide (x ≤ 0x23)
def srWritable (x : Nat) : Bool := decide (0x18 ≤ x) && decide (x ≤ 0x1A) || srSupervisor x
def srListed (x : Nat) : Bool :=
  decide (x ≤ 0x0C) || (decide (0x10 ≤ x) && decide (x ≤ 0x12)) || (decide (0x18 ≤ x) && decide (x ≤ 0x1C))
    || srSupervisor x

/-- The value of a special register. (Log entries 8 DESIGN CHOICE, 10 DEDUCED.) -/
def State.special (s : State) (g : Group) (x : Nat) : Word :=
  match x with
  | 0x00 => BitVec.ofNat 32 g.grp
  | 0x01 => g.teamX
  | 0x02 => g.teamY
  | 0x03 => g.teamZ
  | 0x04 => g.nteamX
  | 0x05 => g.nteamY
  | 0x06 => g.nteamZ
  | 0x07 => BitVec.ofNat 32 g.tsize
  | 0x08 => BitVec.ofNat 32 g.core
  | 0x09 => BitVec.ofNat 32 (g.core / 4)
  | 0x0A => BitVec.ofNat 32 g.die
  | 0x0B => BitVec.ofNat 32 g.ctx
  | 0x0C => BitVec.ofNat 32 g.nest
  | 0x10 => BitVec.ofNat 32 s.clk
  | 0x11 => g.clkh
  | 0x12 => BitVec.ofNat 32 (s.clk / 940)
  | 0x18 => g.seed
  | 0x19 => boolWord g.schk
  | 0x1A => BitVec.ofNat 32 g.prio
  | 0x1B => BitVec.ofNat 32 g.path.length
  | 0x1C => BitVec.ofNat 32 g.loops.length
  | 0x20 => g.epc
  | 0x21 => g.ecause
  | 0x22 => g.emask
  | 0x23 => BitVec.ofNat 32 g.frec
  | _ => 0

/-- SRD (R97): a read of CLK latches the high half of the count (R39). -/
def execSrd (d x : BitVec 6) (s : State) : Answer :=
  plain s (usesS [d.toNat] [])
    (fun _ g => firstCause [(srSupervisor x.toNat && !g.super, cProtection), (!srListed x.toNat, cIllegalOperand)])
    fun _ g =>
      let v := s.special g x.toNat
      let g := if x = 0x10 then { g with clkh := BitVec.ofNat 32 (s.clk / 2 ^ 32) } else g
      g.setS d.toNat v

/-- Values that an SWR refuses (R40, R41, Table A.5). -/
def srRefuses (x : Nat) (v : Word) : Bool :=
  match x with
  | 0x18 => v == 0
  | 0x19 => decide (1 < v.toNat)
  | 0x1A => decide (7 < v.toNat)
  | 0x21 => decide (2 ^ 26 ≤ v.toNat)
  | _ => false

/-- A special register written.  PRIO is held to the context's ceiling, and its write clears the BACKOFF lowering
(R41). (Log entries 10 DEDUCED, 117 DEDUCED.) -/
def State.setSpecial (s : State) (g : Group) (x : Nat) (v : Word) : Group :=
  match x with
  | 0x18 => { g with seed := v }
  | 0x19 => { g with schk := v.getLsbD 0 }
  | 0x1A =>
    let ceil := match s.ctx? g.ctx with
      | some c => c.pceil
      | none => 7
    { g with prio := min v.toNat ceil, lower := 0 }
  | 0x20 => { g with epc := v }
  | 0x21 => { g with ecause := v }
  | 0x22 => { g with emask := v }
  | 0x23 => { g with frec := g.frec / 2 ^ 32 * 2 ^ 32 + v.toNat }
  | _ => g

/-- SWR (R97). -/
def execSwr (a x : BitVec 6) (s : State) : Answer :=
  plain s (usesS [] [a.toNat])
    (fun _ g => firstCause
      [(srSupervisor x.toNat && !g.super, cProtection),
       (!srWritable x.toNat || srRefuses x.toNat (g.sreg a.toNat), cIllegalOperand)])
    fun _ g => s.setSpecial g x.toNat (g.sreg a.toNat)

/-! ### Priority (R99, R100) -/

/-- YIELD (R99): it has completed when its hold begins. -/
def execYield (s : State) : Answer :=
  instr s usesNone noCheck fun i g => s.putGroup { (g.stamp s.clk i.sc).advance i.len with wait := .yield s.clk }

/-- BACKOFF (R100). -/
def execBackoff (s : State) : Answer :=
  plain s usesNone noCheck fun _ g => { g with lower := min 7 (g.lower + 1), anchor := some g.pc }

/-! ### Ending and committing -/

/-- The place of a group's issue in this clk among those of its team: by clk, then by issue slot, the home core before the
partner core (R35, R36). -/
def State.issueTurn (s : State) (g : Group) : Nat :=
  let far := match s.team? g.tid with
    | some t => coreOf g.die g.core != t.home
    | none => false
  8 * s.clk + 2 * (g.slot % 4) + (if far then 1 else 0)

/-- The committed mark of a COMMIT of identity `id` (R36): pops the team issued before it are final, and entries that
entered before it are to be released. -/
def State.markCommitted (s : State) (tid turn id : Nat) : State :=
  match s.team? tid with
  | none => s
  | some t =>
    { s.putTeam { t with committed := true, commitTurn := max t.commitTurn turn, releasing := t.releasing ++ [(turn, id)] } with
      queues := s.queues.map fun q =>
        { q with tents := q.tents.filter (fun x => !(x.tid == tid && decide (x.turn < turn))) } }

/-- COMMIT and the implicit COMMIT of END: the group then waits until the last entry that entered before it has been
released; one of a lower issue slot may still enter in this clk (R36). -/
def commitOp (isEnd : Bool) (s : State) : Answer :=
  instr s usesNone noCheck fun i g =>
    let (id, s) := s.newId
    let s := s.markCommitted g.tid (s.issueTurn g) id
    let g := g.stamp s.clk (if isEnd then 0 else i.sc)
    s.putGroup { g with wait := .commit (s.issueTurn g) isEnd }

/-- COMMIT (R102). -/
def execCommit (s : State) : Answer := commitOp false s
/-- END (R101): the group ends with GROUP_END, when its counters are 0. -/
def execEndI (s : State) : Answer := commitOp true s

/-- Entries of the commit buffer (R35). -/
def commitSlots : Nat := 64

/-- Whether a team's commit buffer is full (R35). -/
def State.commitFull (s : State) (tid : Nat) : Bool :=
  match s.team? tid with
  | some t => decide (commitSlots ≤ t.held.length)
  | none => false

/-- An entry at its place (R35). -/
def insertHeld (x : HeldEntry) : List HeldEntry → List HeldEntry
  | [] => [x]
  | y :: r => if x.turn < y.turn then x :: y :: r else y :: insertHeld x r

/-- An operation held in the team's commit buffer, in entry order (R35). -/
def State.hold (s : State) (g : Group) (what : Held) : State :=
  let (id, s) := s.newId
  match s.team? g.tid with
  | none => s
  | some t =>
    let e : HeldEntry := { id := id, turn := s.issueTurn g, gid := g.gid, pc := g.pc, exec := g.exec, what := what }
    s.putTeam { t with held := insertHeld e t.held }

/-- LAUNCH (R103). -/
def execLaunch (a b : BitVec 6) (s : State) : Answer :=
  instr s (usesS [] (pairRegs a.toNat ++ [b.toNat]))
    (fun _ g => firstCause
      [(decide (a.toNat % 2 = 1), cIllegalOperand), (decide (10 ≤ g.nest), cDepthLimit),
       (s.commitFull g.tid, cCommitFull)])
    fun i g =>
      let s := s.hold g (.kick [((g.pair a.toNat).toNat, g.sreg b.toNat)] g.nest)
      s.putGroup ((g.stamp s.clk i.sc).advance i.len)

/-! ### Guards (R29, R104) -/

/-- A guard of the group's team: 0 unresolved, 1 true, 2 false. -/
def State.guardOf (s : State) (g : Group) (k : Nat) : Nat :=
  match s.team? g.tid with
  | some t => t.guards.getD k 0
  | none => 0

def State.setGuard (s : State) (g : Group) (k v : Nat) : State :=
  match s.team? g.tid with
  | some t => s.putTeam { t with guards := t.guards.set k v }
  | none => s

/-- GSET (R104): resolving to true releases the group's stores at DEVICE first; the jobs that waited for the guard
leave their queue (R175). -/
def execGset (g : BitVec 4) (v : BitVec 2) (s : State) : Answer :=
  instr s usesNone
    (fun _ gr => firstCause
      [(v == 0 || v == 3, cIllegalOperand),
       (s.guardOf gr g.toNat != 0 && s.guardOf gr g.toNat != v.toNat, cIllegalOperand)])
    fun i gr =>
      let fresh := v = 1 ∧ s.guardOf gr g.toNat = 0
      let s := if fresh then s.release gr.gid s.nextId 3 else s
      let gr := (s.group? gr.gid).getD gr
      if fresh ∧ s.performedAt gr.gid s.nextId 3 = false then s.putGroup { gr with wait := .retry 3 }
      else
        let s := s.setGuard gr g.toNat v.toNat
        let n := match s.team? gr.tid with
          | some t => t.jobs.length
          | none => 0
        ((s.pumpJobs gr.tid n).putGroup ((gr.stamp s.clk i.sc).advance i.len)).wakeTeam gr.tid

/-- GCLR (R104). -/
def execGclr (g : BitVec 4) (s : State) : Answer :=
  instr s usesNone noCheck fun i gr =>
    let s := s.setGuard gr g.toNat 0
    s.putGroup ((gr.stamp s.clk i.sc).advance i.len)

/-! ### Traps, and the supervisor functions -/

/-- TRAP (R105). -/
def execTrap (v : BitVec 18) (s : State) : Answer :=
  instr s usesNone noCheck fun i g => s.trapCode g i.len cSoftware (v.zeroExtend 32)
/-- BRK (R105). -/
def execBrk (v : BitVec 18) (s : State) : Answer :=
  instr s usesNone noCheck fun i g => s.trapCode g i.len cBreak (v.zeroExtend 32)

/-- ERET (R107). An odd EPC is the odd target of a transfer (R43). With EMASK = 0 the length of the instruction at EPC
is fetched; on a page that moves the fetch waits (R311). (Log entry 117 DEDUCED.) -/
def execEret (s : State) : Answer :=
  instr s usesNone (fun _ g => firstCause
      [(!g.super, cProtection), (!g.inHandler, cIllegalOperand), (g.epc.getLsbD 0, cMisaligned)]) fun i g =>
    match g.handler with
    | some v =>
      if s.eretWaits g v then s.again g
      else s.eret (g.stamp s.clk i.sc) v
    | none => s

/-- The first address of the 64 KiB page of an address. -/
def page64 (va : Nat) : Nat := va / 0x10000 * 0x10000

/-- Bits of Table C.17 for an access code of Table C.15; 5 and 6 are a job's read and write. -/
def accessBits (code : Nat) : Nat :=
  match code with
  | 0 => 1
  | 1 => 2
  | 2 => 4
  | 3 => 8
  | 4 => 1
  | 5 => 17
  | _ => 18

/-- A range of merged faults (Table C.17): context, first page, pages, accesses, mapping, faults, groups. -/
structure FRange where
  ctx : Nat
  va : Nat
  pages : Nat
  access : Nat
  mapId : Nat
  count : Nat
  groups : List Nat
  deriving DecidableEq, Repr

/-- Posted faults in the order of context and address. -/
def insertFault (x : PostedFault) : List PostedFault → List PostedFault
  | [] => [x]
  | y :: r =>
    if x.ctx < y.ctx ∨ (x.ctx = y.ctx ∧ x.va < y.va) then x :: y :: r else y :: insertFault x r

/-- Sorted faults merged into ranges, the last range first (R308). -/
def mergeFault (rs : List FRange) (f : PostedFault) : List FRange :=
  let one : FRange := { ctx := f.ctx, va := page64 f.va, pages := 1, access := f.access, mapId := f.mapId, count := f.count,
                        groups := f.groups }
  match rs with
  | [] => [one]
  | r :: t =>
    let p := page64 f.va
    let same := r.ctx = f.ctx ∧ p + 0x10000 = r.va + 0x10000 * r.pages
    let next := r.ctx = f.ctx ∧ p = r.va + 0x10000 * r.pages ∧ r.pages < 65535
    if same ∨ next then
      { r with pages := if next then r.pages + 1 else r.pages, access := r.access ||| f.access, count := r.count + f.count,
               groups := dedup (r.groups ++ f.groups) } :: t
    else one :: r :: t

/-- A range record (Table C.17). -/
def FRange.bytes (r : FRange) (seq : Nat) : List Byte :=
  leBytes 8 r.va ++ leBytes 2 r.pages ++ leBytes 1 r.ctx ++ leBytes 1 r.access ++ leBytes 4 r.mapId ++ leBytes 4 r.count
    ++ leBytes 4 (dedup r.groups).length ++ leBytes 8 seq

/-- A record written to the host fault ring, or held and counted while the ring is full (R308). -/
def State.ringRecord (s : State) (b : List Byte) : State :=
  if s.fheld ≠ [] ∨ (s.fprod - s.fcons).toNat = 65408 then
    { s with fheld := s.fheld ++ [b], foverrun := s.foverrun + 1 }
  else
    let s := s.unitStore ⟨.dev, 0xFF00801000 + 32 * (s.fcount % 65408)⟩ b
    { s with fprod := s.fprod + 1, fcount := s.fcount + 1 }

/-- Held records written while the ring has room, at most n. -/
def State.flushRing : Nat → State → State
  | 0, s => s
  | n + 1, s =>
    match s.fheld with
    | [] => s
    | b :: r =>
      if (s.fprod - s.fcons).toNat = 65408 then s
      else
        let s := ({ s with fheld := r }).unitStore ⟨.dev, 0xFF00801000 + 32 * (s.fcount % 65408)⟩ b
        State.flushRing n { s with fprod := s.fprod + 1, fcount := s.fcount + 1 }

/-- A die's batcher writes its pending faults as one batch and issues its message (R308).
(Log entry 161 DESIGN CHOICE.) -/
def State.writeBatch (s : State) (die : Nat) : State :=
  let mine := (s.faults.filter fun f => f.die == die && !f.sent).foldl (fun l f => insertFault f l) []
  let ranges := (mine.foldl mergeFault []).reverse
  let s := s.each ranges fun s r => s.ringRecord (r.bytes s.batchSeq)
  let s : State := { s with
    batchSeq := s.batchSeq + 1, faults := s.faults.map (fun f => if f.die = die then { f with sent := true } else f) }
  s.msix s.fvector

/-- Faults pending in a die's batcher, those merged into one page counted each. -/
def State.pendingFaults (s : State) (die : Nat) : Nat :=
  ((s.faults.filter fun f => f.die == die && !f.sent).map PostedFault.count).foldl (· + ·) 0

/-- A host-resolved fault handed to a die's batcher (R307): a page already posted there and not yet applied is not
posted again; 256 pending faults make a batch (R308). -/
def State.postFault (s : State) (die ctx va access mapId : Nat) (groups : List Nat) : State :=
  let same := fun (f : PostedFault) => f.die == die && f.ctx == ctx && page64 f.va == page64 va
  let s : State :=
    if s.faults.any same then
      { s with faults := s.faults.map fun f =>
          if same f && !f.sent then
            { f with groups := dedup (groups ++ f.groups), count := f.count + 1, access := f.access ||| accessBits access }
          else f }
    else
      { s with faults := s.faults ++
          [{ die := die, ctx := ctx, va := va, access := accessBits access, mapId := mapId, groups := groups, count := 1,
             posted := s.clk, sent := false }] }
  if 256 ≤ s.pendingFaults die then s.writeBatch die else s

/-- The per-lane records at FREC for the lanes of EMASK, as memory holds them (Table C.15). (Log entry 125 DEDUCED.) -/
def State.readFails (s : State) (g : Group) : List LaneFail :=
  (lanesOf g.emask).filterMap fun l =>
    match s.readVa g.ctx (g.frec + 32 * l) 32 with
    | .ok b => some { lane := l, va := w64 b 0, cause := leNat ((b.drop 8).take 1), access := leNat ((b.drop 9).take 1),
                      width := leNat ((b.drop 10).take 1), firstTouch := (leNat ((b.drop 11).take 1)).testBit 0,
                      parkable := (leNat ((b.drop 11).take 1)).testBit 1, mapId := w32 b 12 }
    | .error _ => none

/-- Whether a per-lane record at FREC lies on a page that moves. -/
def State.failsMove (s : State) (g : Group) : Bool :=
  (lanesOf g.emask).any fun l => s.movingIn g.ctx (g.frec + 32 * l) 32

/-- FPOST (R108): the records go to the die's batcher, but for parkable ones (R307), and the group parks. Records on a
page that moves are waited for (R311). -/
def execFpost (s : State) : Answer :=
  instr s usesNone (fun _ g => firstCause [(!g.super, cProtection)]) fun i g =>
    if s.failsMove g then s.again g
    else
      let fails := s.readFails g
      let s := s.each (fails.filter (fun f => !f.parkable)) fun s f => s.postFault g.die g.ctx f.va f.access f.mapId [g.gid]
      let g := (g.stamp s.clk i.sc).advance i.len
      s.putGroup { g.settle with
        park := some { pc := g.pc, lanes := g.emask, fails := fails, posted := true, since := s.clk } }

end Sys2Proof.Machine
end

