-- ==== Sys2Proof/Machine/Access.lean ====
section
/-!
DEFINITION. What every data access shares (R129 to R132): translation through a register, the check phase, the lane
failures, and entering the counters (R34).
-/

namespace Sys2Proof.Machine


def Group.breg (g : Group) (b : Nat) : TransReg := g.b.getD b TransReg.fresh

/-- The fill of a translation register from a base (R147): frame, rights and the contiguous run, or limit 0 and no
right where the base does not translate. -/
def State.fill (s : State) (ctx : Nat) (base : Nat) : TransReg :=
  match s.translate ctx base with
  | .ok loc perm sup =>
    let run := match s.page? ctx base with
      | some p => s.runFrom ctx p base s.pages.length
      | none => 0
    { base := BitVec.ofNat 52 base, frame := BitVec.ofNat 48 loc.a, limit := BitVec.ofNat 32 (min run 0xFFFFFFFF),
      perm := perm, state := .valid, sp := loc.sp, sup := sup }
  | _ => { TransReg.fresh with base := BitVec.ofNat 52 base, state := .valid }

/-- A STALE register retranslates its base before an access through it proceeds (R26). (Log entry 25 DEDUCED.) -/
def State.refresh (s : State) (g : Group) (b : Nat) : Group :=
  if (g.breg b).state = .stale then { g with b := g.b.set b (s.fill g.ctx (g.breg b).base.toNat) } else g

/-- Where the fast path leads: the launch area is one 2 MiB page, whose upper half is the kick page (R321). -/
def State.kickAt (s : State) (ctx va : Nat) (loc : PAddr) : PAddr :=
  match (s.page? ctx va).filter fun p => p.kind == .kickPage with
  | some p => ⟨p.sp, p.frame + (va - p.va)⟩
  | none => loc

/-- Where an offset from a translation register leads (R129). -/
def State.through (s : State) (ctx : Nat) (b : TransReg) (off : Nat) : XRes :=
  if off < b.limit.toNat ∧ b.state = .valid then
    (if 2 ^ 52 ≤ b.base.toNat + off then .fail cProtection
     else .ok (s.kickAt ctx (b.base.toNat + off) ⟨b.sp, b.frame.toNat + off⟩) b.perm b.sup)
  else s.translate ctx (b.base.toNat + off)

/-- Kinds of data access (Table C.15): read, write, atomic with its operation. -/
inductive Dir where
  | rd | wr
  | at_ (op : Nat)
  deriving DecidableEq, Repr

def Dir.code : Dir → Nat
  | .rd => 0
  | .wr => 1
  | .at_ _ => 2

/-- Whether the special windows and host memory take an access: the kick page takes 32-bit stores to its sixteen
registers and reads of their refusal counts (R321), the first-touch port an 8-byte store of REQ and a 4-byte
scalar read of STATUS (R306), and host memory the atomics of PCI Express (R140). -/
def windowTakes (loc : PAddr) (d : Dir) (w : Nat) (scalar : Bool) : Bool :=
  match loc.sp with
  | .kick _ =>
    (d == .wr && w == 4 && decide (loc.a < 0x80) && decide (loc.a % 8 = 0))
      || (d == .rd && decide (0x80 ≤ loc.a) && decide (loc.a + w ≤ 0x100))
  | .port _ =>
    (d == .wr && w == 8 && loc.a == 0 && scalar) || (d == .rd && w == 4 && loc.a == 8 && scalar)
  | .host =>
    match d with
    | .at_ op => op == 0 || op == 8 || op == 9
    | _ => true
  | _ => true

/-- Rights of an access at a location (R131, R138, R43, R306). -/
def State.mayAccess (s : State) (g : Group) (va : Nat) (loc : PAddr) (perm : BitVec 3) (sup : Bool) (d : Dir) (w : Nat)
    (scalar : Bool) : Bool :=
  (match d with
   | .rd => perm.getLsbD 0
   | .wr => perm.getLsbD 1
   | .at_ _ => perm.getLsbD 2)
  && (!sup || g.super)
  && (d == .rd || !s.inCode g.ctx va w)
  && windowTakes loc d w scalar
  && (match loc.sp with
      | .peer l => s.peerTakes l loc.a w
      | _ => true)

/-- One lane's check phase. -/
inductive LaneCheck where
  | pass (r : LaneReq)
  | moving
  | fail (f : LaneFail)
  deriving DecidableEq, Repr

/-- A failing lane with its class (Table C.14). -/
def State.laneFail (s : State) (g : Group) (lane va cause access width : Nat) : LaneFail :=
  let c := s.faultClass g.ctx va cause
  { lane := lane, va := va, cause := cause, access := access, width := width, firstTouch := c.1, parkable := c.2.1,
    mapId := c.2.2 }

/-- The check phase of a lane: translation, rights, alignment, in that order (R61).
(Log entries 24 DEDUCED, 40 DEDUCED.) -/
def State.checkLane (s : State) (g : Group) (b : TransReg) (lane off w : Nat) (d : Dir) (scalar : Bool) (x y : Word) :
    LaneCheck :=
  let va := b.base.toNat + off
  match s.through g.ctx b off with
  | .moving => .moving
  | .fail c => .fail (s.laneFail g lane va c d.code w)
  | .ok loc perm sup =>
    if s.mayAccess g va loc perm sup d w scalar = false then .fail (s.laneFail g lane va cProtection d.code w)
    else if va % w ≠ 0 then .fail (s.laneFail g lane va cMisaligned d.code w)
    else .pass { lane := lane, loc := loc, va := va, x := x, y := y, finished := false, poisoned := false, lost := none, stale := false }

def LaneCheck.req? : LaneCheck → Option LaneReq
  | .pass r => some r
  | _ => none
def LaneCheck.fail? : LaneCheck → Option LaneFail
  | .fail f => some f
  | _ => none
/-- (Log entry 19 DEDUCED.) -/
def LaneCheck.isMoving : LaneCheck → Bool
  | .moving => true
  | _ => false

/-- Whether every lane took the fast path, so that the check phase ends in the issue beat (R130). -/
def fastPath (b : TransReg) (offs : List Nat) : Bool := b.state == .valid && offs.all fun o => decide (o < b.limit.toNat)

/-- A migrating page that lies in host memory raises a device request, unless it is held or has one (R309). -/
def State.migTouch (s : State) (ctx va : Nat) : State :=
  match s.page? ctx va with
  | none => s
  | some p =>
    if p.kind = .mapping ∧ p.sp = .host ∧ bits (w32 (s.record p.slot).body 0x0C) 10 2 = 2
        ∧ s.holds.any (fun h => h.ctx == ctx && h.va == p.va) = false
        ∧ s.migReqs.any (fun r => r.ctx == ctx && r.va == p.va && !r.host) = false then
      { s with migReqs := s.migReqs ++ [{ ctx := ctx, va := p.va, host := false, at_ := s.clk }] }
    else s

/-- The access record of an instruction (Table A.7); no lane is listed yet. -/
def Access.make (id : Nat) (g : Group) (path : Nat) (kind : AKind) (clk : Nat) : Access :=
  { id := id, gid := g.gid, path := path, kind := kind, pc := g.pc, dst := 0, dst2 := 0, width := 0, sx := false,
    scope := 0, acq := none, op := 0, cmp := 0,
    bind := { kind := .unbound, n2 := 0, handle := 0, aux := 0 }, mask := g.exec, lanes := [], issued := clk, turn := 0,
    epoch := g.epoch, returned := false, results := [] }

/-- Stores of a group joined to its buffer, each lane with its bytes, in lane order. -/
def State.addStores (s : State) (g : Group) (acc : Nat) (rel : Option Nat) (xs : List (Nat × PAddr × List Byte)) : State :=
  s.each xs fun s x =>
    let (id, s) := s.newId
    { s with stores := s.stores ++
        [{ sid := id, gid := g.gid, ctx := g.ctx, acc := acc, lane := x.1, tgt := .mem x.2.1, data := x.2.2, reach := .none, rel := rel,
           cluster := g.core / 4, die := g.die, epoch := g.epoch, passC := 0, passD := 0 }] }

/-- Lanes that no higher lane of the same instruction overwrites (R136). -/
def topLanes (xs : List (Nat × PAddr × List Byte)) : List (Nat × PAddr × List Byte) :=
  xs.filter fun x => !xs.any fun y => decide (x.1 < y.1) && decide (x.2.1 = y.2.1)

/-- The end of an instruction with a check phase: it goes on, traps or parks at once when every lane took the fast
path, and otherwise waits for CHECK_PHASE_END (R130, R131). (Log entries 15 DESIGN CHOICE, 72 DEDUCED.) -/
def State.finishCheck (s : State) (g : Group) (len : Nat) (fast : Bool) (fails : List LaneFail) : State :=
  if fast then (if fails = [] then s.putGroup (g.advance len) else s.failLanes g fails)
  else s.putGroup { g with wait := .check (s.clk + 4) len fails }

end Sys2Proof.Machine
end

