-- ==== Sys2Proof/Machine/Memory.lean ====
section
/-!
DEFINITION. LD and ST (R134 to R137).
-/

namespace Sys2Proof.Machine

/-- Bytes and registers of a width code (Table A.57). -/
def accBytes (w : BitVec 3) : Nat := 2 ^ w.toNat
def accRegs (w : BitVec 3) : Nat := if w = 3 then 2 else if w = 4 then 4 else 1

/-- The scope of an ACQ or REL hint (Table A.22). -/
def hintScope (h : BitVec 3) : Option Nat := if 2 ≤ h.toNat then some (h.toNat - 2) else none

/-- The check phases of the lanes in exec. -/
def State.checkLanes (s : State) (g : Group) (b : TransReg) (o w : Nat) (d : Dir) (x y : Nat → Word) : List LaneCheck :=
  (lanesOf g.exec).map fun l => s.checkLane g b l (g.vlane o l).toNat w d false (x l) (y l)

/-- LD (R135): each passing lane reads later, in a READ of its own. -/
def execLd (d : BitVec 7) (b : BitVec 3) (o : BitVec 7) (w h : BitVec 3) (x : BitVec 1) (s : State) : Answer :=
  instr s { vN := regsFrom d.toNat (accRegs w) ++ [o.toNat], sN := [], vR := [o.toNat], sR := [] }
    (fun _ g => firstCause
      [(decide (5 ≤ w.toNat) || h == 7 || (x == 1 && decide (2 ≤ w.toNat)), cIllegalOperand),
       ((g.breg b.toNat).state == .invalid, cIllegalOperand)])
    fun i g =>
      if (g.breg b.toNat).state = .filling then s.again g
      else
        let g := s.refresh g b.toNat
        let br := g.breg b.toNat
        let cs := s.checkLanes g br o.toNat (accBytes w) .rd (fun _ => 0) (fun _ => 0)
        if cs.any LaneCheck.isMoving then s.again g
        else
          let (id, s) := s.newId
          let pass := cs.filterMap LaneCheck.req?
          let s := s.each pass fun s r => if r.loc.sp = .host then s.migTouch g.ctx r.va else s
          let a : Access := { Access.make id g 0 (if g.exec = 0 then .nothing else .ld) s.clk with
            dst := d.toNat, width := accBytes w, sx := x == 1, op := h.toNat, acq := hintScope h,
            scope := (hintScope h).getD 0, lanes := pass }
          let g := { g with acc := g.acc ++ [a] }.stamp s.clk i.sc
          s.finishCheck g i.len (fastPath br ((lanesOf g.exec).map fun l => (g.vlane o.toNat l).toNat))
            (cs.filterMap LaneCheck.fail?)

/-- The bytes a lane stores: w bytes of the registers from v on (Table A.57). -/
def storeBytes (g : Group) (v w l : Nat) : List Byte :=
  ((List.range ((w + 3) / 4)).flatMap fun i => leBytes 4 (g.vlane (v + i) l).toNat).take w

/-- ST (R136).  Lanes at a kick register are held in the commit buffer as one entry (R35, R321). -/
def execSt (v : BitVec 7) (b : BitVec 3) (o : BitVec 7) (w h : BitVec 3) (s : State) : Answer :=
  instr s
    { vN := regsFrom v.toNat (accRegs w) ++ [o.toNat], sN := [], vR := regsFrom v.toNat (accRegs w) ++ [o.toNat],
      sR := [] }
    (fun _ g =>
      let br := (s.refresh g b.toNat).breg b.toNat
      firstCause
        [(decide (5 ≤ w.toNat) || h == 7, cIllegalOperand),
         ((g.breg b.toNat).state == .invalid, cIllegalOperand),
         (s.commitFull g.tid && (s.checkLanes g br o.toNat (accBytes w) .wr (fun _ => 0) (fun _ => 0)).any (fun c =>
            match c.req? with
            | some r => r.loc.sp == .kick g.ctx
            | none => false), cCommitFull)])
    fun i g =>
      if (g.breg b.toNat).state = .filling then s.again g
      else
        let g := s.refresh g b.toNat
        let br := g.breg b.toNat
        let cs := s.checkLanes g br o.toNat (accBytes w) .wr (fun _ => 0) (fun _ => 0)
        if cs.any LaneCheck.isMoving then s.again g
        else
          let (id, s) := s.newId
          let pass := cs.filterMap LaneCheck.req?
          let s := s.each pass fun s r => if r.loc.sp = .host then s.migTouch g.ctx r.va else s
          let kicks := pass.filter fun r => r.loc.sp == .kick g.ctx
          let s := if kicks = [] then s
            else s.hold g (.kick (kicks.map fun r => (r.va, g.vlane v.toNat r.lane)) g.nest)
          let data := (pass.filter fun r => r.loc.sp != .kick g.ctx).map fun r =>
            (r.lane, r.loc, storeBytes g v.toNat (accBytes w) r.lane)
          let s := s.addStores g id (hintScope h) (topLanes data)
          let a : Access := { Access.make id g 1 (if g.exec = 0 then .nothing else .st) s.clk with
            width := accBytes w, scope := (hintScope h).getD 0,
            lanes := pass.map fun r => { r with finished := true } }
          let g := { g with acc := g.acc ++ [a] }.stamp s.clk i.sc
          s.finishCheck g i.len (fastPath br ((lanesOf g.exec).map fun l => (g.vlane o.toNat l).toNat))
            (cs.filterMap LaneCheck.fail?)

end Sys2Proof.Machine
end

