-- ==== Sys2Proof/Machine/Atomic.lean ====
section
/-!
DEFINITION. ATOM (R138 to R140): the operations of Table A.58 at a scope.
-/

namespace Sys2Proof.Machine

/-- An access with a lane on host or peer memory is performed at SYSTEM (R140, R141). -/
def sysScope (scope : Nat) (lanes : List LaneReq) : Nat :=
  if lanes.any (fun r => match r.loc.sp with
    | .host => true
    | .peer _ => true
    | _ => false) then 4 else scope

/-- ATOM of operation op: each passing lane updates its word in an ATOMIC step of its own. -/
def atomOp (op : Nat) (d : BitVec 7) (b : BitVec 3) (o : BitVec 7) (sc : BitVec 3) (s : State) : Answer :=
  let regs := if op = 9 then [d.toNat, d.toNat + 1] else [d.toNat]
  instr s { vN := regs ++ [o.toNat], sN := [], vR := regs ++ [o.toNat], sR := [] }
    (fun _ g => firstCause
      [(decide (5 ≤ sc.toNat), cIllegalOperand), ((g.breg b.toNat).state == .invalid, cIllegalOperand)])
    fun i g =>
      if (g.breg b.toNat).state = .filling then s.again g
      else
        let g := s.refresh g b.toNat
        let br := g.breg b.toNat
        let cs := s.checkLanes g br o.toNat 4 (.at_ op) (g.vlane d.toNat)
          (fun l => if op = 9 then g.vlane (d.toNat + 1) l else 0)
        if cs.any LaneCheck.isMoving then s.again g
        else
          let (id, s) := s.newId
          let pass := cs.filterMap LaneCheck.req?
          let s := s.each pass fun s r => if r.loc.sp = .host then s.migTouch g.ctx r.va else s
          let a : Access := { Access.make id g 3 (if g.exec = 0 then .nothing else .atom) s.clk with
            dst := d.toNat, width := 4, op := op, scope := sysScope sc.toNat pass, lanes := pass }
          let g := { g with acc := g.acc ++ [a] }.stamp s.clk i.sc
          s.finishCheck g i.len (fastPath br ((lanesOf g.exec).map fun l => (g.vlane o.toNat l).toNat))
            (cs.filterMap LaneCheck.fail?)

/-- R138, Table A.58. -/
def execAtomAdd (d : BitVec 7) (b : BitVec 3) (o : BitVec 7) (sc : BitVec 3) (s : State) : Answer :=
  atomOp 0 d b o sc s

/-- R138, Table A.58. -/
def execAtomMinS (d : BitVec 7) (b : BitVec 3) (o : BitVec 7) (sc : BitVec 3) (s : State) : Answer :=
  atomOp 1 d b o sc s

/-- R138, Table A.58. -/
def execAtomMaxS (d : BitVec 7) (b : BitVec 3) (o : BitVec 7) (sc : BitVec 3) (s : State) : Answer :=
  atomOp 2 d b o sc s

/-- R138, Table A.58. -/
def execAtomMinZ (d : BitVec 7) (b : BitVec 3) (o : BitVec 7) (sc : BitVec 3) (s : State) : Answer :=
  atomOp 3 d b o sc s

/-- R138, Table A.58. -/
def execAtomMaxZ (d : BitVec 7) (b : BitVec 3) (o : BitVec 7) (sc : BitVec 3) (s : State) : Answer :=
  atomOp 4 d b o sc s

/-- R138, Table A.58. -/
def execAtomAnd (d : BitVec 7) (b : BitVec 3) (o : BitVec 7) (sc : BitVec 3) (s : State) : Answer :=
  atomOp 5 d b o sc s

/-- R138, Table A.58. -/
def execAtomOr (d : BitVec 7) (b : BitVec 3) (o : BitVec 7) (sc : BitVec 3) (s : State) : Answer :=
  atomOp 6 d b o sc s

/-- R138, Table A.58. -/
def execAtomXor (d : BitVec 7) (b : BitVec 3) (o : BitVec 7) (sc : BitVec 3) (s : State) : Answer :=
  atomOp 7 d b o sc s

/-- R138, Table A.58. -/
def execAtomXchg (d : BitVec 7) (b : BitVec 3) (o : BitVec 7) (sc : BitVec 3) (s : State) : Answer :=
  atomOp 8 d b o sc s

/-- R138, Table A.58. -/
def execAtomCas (d : BitVec 7) (b : BitVec 3) (o : BitVec 7) (sc : BitVec 3) (s : State) : Answer :=
  atomOp 9 d b o sc s

/-- R138, Table A.58. -/
def execAtomAddF (d : BitVec 7) (b : BitVec 3) (o : BitVec 7) (sc : BitVec 3) (s : State) : Answer :=
  atomOp 10 d b o sc s

/-- R138, Table A.58. -/
def execAtomMaxF (d : BitVec 7) (b : BitVec 3) (o : BitVec 7) (sc : BitVec 3) (s : State) : Answer :=
  atomOp 11 d b o sc s

/-- R138, Table A.58. -/
def execAtomMinF (d : BitVec 7) (b : BitVec 3) (o : BitVec 7) (sc : BitVec 3) (s : State) : Answer :=
  atomOp 12 d b o sc s

end Sys2Proof.Machine
end

