-- ==== Sys2Proof/Machine/Smem.lean ====
section
/-!
DEFINITION. Scalar memory, SMEM (R141, R142).
-/

namespace Sys2Proof.Machine

/-- Byte offset of an SMEM access (R129): 4 × imm, untruncated. -/
def smemOff (i : Issue) (v : BitVec 12) : Nat := 4 * (i.imm12 v).toNat

/-- A scalar access that returns a value or updates memory, on the counter of code `path`.  `f` fills in what the
access carries. -/
def smemAccess (path : Nat) (kind : AKind) (w : Nat) (dir : Dir) (even reads : Bool) (d : BitVec 6) (b : BitVec 3)
    (v : BitVec 12) (x y : Group → Word) (f : Group → List LaneReq → Access → Access) (s : State) : Answer :=
  let regs := if even then pairRegs d.toNat else [d.toNat]
  instr s { vN := [], sN := regs, vR := [], sR := if reads then regs else [] }
    (fun _ g => firstCause
      [(even && decide (d.toNat % 2 = 1), cIllegalOperand), ((g.breg b.toNat).state == .invalid, cIllegalOperand)])
    fun i g =>
      if (g.breg b.toNat).state = .filling then s.again g
      else
        let g := s.refresh g b.toNat
        let br := g.breg b.toNat
        let c := s.checkLane g br 0 (smemOff i v) w dir true (x g) (y g)
        if c.isMoving then s.again g
        else
          let (id, s) := s.newId
          let pass := c.req?.toList
          let s := s.each pass fun s r => if r.loc.sp = .host then s.migTouch g.ctx r.va else s
          let a := f g pass { Access.make id g path kind s.clk with dst := d.toNat, width := w, lanes := pass }
          let g := (s.watchOne { g with acc := g.acc ++ [a] } a).stamp s.clk i.sc
          s.finishCheck g i.len (fastPath br [smemOff i v]) c.fail?.toList

/-- R141: plain, through the L1. -/
def execSld (d : BitVec 6) (b : BitVec 3) (v : BitVec 12) (s : State) : Answer :=
  smemAccess 0 .sld 4 .rd false false d b v (fun _ => 0) (fun _ => 0) (fun _ _ a => a) s

/-- R141. -/
def execSld64 (d : BitVec 6) (b : BitVec 3) (v : BitVec 12) (s : State) : Answer :=
  smemAccess 0 .sld64 8 .rd true false d b v (fun _ => 0) (fun _ => 0) (fun _ _ a => a) s

/-- R141: acquires at DEVICE, or at SYSTEM on a host or peer page. -/
def execSldacq (d : BitVec 6) (b : BitVec 3) (v : BitVec 12) (s : State) : Answer :=
  smemAccess 0 .sldacq 4 .rd false false d b v (fun _ => 0) (fun _ => 0)
    (fun _ l a => { a with acq := some (sysScope 3 l) }) s

/-- R142: the comparison value is sd at issue. -/
def execSpollne (d : BitVec 6) (b : BitVec 3) (v : BitVec 12) (s : State) : Answer :=
  smemAccess 0 .spollne 4 .rd false true d b v (fun _ => 0) (fun _ => 0)
    (fun g l a => { a with acq := some (sysScope 3 l), cmp := g.sreg d.toNat }) s

/-- R141: atomic at DEVICE. -/
def execSatadd (d : BitVec 6) (b : BitVec 3) (v : BitVec 12) (s : State) : Answer :=
  smemAccess 3 .satadd 4 (.at_ 0) false true d b v (fun g => g.sreg d.toNat) (fun _ => 0)
    (fun _ l a => { a with op := 0, scope := sysScope 3 l }) s

/-- R141: compare with sd, new value s(d+1). -/
def execSatcas (d : BitVec 6) (b : BitVec 3) (v : BitVec 12) (s : State) : Answer :=
  smemAccess 3 .satcas 4 (.at_ 9) true true d b v (fun g => g.sreg d.toNat) (fun g => g.sreg (d.toNat + 1))
    (fun _ l a => { a with op := 9, scope := sysScope 3 l }) s

/-- SST and SST64 (R141): a store to a kick register is held in the commit buffer (R321). -/
def smemStore (w : Nat) (d : BitVec 6) (b : BitVec 3) (v : BitVec 12) (s : State) : Answer :=
  let regs := if w = 8 then pairRegs d.toNat else [d.toNat]
  instr s { vN := [], sN := regs, vR := [], sR := regs }
    (fun i g =>
      let br := (s.refresh g b.toNat).breg b.toNat
      firstCause
        [(w == 8 && decide (d.toNat % 2 = 1), cIllegalOperand),
         ((g.breg b.toNat).state == .invalid, cIllegalOperand),
         (s.commitFull g.tid && (match (s.checkLane g br 0 (smemOff i v) w .wr true 0 0).req? with
            | some r => r.loc.sp == .kick g.ctx
            | none => false), cCommitFull)])
    fun i g =>
      if (g.breg b.toNat).state = .filling then s.again g
      else
        let g := s.refresh g b.toNat
        let br := g.breg b.toNat
        let c := s.checkLane g br 0 (smemOff i v) w .wr true 0 0
        if c.isMoving then s.again g
        else
          let (id, s) := s.newId
          let pass := c.req?.toList
          let s := s.each pass fun s r => if r.loc.sp = .host then s.migTouch g.ctx r.va else s
          let data := leBytes 4 (g.sreg d.toNat).toNat ++ (if w = 8 then leBytes 4 (g.sreg (d.toNat + 1)).toNat else [])
          let s := s.each pass fun s r =>
            if r.loc.sp = .kick g.ctx then s.hold g (.kick [(r.va, g.sreg d.toNat)] g.nest)
            else s.addStores g id none [(0, r.loc, data)]
          let a : Access := { Access.make id g 1 .st s.clk with
            width := w, lanes := pass.map fun r => { r with finished := true } }
          let g := { g with acc := g.acc ++ [a] }.stamp s.clk i.sc
          s.finishCheck g i.len (fastPath br [smemOff i v]) c.fail?.toList

/-- R141. -/
def execSst (d : BitVec 6) (b : BitVec 3) (v : BitVec 12) (s : State) : Answer := smemStore 4 d b v s
/-- R141. -/
def execSst64 (d : BitVec 6) (b : BitVec 3) (v : BitVec 12) (s : State) : Answer := smemStore 8 d b v s

end Sys2Proof.Machine
end

