-- ==== Sys2Proof/Machine/Spad.lean ====
section
/-!
DEFINITION. The team window and the tag table, SPAD (R143 to R146).
-/

namespace Sys2Proof.Machine

/-- Whether an offset lies in the team's scratch or in one of its tagged slots (R143). -/
def inRange (t : Team) (o : Nat) : Bool :=
  decide (o < t.scratch) || (decide (0x1000000 ≤ o) && decide (o < 0x1000000 + 1024 * t.tagN))

/-- Whether n bytes at an offset lie in the team's scratch or in one of its tagged slots (R143). -/
def inWindow (t : Team) (o n : Nat) : Bool :=
  decide (o + n ≤ t.scratch) || (decide (0x1000000 ≤ o) && decide (o + n ≤ 0x1000000 + 1024 * t.tagN))

/-- The window offset of a lane (R144). -/
def spadOff (i : Issue) (g : Group) (a l : Nat) (v : BitVec 6) : Nat := (g.vlane a l + 4 * i.imm6 v).toNat

/-- The check phase of a scratchpad lane: an offset in neither range raises PROTECTION (R143), and one in a range that is
not aligned MISALIGNED (R144).  Aligned bytes that begin in a range lie in it whole, unless the team's scratch ends among
them, which is PROTECTION again. -/
def State.checkSpad (s : State) (g : Group) (lane o n access : Nat) (x : Word) : LaneCheck :=
  match s.team? g.tid with
  | none => .fail (s.laneFail g lane o cProtection access n)
  | some t =>
    if inRange t o = false ∨ (o % n = 0 ∧ inWindow t o n = false) then
      .fail { lane := lane, va := o, cause := cProtection, access := access, width := n, firstTouch := false,
              parkable := false, mapId := 0 }
    else if o % n ≠ 0 then
      .fail { lane := lane, va := o, cause := cMisaligned, access := access, width := n, firstTouch := false,
              parkable := false, mapId := 0 }
    else .pass { lane := lane, loc := ⟨.win g.tid, o⟩, va := o, x := x, y := 0, finished := false, poisoned := false, lost := none, stale := false }

/-- A scratchpad access that returns data or updates words: a lane that passes acts later, in a step of its own.  The
check phase ends in the issue beat (R130). -/
def spadAccess (kind : AKind) (n regs access : Nat) (reads : Bool) (d a : BitVec 7) (v : BitVec 6) (s : State) :
    Answer :=
  instr s
    { vN := regsFrom d.toNat regs ++ [a.toNat], sN := [],
      vR := (if reads then regsFrom d.toNat regs else []) ++ [a.toNat], sR := [] } noCheck
    fun i g =>
      let cs := (lanesOf g.exec).map fun l => s.checkSpad g l (spadOff i g a.toNat l v) n access (g.vlane d.toNat l)
      let (id, s) := s.newId
      let x : Access := { Access.make id g 2 (if g.exec = 0 then .nothing else kind) s.clk with
        dst := d.toNat, width := n, lanes := cs.filterMap LaneCheck.req? }
      let g := { g with acc := g.acc ++ [x] }.stamp s.clk i.sc
      s.finishCheck g i.len true (cs.filterMap LaneCheck.fail?)

/-- A scratchpad store. -/
def spadStore (n regs : Nat) (d a : BitVec 7) (v : BitVec 6) (s : State) : Answer :=
  instr s
    { vN := regsFrom d.toNat regs ++ [a.toNat], sN := [], vR := regsFrom d.toNat regs ++ [a.toNat], sR := [] } noCheck
    fun i g =>
      let cs := (lanesOf g.exec).map fun l => s.checkSpad g l (spadOff i g a.toNat l v) n 1 0
      let (id, s) := s.newId
      let pass := cs.filterMap LaneCheck.req?
      let s := s.addStores g id none (topLanes (pass.map fun r => (r.lane, r.loc, storeBytes g d.toNat n r.lane)))
      let x : Access := { Access.make id g 2 (if g.exec = 0 then .nothing else .spst) s.clk with
        width := n, lanes := pass.map fun r => { r with finished := true } }
      let g := { g with acc := g.acc ++ [x] }.stamp s.clk i.sc
      s.finishCheck g i.len true (cs.filterMap LaneCheck.fail?)

/-- R144. -/
def execSpld (d a : BitVec 7) (v : BitVec 6) (s : State) : Answer := spadAccess .spld 4 1 0 false d a v s
/-- R144. -/
def execSpldq (d a : BitVec 7) (v : BitVec 6) (s : State) : Answer := spadAccess .spld 16 4 0 false d a v s
/-- R144. -/
def execSpst (d a : BitVec 7) (v : BitVec 6) (s : State) : Answer := spadStore 4 1 d a v s
/-- R144. -/
def execSpstq (d a : BitVec 7) (v : BitVec 6) (s : State) : Answer := spadStore 16 4 d a v s
/-- R144. -/
def execSpatadd (d a : BitVec 7) (v : BitVec 6) (s : State) : Answer := spadAccess .spatadd 4 1 2 true d a v s
/-- R144. -/
def execSpataddF (d a : BitVec 7) (v : BitVec 6) (s : State) : Answer := spadAccess .spataddF 4 1 2 true d a v s

/-! ### The tag table (R145, R146) -/

/-- The set of a key in a table of n entries, n at least 8 (R145). -/
def tagSet (n : Nat) (k : Word) : Nat :=
  if n ≤ 8 then 0 else (k.toNat * 0x9E3779B1) % 2 ^ 32 / 2 ^ (32 - Nat.log2 (n / 8))

/-- The valid entry of its set that holds a key. -/
def Team.tagFind (t : Team) (k : Word) : Option Nat :=
  if t.tagN = 0 then none
  else (t.tags.find? fun e => e.2 == k && decide (e.1 / 8 = tagSet t.tagN k)).map Prod.fst

def Team.tagDrop (t : Team) (i : Nat) : Team := { t with tags := t.tags.filter fun e => e.1 ≠ i }

/-- TAGSET of a key at an entry. -/
def Team.tagPut (t : Team) (i : Nat) (k : Word) : Team :=
  let t := match t.tagFind k with
    | some j => t.tagDrop j
    | none => t
  { t.tagDrop i with tags := (t.tagDrop i).tags ++ [(i, k)] }

/-- The key of a lane. -/
def tagKey (i : Issue) (g : Group) (a l : Nat) (v : BitVec 6) : Word := g.vlane a l + i.imm6 v

/-- The entry as a word, all ones for a miss. -/
def tagWord : Option Nat → Word
  | some i => BitVec.ofNat 32 i
  | none => 0xFFFFFFFF

/-- The lanes of a tag function, in ascending order, on the table: `op` is 0 for VTAGLK, 1 for TAGSET, 2 for TAGCLR (R146).
A lane comes with its key in x, the entry that TAGSET names in va and a 1 in y, and leaves with its result in x. -/
def Team.tagLanes (t : Team) (op : Nat) (ls : List LaneReq) : Team × List LaneReq :=
  ls.foldl (fun (r : Team × List LaneReq) l =>
    let hit := r.1.tagFind l.x
    let u := if op = 1 then r.1.tagPut l.va l.x
      else if op = 2 then (match hit with
        | some j => r.1.tagDrop j
        | none => r.1)
      else r.1
    (u, r.2 ++ [{ l with x := tagWord hit, va := 0, y := 0 }])) (t, [])

/-- Whether a tag function of a group issued before identity `upTo` has not acted yet. -/
def Group.tagHeld (g : Group) (upTo : Nat) : Bool :=
  g.acc.any fun a => a.kind == .tag && decide (a.id < upTo) && a.lanes.any fun l => !l.finished && l.y != 0

/-- A tag function that a JOIN has held back acts on the table as one step (R145, R233). (Log entry 27 DEDUCED.) -/
def State.tagAct (s : State) (g : Group) (a : Access) : State :=
  match s.team? g.tid with
  | none => s
  | some t =>
    let go := t.tagLanes a.op a.lanes
    (s.putTeam go.1).putGroup (g.putAcc { a with lanes := go.2 })

/-- A tag function: it acts on the table as one step (R145) at its issue, or, behind a JOIN that pops, once that lets it
(R233), and its results are written when the access returns. (Log entry 27 DEDUCED.) -/
def tagOp (op : Nat) (d a : BitVec 7) (v : BitVec 6) (s : State) : Answer :=
  instr s
    { vN := [d.toNat, a.toNat], sN := [], vR := if op = 1 then [d.toNat, a.toNat] else [a.toNat], sR := [] }
    (fun i g =>
      let n := match s.team? g.tid with
        | some t => t.tagN
        | none => 0
      firstCause
        [(op == 1 && (lanesOf g.exec).any (fun l =>
            n == 0 || decide (n ≤ (g.vlane d.toNat l).toNat)
              || decide ((g.vlane d.toNat l).toNat / 8 ≠ tagSet n (tagKey i g a.toNat l v))), cIllegalOperand)])
    fun i g =>
      match s.team? g.tid with
      | none => s
      | some t =>
        let ls : List LaneReq := (lanesOf g.exec).map fun l =>
          { lane := l, loc := ⟨.win g.tid, 0⟩, va := if op = 1 then (g.vlane d.toNat l).toNat else 0,
            x := tagKey i g a.toNat l v, y := 1, finished := false, poisoned := false, lost := none, stale := false }
        let go := if s.joinClear g.gid g.epoch && !g.tagHeld s.nextId then t.tagLanes op ls else (t, ls)
        let s := s.putTeam go.1
        let (id, s) := s.newId
        let x : Access := { Access.make id g 2 (if g.exec = 0 then .nothing else .tag) s.clk with
          dst := d.toNat, width := 4, op := op, lanes := go.2 }
        s.putGroup (({ g with acc := g.acc ++ [x] }.stamp s.clk i.sc).advance i.len)

/-- R146. (Log entry 27 DEDUCED.) -/
def execVtaglk (d a : BitVec 7) (v : BitVec 6) (s : State) : Answer := tagOp 0 d a v s
/-- R146. (Log entry 27 DEDUCED.) -/
def execTagset (d a : BitVec 7) (v : BitVec 6) (s : State) : Answer := tagOp 1 d a v s
/-- R146. (Log entries 27 DEDUCED, 88 DEDUCED.) -/
def execTagclr (d a : BitVec 7) (v : BitVec 6) (s : State) : Answer := tagOp 2 d a v s

end Sys2Proof.Machine
end

