-- ==== Sys2Proof/Machine/Sync.lean ====
section
/-!
DEFINITION. Waiting and ordering, SYNC: FENCE (R149), the counter and token waits (R150, R151), team barriers (R153),
GBAR (R156), and the translation registers (R147, R148).
-/

namespace Sys2Proof.Machine

/-- A SYNC function whose wait begins at issue and may be over at once. -/
def waitOp (more : Group → Option Nat) (srcs : List Nat) (w : State → Group → Wait) (s : State) : Answer :=
  instr s (usesS [] srcs) (fun _ g => more g) fun i g =>
    (s.putGroup { g.stamp s.clk i.sc with wait := w s g }).wake g.gid

/-- FENCE (R149). -/
def execFence (sc : BitVec 3) (k : BitVec 2) (s : State) : Answer :=
  waitOp (fun _ => firstCause [(decide (5 ≤ sc.toNat) || k == 3, cIllegalOperand)]) []
    (fun s _ => .fence sc.toNat k.toNat s.nextId) s

/-- WAITCNT (R150). -/
def execWaitcnt (p : BitVec 3) (a : BitVec 6) (s : State) : Answer :=
  waitOp (fun _ => firstCause [(decide (5 ≤ p.toNat), cIllegalOperand)]) [a.toNat]
    (fun _ g => .waitcnt p.toNat (g.sreg a.toNat).toNat) s

/-- Whether the group is its team's producer (R28). -/
def State.isProducer (s : State) (g : Group) : Bool :=
  match s.team? g.tid with
  | some t => t.producer == g.grp
  | none => false

/-- WAITK (R151). -/
def execWaitk (k : BitVec 3) (s : State) : Answer :=
  waitOp (fun g => firstCause [(!s.isProducer g, cCopyRights)]) [] (fun _ _ => .waitk k.toNat) s

/-! ### Team barriers -/

/-- An arrival at a barrier (R153): it counts at issue, and the barrier opens at once when the count is complete and
every counted arrival's release is performed.  One from a partner core reaches the home core 8 clk later (R212). -/
def State.arrive (s : State) (g : Group) (b : Nat) : State :=
  let (id, s) := s.newId
  match s.team? g.tid with
  | none => s
  | some t =>
    let x := t.bar b
    let g := g.putBar b { g.bar b with arr := some x.gen, arrId := id }
    let t := t.putBar b
      { x with arrived := x.arrived + 1, reach := if coreOf g.die g.core = t.home then x.reach else s.clk + 8 }
    let s := (s.putTeam t).putGroup g
    if s.barrierReady t b then s.openBarrier g.tid b else s

/-- The check of a second arrival in one generation (R153). -/
def State.arrivedTwice (s : State) (g : Group) (b : Nat) : Bool :=
  match s.team? g.tid with
  | some t => (g.bar b).arr == some (t.bar b).gen
  | none => false

/-- BARA (R153). -/
def execBara (b : BitVec 4) (s : State) : Answer :=
  instr s usesNone (fun _ g => firstCause [(s.arrivedTwice g b.toNat, cIllegalOperand)]) fun i g =>
    let s := s.arrive (g.stamp s.clk i.sc) b.toNat
    match s.group? g.gid with
    | some g => s.putGroup (g.advance i.len)
    | none => s

/-- BARW (R153). -/
def execBarw (b : BitVec 4) (s : State) : Answer := waitOp (fun _ => none) [] (fun _ _ => .barw b.toNat) s

/-- BARS (R153): an arrival, then the wait. -/
def execBars (b : BitVec 4) (s : State) : Answer :=
  instr s usesNone (fun _ g => firstCause [(s.arrivedTwice g b.toNat, cIllegalOperand)]) fun i g =>
    let s := s.arrive (g.stamp s.clk i.sc) b.toNat
    match s.group? g.gid with
    | some g => (s.putGroup { g with wait := .barw b.toNat }).wake g.gid
    | none => s

/-- BARI (R153): the expected count and the SET mode. -/
def execBari (b : BitVec 4) (a : BitVec 6) (s : State) : Answer :=
  instr s (usesS [] [a.toNat])
    (fun _ g =>
      let v := (g.sreg a.toNat).toNat
      firstCause
        [(decide (256 ≤ v) || decide (g.tsize < v % 256)
            || (match s.team? g.tid with
                | some t => (t.bar b.toNat).arrived != 0
                | none => false), cIllegalOperand)])
    fun i g =>
      let s := match s.team? g.tid with
        | some t => s.putTeam (t.putBar b.toNat
            { t.bar b.toNat with expect := (g.sreg a.toNat).toNat % 256, isSet := true })
        | none => s
      s.putGroup ((g.stamp s.clk i.sc).advance i.len)

/-! ### Grid barriers -/

/-- Whether the group's grid declares grid barriers (R156). -/
def State.gridBars (s : State) (g : Group) : Bool :=
  match s.team? g.tid with
  | some t => (match s.launch? t.launch with
    | some l => l.gbar
    | none => false)
  | none => false

/-- GBAR (R156): the earlier stores are performed at DEVICE; the arrival and the release are steps of the die and the
package. -/
def execGbar (n : BitVec 2) (s : State) : Answer :=
  instr s usesNone (fun _ g => firstCause [(!s.gridBars g, cIllegalOperand)]) fun i g =>
    let s := s.release g.gid s.nextId 3
    match s.group? g.gid with
    | some g => s.putGroup { g.stamp s.clk i.sc with wait := .gbar n.toNat }
    | none => s

/-! ### Translation registers -/

/-- XLATE (R147): the fill ends in a step of its own. -/
def execXlate (b : BitVec 3) (a : BitVec 6) (s : State) : Answer :=
  instr s (usesS [] (pairRegs a.toNat))
    (fun _ g => firstCause [(decide (a.toNat % 2 = 1) || decide (2 ^ 52 ≤ (g.pair a.toNat).toNat), cIllegalOperand)])
    fun i g =>
      let (id, s) := s.newId
      let r : TransReg := { g.breg b.toNat with
        base := BitVec.ofNat 52 (g.pair a.toNat).toNat, state := .filling }
      let x : Access := { Access.make id g 0 .xlate s.clk with dst2 := b.toNat }
      s.putGroup (({ g with b := g.b.set b.toNat r, acc := g.acc ++ [x] }.stamp s.clk i.sc).advance i.len)

/-- XINV (R148). -/
def execXinv (b : BitVec 3) (s : State) : Answer :=
  plain s usesNone noCheck fun _ g => { g with b := g.b.set b.toNat { g.breg b.toNat with state := .invalid } }

end Sys2Proof.Machine
end

