-- ==== Sys2Proof/Machine/QueueOps.lean ====
section
/-!
DEFINITION. Queue registers, QREG (R158 to R168), and the links of chains (R258, R259, R262).
-/

namespace Sys2Proof.Machine


def Group.qreg (g : Group) (q : Nat) : QBind := g.q.getD q QBind.none

/-- Registers of an entry of a width code (R53).  The reserved code reaches no register past an entry's fourth (R17).
(Log entry 128 DEDUCED.) -/
def n2Regs (n : BitVec 2) : Nat := if n = 0 then 1 else if n = 1 then 2 else 4

/-- Lane kinds (R160). -/
def QKind.lane (k : QKind) : Bool := k == .expert || k == .batch || k == .reorder

/-- The live queue that a handle names. -/
def State.queueOf (s : State) (handle : Word) : Option Queue := s.queues.find? fun q => q.handle == handle

/-- The chain and the stage number of a group. -/
def State.chainOf (s : State) (g : Group) : Option Chain :=
  match s.team? g.tid with
  | some t => (match t.chain with
    | some c => s.chain? c
    | none => none)
  | none => none

def Chain.link (c : Chain) (k : Nat) : Link := c.links.getD k { n2 := 0, entries := [] }
def Chain.setLink (c : Chain) (k : Nat) (l : Link) : Chain := { c with links := c.links.set k l }
def Chain.stageEnded (c : Chain) (k : Nat) : Bool :=
  match c.stages[k]? with
  | some st => st.ended
  | none => true

/-- Entries a link has room for (R258, R259, and R265's drain). -/
def Chain.room (c : Chain) : Nat := if c.folded then 1 else if c.request = some true then 1 else 16

/-! ### Folded chains (R259 to R261) -/

/-- Whether a stage that is blocked has its cause cleared, or has not started (R260). -/
def State.stageRunnable (s : State) (c : Chain) (k : Nat) : Bool :=
  match c.stages[k]? with
  | none => false
  | some st =>
    if st.ended then false
    else match s.group? st.gid with
      | none => false
      | some g =>
        if g.lastIssue = none then true
        else match st.block with
          | .none => false
          | .qget => !(c.link (k - 1)).entries.isEmpty || c.stageEnded (k - 1)
          | .qput => decide ((c.link k).entries.length < c.room) || c.stageEnded (k + 1)
          | .outside => g.acc.all fun a => a.returned || a.kind == .nothing

/-- The stage that a folded group resumes (R261): the one that the block names when it is runnable, else the lowest
runnable one. -/
def State.nextStage (s : State) (c : Chain) : Option Nat :=
  let named := match c.stages[c.running]? with
    | some st => (match st.block with
      | .qput => some (c.running + 1)
      | .qget => some (c.running - 1)
      | _ => none)
    | none => none
  match named with
  | some k => if s.stageRunnable c k then some k
    else (List.range c.stages.length).find? (s.stageRunnable c)
  | none => (List.range c.stages.length).find? (s.stageRunnable c)

/-- The running stage with a block set. -/
def Chain.blockStage (c : Chain) (k : Nat) (b : Block) : Chain :=
  { c with stages := c.stages.mapIdx fun i st => if i = k then { st with block := b } else st }

/-- A folded chain whose running stage is input-blocked or has ended resumes a runnable one, which issues from the
ninth clk on (R259, R261). -/
def State.foldSwitch (s : State) (cid : Nat) : State :=
  match s.chain? cid with
  | none => s
  | some c =>
    let stuck := match c.stages[c.running]? with
      | some st => st.ended || st.block != .none
      | none => true
    if c.folded && stuck && c.request != some false && c.movingTo.isNone then
      match s.nextStage c with
      | some k => s.putChain { (c.blockStage k .none) with running := k, switchAt := s.clk + 8 }
      | none => s
    else s

/-- A stage number of a chain's group. -/
def Chain.stageOf (c : Chain) (gid : Nat) : Nat := (c.stages.map Stage.gid).idxOf gid

/-- A blocked QGET or QPUT does not issue; in the folded form another stage goes on (R261), unless a switch of the form
can be made here (R265). -/
def State.blockOn (s : State) (g : Group) (c : Chain) (b : Block) : State :=
  ((s.putChain (c.blockStage (c.stageOf g.gid) b)).again g).foldSwitch c.cid

/-- Whether Table A.6 lets a binding pop, and whether it lets it push. -/
def QBind.pops (b : QBind) : Bool :=
  b.kind == .msg || b.kind == .batch || b.kind == .stream || (b.kind == .chain && b.handle == 0)
def QBind.pushes (b : QBind) : Bool :=
  b.kind == .msg || b.kind == .expert || b.kind == .reorder || (b.kind == .chain && b.handle == 1)

/-! ### Bindings -/

/-- The width code of a queue's entries: the lane kinds take four registers, a STREAM one (R161). -/
def Queue.entryN2 (q : Queue) : BitVec 2 := if q.kind.lane then 2 else if q.kind = .stream then 0 else q.n2

/-- The cause of a QBIND of a handle with a width (R161), in the order of R18. -/
def State.bindCause (s : State) (g : Group) (q : Nat) (n : BitVec 2) (h : Word) : Option Nat :=
  let k := h.toNat / 2 ^ 28
  let known := match s.queueOf h with
    | some x => x.ctx == g.ctx && k == (match x.kind with
        | .msg => 1
        | .expert => 2
        | .reorder => 4
        | _ => 5)
    | none => false
  firstCause
    [(n == 3, cIllegalOperand),
     (k != 3 && k != 6 && !known, cIllegalOperand),
     ((g.qreg q).kind == .batch || (g.qreg q).kind == .chain || k == 3 || k == 6, cQueueKind),
     ((match s.queueOf h with
       | some x => x.entryN2 != n
       | none => false), cIllegalOperand)]

/-- QBIND (R161): it first waits for the pops issued through the register. -/
def execQbind (q : BitVec 4) (n : BitVec 2) (d : BitVec 6) (s : State) : Answer :=
  instr s (usesS [] [d.toNat]) (fun _ g => s.bindCause g q.toNat n (g.sreg d.toNat)) fun i g =>
    let kind := match s.queueOf (g.sreg d.toNat) with
      | some x => x.kind
      | none => .unbound
    let b : QBind := { kind := kind, n2 := n, handle := g.sreg d.toNat, aux := 0 }
    (s.putGroup { g.stamp s.clk i.sc with wait := .bind q.toNat b }).wake g.gid

/-- QUNBIND (R161). -/
def execQunbind (q : BitVec 4) (s : State) : Answer :=
  instr s usesNone
    (fun _ g => firstCause
      [((g.qreg q.toNat).kind == .unbound || (g.qreg q.toNat).kind == .batch || (g.qreg q.toNat).kind == .chain,
        cQueueKind)])
    fun i g => (s.putGroup { g.stamp s.clk i.sc with wait := .bind q.toNat QBind.none }).wake g.gid

/-- A QSTAT word (Table A.67). -/
def qstatWord (full closed : Bool) (count : Nat) : Word :=
  BitVec.ofNat 32 ((if full then 2 ^ 31 else 0) + (if closed then 2 ^ 30 else 0) + min count 0xFFFF)

/-- The snapshot of a binding (R165). (Log entry 30 DEDUCED.) -/
def State.qstat (s : State) (g : Group) (b : QBind) : Word :=
  match b.kind with
  | .batch =>
    (match s.batches.find? (fun x => x.bid == b.aux) with
     | some x => qstatWord false false x.left.length
     | none => qstatWord false false 0)
  | .chain =>
    (match s.chainOf g with
     | some c => qstatWord (decide (c.room ≤ (c.link b.aux).entries.length)) (c.stageEnded b.aux)
         (c.link b.aux).entries.length
     | none => 0)
  | _ =>
    match s.queueOf b.handle with
    | none => qstatWord false true 0
    | some q =>
      match q.kind with
      | .reorder => qstatWord (decide (q.cap ≤ q.rtoks.length)) q.closed q.rtoks.length
      | .expert => qstatWord (decide (q.cap ≤ q.entries.length) || !q.spilled.isEmpty) q.closed q.tokens
      | _ => qstatWord (decide (q.cap ≤ q.entries.length)) q.closed q.entries.length

/-- QSTAT (R165). -/
def execQstat (q : BitVec 4) (d : BitVec 6) (s : State) : Answer :=
  plain s (usesS [d.toNat] []) (fun _ g => firstCause [((g.qreg q.toNat).kind == .unbound, cQueueKind)]) fun _ g =>
    g.setS d.toNat (s.qstat g (g.qreg q.toNat))

/-! ### Pops -/

/-- The checks of a pop: the field, the kind, then the width held in the binding (R18). -/
def popCause (b : QBind) (n : BitVec 2) : Option Nat :=
  firstCause [(n == 3, cIllegalOperand), (!b.pops, cQueueKind), (b.n2 != n, cIllegalOperand)]

/-- QGET, QTRY and QTRYP (R162, R163): the access counts on QRD, and the queue serves it in a POP.  A QGET of a link
holds its group until it has taken an entry (R258); in the folded form a QGET of an empty link does not issue
(R261). -/
def popOp (kind : AKind) (q : BitVec 4) (r : BitVec 7) (n : BitVec 2) (d : Option Nat) (s : State) : Answer :=
  instr s { vN := regsFrom r.toNat (n2Regs n), sN := d.toList, vR := [], sR := [] }
    (fun _ g => popCause (g.qreg q.toNat) n)
    fun i g =>
      let b := g.qreg q.toNat
      let holds := b.kind = .chain ∧ kind = .qget ∧ g.exec ≠ 0
      let blocked := (s.chainOf g).filter fun c =>
        c.folded && (c.link b.aux).entries.isEmpty && !c.stageEnded b.aux
      match (if holds then blocked else none) with
      | some c => s.blockOn g c .qget
      | none =>
        let (id, s) := s.newId
        let a : Access := { Access.make id g 4 (if g.exec = 0 then .nothing else kind) s.clk with
          dst := r.toNat, dst2 := d.getD 0, width := n2Regs n, op := q.toNat, bind := b, turn := s.issueTurn g }
        let s := if g.exec = 0 then s
          else if b.kind = .msg ∨ b.kind = .stream then
            { s with queues := s.queues.map fun x => if x.handle = b.handle then { x with pops := x.pops ++ [id] } else x }
          else s
        let g := { g with acc := g.acc ++ [a] }.stamp s.clk i.sc
        s.putGroup (if holds then { g with wait := .chainPop id } else g.advance i.len)

/-- R162. -/
def execQget (q : BitVec 4) (r : BitVec 7) (n : BitVec 2) (s : State) : Answer := popOp .qget q r n none s
/-- R163. -/
def execQtry (q : BitVec 4) (r : BitVec 7) (n : BitVec 2) (d : BitVec 6) (s : State) : Answer :=
  popOp .qtry q r n (some d.toNat) s
/-- R163. -/
def execQtryp (q : BitVec 4) (r : BitVec 7) (n : BitVec 2) (d : BitVec 6) (s : State) : Answer :=
  popOp .qtryp q r n (some d.toNat) s

/-! ### Pushes -/

/-- The registers of an entry: the lanes in exec, 0 in every other lane (R160). -/
def entryRegs (g : Group) (r n : Nat) : List Vec :=
  (List.range n).map fun i => vmk fun l => if g.exec.getLsbD l then g.vlane (r + i) l else 0

/-- A REORDER push's word 2: no bit outside [6:4] and [2:0], and an index below k (R160). -/
def reorderWordOk (w : Word) : Bool :=
  w &&& 0xFFFFFF88 == 0 && decide (w.toNat % 8 ≤ w.toNat / 16 % 8)

/-- The standing-table count of an entry that a chain of a record discards (R262); a kicked chain has none. -/
def State.countRefused (s : State) (slot : Option Nat) (n : Nat) : State :=
  match slot with
  | some k => let r := s.record k; s.setRecord { r with refused := r.refused + n }
  | none => s

/-- QPUT (R164): held in the commit buffer, or pushed at its issue into a link with room. -/
def execQput (q : BitVec 4) (r : BitVec 7) (n : BitVec 2) (s : State) : Answer :=
  instr s { vN := regsFrom r.toNat (n2Regs n), sN := [], vR := regsFrom r.toNat (n2Regs n), sR := [] }
    (fun _ g =>
      let b := g.qreg q.toNat
      firstCause
        [(n == 3, cIllegalOperand), (!b.pushes, cQueueKind), (b.n2 != n, cIllegalOperand),
         (b.kind == .reorder && (lanesOf g.exec).any (fun l => !reorderWordOk (g.vlane (r.toNat + 2) l)),
          cIllegalOperand),
         (b.kind != .chain && g.exec != 0 && s.commitFull g.tid, cCommitFull)])
    fun i g =>
      let b := g.qreg q.toNat
      let regs := entryRegs g r.toNat (n2Regs n)
      let done := (g.stamp s.clk i.sc).advance i.len
      if g.exec = 0 then s.putGroup done
      else if b.kind = .chain then
        match s.chainOf g with
        | none => s.putGroup done
        | some c =>
          if c.stageEnded (b.aux + 1) then (s.countRefused c.slot 1).putGroup done
          else if c.room ≤ (c.link b.aux).entries.length then s.blockOn g c .qput
          else
            let l := c.link b.aux
            let e : LinkEntry := { regs := regs, readyAt := if c.folded then 0 else s.clk + 16 }
            (s.putChain (c.setLink b.aux { l with entries := l.entries ++ [e] })).putGroup done
      else (s.hold g (.push b.handle b.kind g.exec regs)).putGroup done

end Sys2Proof.Machine
end

