-- ==== Sys2Proof/Machine/CopyOps.lean ====
section
/-!
DEFINITION. The streamer's instructions, COPY (R169 to R182): the card and its checks, footprints, and the tokens.
-/

namespace Sys2Proof.Machine

/-! ### The card -/

/-- Where a card of 64 bytes lies, or why it cannot be read (R170). -/
inductive CardAt where
  | ok (loc : PAddr) (va : Nat)
  | moving
  | fail (f : LaneFail)
  deriving DecidableEq, Repr

/-- The check of a card's address and rights, and of poison at its source (R170). -/
def State.cardCheck (s : State) (g : Group) (c : LaneCheck) : CardAt :=
  match c with
  | .moving => .moving
  | .fail f => .fail { f with access := 4 }
  | .pass r => if s.anyPoison r.loc 64 then .fail (s.laneFail g 0 r.va cPoison 4 64) else .ok r.loc r.va

/-- The card at a window offset. -/
def State.cardInWindow (s : State) (g : Group) (o : Nat) : CardAt := s.cardCheck g (s.checkSpad g 0 o 64 0 0)

/-- The card at a virtual address, as a translation register or a token records it. -/
def State.cardInMemory (s : State) (g : Group) (b : TransReg) (o : Nat) : CardAt :=
  s.cardCheck g (s.checkLane g b 0 o 64 .rd true 0 0)

/-- The eight doublewords of a card, as the issuing group sees them: its own stores are visible to it from their issue
(R225). -/
def State.readCard (s : State) (g : Group) (loc : PAddr) : List Nat :=
  (List.range 8).map fun i => leNat ((s.homeBytes g s.nextId (loc.plus (8 * i)) 8).map Prod.snd)

/-- Source formats, and destination formats (Table A.69). -/
def finOk (f : Nat) : Bool := decide (f ≤ 4) || f == 7 || f == 8 || f == 15
def foutOk (f : Nat) : Bool := decide (f ≤ 8) || f == 15

/-- Whether a micro-op word is a LOOP or a REGION with its reserved bit clear (R171). -/
def opOk (w : Nat) : Bool := bits w 30 2 == 1 || (bits w 30 2 == 2 && w % 2 == 0)

/-- The REGION words of a direction. -/
def cardRegions (c : List Nat) (write : Bool) : List Nat :=
  (cardOps c).filter fun w => bits w 30 2 == 2 && w.testBit 29 == write

/-- The checks of R179 on a card's own fields. -/
def cardOk (c : List Nat) : Bool :=
  cardCrypt c != 3 && finOk (cardFin c) && foutOk (cardFout c) && (cardFin c == 15) == (cardFout c == 15)
  && (cardKind c != 3 || cardFout c == 0 || cardFout c == 8)
  && (!(cardFout c == 5 || cardFout c == 6) || cardElems c % 32 == 0)
  && bits (cardD c 0) 32 4 == 0 && bits (cardD c 1) 52 11 == 0 && bits (cardD c 2) 52 11 == 0
  && bits (cardD c 3) 60 4 == 0
  && decide (cardNop c ≤ 8) && (cardOps c).all opOk && decide ((cardLoops c).length ≤ 6)
  && decide ((cardRegions c false).length ≤ 4) && decide ((cardRegions c true).length ≤ 4)
  && cardRun c % fmtSize (cardFin c) == 0 && cardSrc c % fmtSize (cardFin c) == 0
  && cardDst c % fmtSize (cardFout c) == 0
  && cardCmpl c % 64 == 0 && decide (cardSectors c ≤ 2 ^ 20)

/-- The teams that a multicast bit names (R176): those of the issuing team's sheaf whose home core is core c of its
cluster.  The stage teams of a chain that has been switched are a sheaf (R265). -/
def State.mcastTeams (s : State) (t : Team) (c : Nat) : List Nat :=
  let sheaf := match s.launch? t.launch with
    | some l => l.sheaf
    | none => false
  if sheaf || t.chain.isSome then
    (s.teams.filter (fun x => x.launch == t.launch && (sheaf || x.chain == t.chain) && x.home == t.home / 4 * 4 + c
      && x.state != .retired)).map Team.tid
  else []

/-- The bits of a multicast mask. -/
def mcastBits (c : List Nat) : List Nat := (List.range 8).filter fun i => (cardMcast c).testBit i

/-- Whether MCAST passes R176. -/
def State.mcastOk (s : State) (t : Team) (c : List Nat) : Bool :=
  cardMcast c == 0 || (cardDstSpad c && decide (cardKind c ≤ 1)
    && (mcastBits c).all fun i => decide (i ≤ 3) && !(s.mcastTeams t i).isEmpty)

/-- Whether the key slot of a crypto job holds a key (R173). -/
def State.keyOk (s : State) (ctx : Nat) (c : List Nat) : Bool :=
  cardCrypt c == 0 || (match s.ctx? ctx with
    | some x => x.keys.any (fun k => k.1 == cardKey c)
    | none => false)

/-- The addresses at which the pages of a completion area begin (R170). -/
def areaPages (c : List Nat) : List Nat :=
  let n := cardArea c
  cardCmpl c :: (List.range (n / 0x10000 + 1)).filterMap fun i =>
    let a := (cardCmpl c / 0x10000 + i + 1) * 0x10000
    if a < cardCmpl c + n then some a else none

/-- Whether a page of the completion area lies in host or peer memory (R179). -/
def State.areaAbroad (s : State) (g : Group) (c : List Nat) : Bool :=
  (areaPages c).any fun va => match s.translate g.ctx va with
    | .ok loc _ _ => (match loc.sp with
      | .host => true
      | .peer _ => true
      | _ => false)
    | _ => false

/-- A translation register at an address, through which nothing is mapped: the address translates by itself. -/
def plainReg (va : Nat) : TransReg := { TransReg.fresh with base := BitVec.ofNat 52 va, state := .valid }

/-- The faults of the completion area's pages: no translation, or no write right (R170). -/
def State.areaFails (s : State) (g : Group) (c : List Nat) : List LaneFail :=
  ((areaPages c).map fun va => s.checkLane g (plainReg va) 0 0 64 .wr false 0 0).filterMap fun x =>
    match x with
    | .fail f => if f.cause = cMisaligned then none else some f
    | _ => none

/-- The failing lane of a copy that would write a code region, with its runs or its completion area: the region is
read-only to groups (R43). (Log entry 38 DEDUCED.) -/
def State.codeFails (s : State) (g : Group) (c : List Nat) : List LaneFail :=
  let area := s.inCode g.ctx (cardCmpl c) (cardArea c)
  let hit := !cardDstSpad c && s.images.any (fun i => i.ctx == g.ctx && i.len != 0) && (List.range (cardRuns c)).any fun r =>
    s.inCode g.ctx (runDst c r) (cardOutBytes c) || (cardBlocks c != 0 && s.inCode g.ctx (runHdr c r) (2 * cardBlocks c))
  if hit then [s.laneFail g 0 (cardDst c) cProtection 1 (cardOutBytes c)]
  else if area then [s.laneFail g 0 (cardCmpl c) cProtection 1 (cardArea c)] else []

/-! ### Footprints (R174) -/

/-- The sectors from an address to another as one region. -/
def sectorsRegion (sp : Space) (lo hi : Nat) : Region :=
  { loc := ⟨sp, lo / 4096 * 4096⟩, len := (hi / 4096 - lo / 4096 + 1) * 4096 }

/-- The iterations of a loop that are not padded: the first and the last. -/
def LoopWord.live (l : LoopWord) : Option (Int × Int) :=
  if 2 * l.pad < l.n then some ((l.pad : Int) * l.ss, ((l.n - 1 - l.pad : Nat) : Int) * l.ss) else none

/-- The first and last source byte that the unpadded runs read. -/
def readSpan (c : List Nat) : Option (Nat × Nat) :=
  let ls := (cardLoops c).map LoopWord.live
  if ls.all Option.isSome then
    let ps := ls.filterMap id
    let lo : Int := (ps.map fun p => min p.1 p.2).foldl (· + ·) 0
    let hi : Int := (ps.map fun p => max p.1 p.2).foldl (· + ·) 0
    some (((cardSrc c : Int) + lo).toNat, ((cardSrc c : Int) + hi).toNat + cardRun c - 1)
  else none

/-- A declared region from the sector that holds a base. -/
def declared (sp : Space) (base w : Nat) : Region :=
  { loc := ⟨sp, (base / 4096 + bits w 15 14) * 4096⟩, len := (bits w 1 14 + 1) * 4096 }

/-- The read footprint.  A virtual address stands in the space of device memory here: it is the context's. -/
def cardReads (c : List Nat) (tid : Nat) : List Region :=
  let sp := if cardSrcSpad c then Space.win tid else .dev
  match cardRegions c false with
  | [] => (match readSpan c with
    | some p => [sectorsRegion sp p.1 p.2]
    | none => [])
  | ws => ws.map (declared sp (cardSrc c))

/-- The write footprint: in every target's window under a multicast, and with the header array of a BX job. -/
def cardWrites (c : List Nat) (tids : List Nat) : List Region :=
  let sps := if cardDstSpad c then tids.map Space.win else [Space.dev]
  sps.flatMap fun sp =>
    match cardRegions c true with
    | [] => sectorsRegion sp (dstLow c) (dstHigh c) ::
        (if hdrLen c = 0 then [] else [sectorsRegion sp (hdrLow c) (hdrLow c + hdrLen c - 1)])
    | ws => ws.map (declared sp (cardDst c))

/-! ### Accepting a job -/

/-- The scope of a job (R182): DEVICE for COPY, SYSTEM for INTAKE and the REMOTE kinds. -/
def jobScope (c : List Nat) : Nat := if cardKind c = 0 then 3 else 4

/-- The job joins its team's queue, and the token turns BUSY (R179). -/
def State.enqueueJob (s : State) (t : Team) (j : Job) (tok : Token) : State :=
  let s := s.putJob j
  let s := s.putTeam { t with jobs := t.jobs ++ [j.jid], tokens := t.tokens.set j.tok tok }
  s.pumpJobs t.tid (t.jobs.length + 1)

/-- A job made of a card (R179). -/
def State.makeJob (s : State) (g : Group) (t : Team) (k : Nat) (guard : Option Nat) (c : List Nat) (jid : Nat) : Job :=
  let tids := if cardMcast c = 0 then [t.tid] else (mcastBits c).flatMap (s.mcastTeams t)
  { jid := jid, tid := t.tid, gid := g.gid, tok := k, ctx := g.ctx, core := t.home, card := c, fmt := g.fmt,
    guard := guard, state := .queued, reads := cardReads c t.tid, writes := cardWrites c tids, targets := tids,
    bufs := [], runsRead := [], runsDone := [], runsFaulted := [], taken := [], posted := [], wrote := [], iv := [], poisoned := false, failed := false,
    landedBefore := [], replay := false, skipped := false }

/-- The instruction's end after its check phase: the next one issues after it (R179). -/
def State.endCopy (s : State) (g : Group) (len : Nat) (fails : List LaneFail) : State :=
  s.finishCheck g len false fails

/-- The one failing lane of a copy's second check: the first of the cause that comes first in R61's order. -/
def State.cpyFails (s : State) (g : Group) (c : List Nat) : List LaneFail :=
  let fails := s.areaFails g c ++ s.codeFails g c
  (fails.filter fun f => f.cause == failCause fails).take 1

/-- CPY after the card has been read (R179, R182).  The translation of the completion area is made last and waits for a
page in a move (R170, R311). -/
def State.acceptCpy (s : State) (i : Issue) (g : Group) (k : Nat) (guard : Option Nat) (spad : Bool) (va : Nat)
    (c : List Nat) : State :=
  match s.team? g.tid with
  | none => s
  | some t =>
    if (t.token k).state = 1 ∨ cardOk c = false ∨ s.mcastOk t c = false ∨ s.keyOk g.ctx c = false
        then s.trap g cCopyOperand
    else if s.movingIn g.ctx (cardCmpl c) (cardArea c) then s.again g
    else if s.areaAbroad g c then s.trap g cCopyOperand
    else if s.areaFails g c ++ s.codeFails g c ≠ [] then
      s.endCopy (g.stamp s.clk i.sc) i.len (s.cpyFails g c)
    else
      let s := s.release g.gid s.nextId (jobScope c)
      let g := (s.group? g.gid).getD g
      if s.performedAt g.gid s.nextId (jobScope c) = false then s.putGroup { g with wait := .retry (jobScope c) }
      else match s.team? g.tid with
        | none => s
        | some t =>
          let (jid, s) := s.newId
          let j := s.makeJob g t k guard c jid
          let tok : Token := { state := 1, landed := 0, skipped := false, cardLoc := va, cardSpad := spad, card := c,
                               job := jid }
          (s.enqueueJob t j tok).endCopy (g.stamp s.clk i.sc) i.len []

/-- What follows the check of a card's place.  Reading a card on a page in host memory is a device access to it
(R309). -/
def State.withCard (s : State) (i : Issue) (g : Group) (c : CardAt) (k : State → PAddr → Nat → State) : State :=
  match c with
  | .moving => s.again g
  | .fail f => s.endCopy (g.stamp s.clk i.sc) i.len [f]
  | .ok loc va => if g.accessBefore s.nextId loc 64 then s.again g
    else k (if loc.sp = .host then s.migTouch g.ctx va else s) loc va

/-- CPY (R169, R170, R179). -/
def execCpy (k b : BitVec 3) (a : BitVec 6) (g : BitVec 4) (v : BitVec 1) (s : State) : Answer :=
  instr s (usesS [] [a.toNat])
    (fun _ gr =>
      let spad := (gr.sreg a.toNat).msb
      firstCause
        [(spad && b != 0, cIllegalOperand), (!spad && (gr.breg b.toNat).state == .invalid, cIllegalOperand),
         (!s.isProducer gr, cCopyRights)])
    fun i gr =>
      let spad := (gr.sreg a.toNat).msb
      let guard := if v = 1 then some g.toNat else none
      if spad then
        s.withCard i gr (s.cardInWindow gr ((gr.sreg a.toNat).toNat % 2 ^ 31)) fun s loc va =>
          s.acceptCpy i gr k.toNat guard true va (s.readCard gr loc)
      else if (gr.breg b.toNat).state = .filling then s.again gr
      else
        let gr := s.refresh gr b.toNat
        let s := s.putGroup gr
        s.withCard i gr (s.cardInMemory gr (gr.breg b.toNat) (gr.sreg a.toNat).toNat) fun s loc va =>
          s.acceptCpy i gr k.toNat guard false va (s.readCard gr loc)

/-! ### Tokens (R180, R181) -/

/-- A team's token as a group sees it. -/
def State.tokenOf (s : State) (g : Group) (k : Nat) : Token :=
  match s.team? g.tid with
  | some t => t.token k
  | none => { state := 0, landed := 0, skipped := false, cardLoc := 0, cardSpad := false, card := [], job := 0 }

/-- KSTAT (R180). -/
def execKstat (k : BitVec 3) (a : BitVec 6) (s : State) : Answer :=
  plain s (usesS [a.toNat] []) (fun _ g => firstCause [(!s.isProducer g, cCopyRights)]) fun _ g =>
    let t := s.tokenOf g k.toNat
    g.setS a.toNat (BitVec.ofNat 32 (t.state + (if t.skipped then 8 else 0)))

/-- KBYTES (R180). -/
def execKbytes (k : BitVec 3) (a : BitVec 6) (s : State) : Answer :=
  plain s (usesS (pairRegs a.toNat) [])
    (fun _ g => firstCause [(decide (a.toNat % 2 = 1), cIllegalOperand), (!s.isProducer g, cCopyRights)]) fun _ g =>
    g.setPair a.toNat (BitVec.ofNat 64 (s.tokenOf g k.toNat).landed)

/-- KCLR (R180). -/
def execKclr (k : BitVec 3) (s : State) : Answer :=
  instr s usesNone
    (fun _ g => firstCause
      [(!s.isProducer g, cCopyRights), ((s.tokenOf g k.toNat).state == 1, cCopyOperand)])
    fun i g =>
      let s := s.putToken g.tid k.toNat fun t => { t with state := 0, landed := 0, skipped := false }
      s.putGroup ((g.stamp s.clk i.sc).advance i.len)

/-- KREPLAY after the card has been reread (R180): the job as its card and its CPY's fmt made it, for the sectors
that have not landed.  It is no release: only its job's footprint orders it (R197). (Log entry 34 DEDUCED.) -/
def State.acceptReplay (s : State) (i : Issue) (g : Group) (k : Nat) (c : List Nat) : State :=
  match s.team? g.tid with
  | none => s
  | some t =>
    if (t.token k).card ≠ c ∨ cardOk c = false ∨ s.mcastOk t c = false ∨ s.keyOk g.ctx c = false
        then s.trap g cCopyOperand
    else if s.movingIn g.ctx (cardCmpl c) (cardArea c) then s.again g
    else if s.areaAbroad g c then s.trap g cCopyOperand
    else if s.codeFails g c ≠ [] then s.endCopy (g.stamp s.clk i.sc) i.len (s.codeFails g c)
    else
      let (jid, s) := s.newId
      let tok := t.token k
      let j := s.makeJob g t k none c jid
      let j : Job := match s.job? tok.job with
        | some o => { j with
            fmt := o.fmt, replay := true, skipped := tok.skipped, wrote := o.wrote,
            landedBefore := (List.range (cardSectors c)).filter fun x => !o.missingSectors.contains x }
        | none => { j with replay := true, skipped := tok.skipped }
      (s.enqueueJob t j { tok with state := 1, job := jid }).endCopy (g.stamp s.clk i.sc) i.len []

/-- KREPLAY (R180). (Log entry 34 DEDUCED.) -/
def execKreplay (k : BitVec 3) (s : State) : Answer :=
  instr s usesNone
    (fun _ g => firstCause
      [(!s.isProducer g, cCopyRights), ((s.tokenOf g k.toNat).state != 3, cCopyOperand)])
    fun i g =>
      let tok := s.tokenOf g k.toNat
      let card := if tok.cardSpad then s.cardInWindow g tok.cardLoc else s.cardInMemory g (plainReg tok.cardLoc) 0
      s.withCard i g card fun s loc _ => s.acceptReplay i g k.toNat (s.readCard g loc)

end Sys2Proof.Machine
end

