-- ==== Sys2Proof/Machine/PlaneOps.lean ====
section
/-!
DEFINITION. Plane instructions, PLANE (R183 to R187).
-/

namespace Sys2Proof.Machine

/-- The region of an id that the group's team declares (R243). -/
def State.region (s : State) (g : Group) (p : Nat) : Option Plane :=
  match s.team? g.tid with
  | some t => t.plane? p
  | none => none

/-- Whether a group is in a region's step group. -/
def Plane.member (r : Plane) (g : Group) : Bool := r.members.testBit g.grp

/-- A lane's word index against the region's size (R183); the record names the index. -/
def Plane.check (r : Plane) (tid lane w access : Nat) (x : Word) : LaneCheck :=
  if w < r.size then
    .pass { lane := lane, loc := ⟨.plane tid r.id, 4 * w⟩, va := w, x := x, y := 0, finished := false, poisoned := false, lost := none, stale := false }
  else .fail { lane := lane, va := w, cause := cProtection, access := access, width := 4, firstTouch := false,
               parkable := false, mapId := 0 }

/-- The checks of the lanes in exec. -/
def Plane.checks (r : Plane) (g : Group) (o access : Nat) (x : Nat → Word) : List LaneCheck :=
  (lanesOf g.exec).map fun l => r.check g.tid l (g.vlane o l).toNat access (x l)

/-- PLD (R184): the lanes read P together, in a READ of the access (R249). -/
def execPld (p : BitVec 3) (v o : BitVec 7) (s : State) : Answer :=
  instr s (usesV [v.toNat] [o.toNat])
    (fun _ g => firstCause [((s.region g p.toNat).isNone, cIllegalOperand)])
    fun i g =>
      match s.region g p.toNat with
      | none => s
      | some r =>
        let cs := r.checks g o.toNat 0 (fun _ => 0)
        let (id, s) := s.newId
        let x : Access := { Access.make id g 2 (if g.exec = 0 then .nothing else .pld) s.clk with
          dst := v.toNat, width := 4, op := p.toNat, lanes := cs.filterMap LaneCheck.req? }
        let g := { g with acc := g.acc ++ [x] }.stamp s.clk i.sc
        s.finishCheck g i.len true (cs.filterMap LaneCheck.fail?)

/-- PST instructions that the group has issued to a region in the current step (R184). -/
def Group.pstCount (g : Group) (p : Nat) : Nat :=
  match g.psts.find? (fun e => e.1 == p) with
  | some e => e.2
  | none => 0

/-- Plane writes joined to the group's store buffer, lane by lane in ascending order. -/
def State.addPlaneStores (s : State) (g : Group) (acc region order : Nat) (xs : List (Nat × Nat × Word)) : State :=
  s.each xs fun s x =>
    let (id, s) := s.newId
    { s with stores := s.stores ++
        [{ sid := id, gid := g.gid, ctx := g.ctx, acc := acc, lane := x.1,
           tgt := .plane g.tid region x.2.1 x.1 order, data := leBytes 4 x.2.2.toNat, reach := .none, rel := none, cluster := g.core / 4, die := g.die,
           epoch := g.epoch, passC := 0, passD := 0 }] }

/-- The check that a group is in the step group of a declared region (R183). -/
def State.stepCause (s : State) (g : Group) (p : Nat) : Option Nat :=
  match s.region g p with
  | none => some cIllegalOperand
  | some r => if r.member g then none else some cIllegalOperand

/-- PST (R184): its writes act on the next plane when they are performed. -/
def execPst (p : BitVec 3) (v o : BitVec 7) (s : State) : Answer :=
  instr s (usesV [] [v.toNat, o.toNat]) (fun _ g => s.stepCause g p.toNat) fun i g =>
    match s.region g p.toNat with
    | none => s
    | some r =>
      let cs := r.checks g o.toNat 1 (g.vlane v.toNat)
      let n := g.pstCount p.toNat
      let (id, s) := s.newId
      let pass := cs.filterMap LaneCheck.req?
      let s := s.addPlaneStores g id p.toNat n (pass.map fun q => (q.lane, q.va, q.x))
      let x : Access := { Access.make id g 2 (if g.exec = 0 then .nothing else .pst) s.clk with
        width := 4, op := p.toNat, lanes := pass.map fun q => { q with finished := true } }
      let g : Group := { g with
        acc := g.acc ++ [x], psts := (p.toNat, n + 1) :: g.psts.filter (fun e => e.1 != p.toNat) }
      s.finishCheck (g.stamp s.clk i.sc) i.len true (cs.filterMap LaneCheck.fail?)

/-- PSTEP (R185): the release of the arrival, over all but the writes of other regions (R248); the swap is a step of the
region. -/
def execPstep (p : BitVec 3) (s : State) : Answer :=
  instr s usesNone (fun _ g => s.stepCause g p.toNat) fun i g =>
    let s := s.releaseWhere (fun x => !x.otherRegion p.toNat) g.gid s.nextId 0
    let g := (s.group? g.gid).getD g
    (s.putGroup { g.stamp s.clk i.sc with wait := .pstep p.toNat none }).wake g.gid

/-- A group's own earlier writes to a region, performed before it reads the next plane (R187, R227).
(Log entry 28 DEDUCED.) -/
def State.ownPsts (s : State) (g : Group) (p : Nat) : State :=
  let mine := s.stores.filter fun x => x.gid == g.gid && (match x.tgt with
    | .plane _ r _ _ _ => r == p
    | _ => false)
  s.each mine fun s x => if s.joinClear g.gid x.epoch then s.performTo x.sid 1 1 else s

/-- PQRY (R186): the next value and its C and W.  Behind a JOIN that pops it is held until that lets it read (R233).
(Log entry 28 DEDUCED.) -/
def execPqry (p : BitVec 3) (v o : BitVec 7) (s : State) : Answer :=
  instr s { vN := [v.toNat, v.toNat + 1, o.toNat], sN := [], vR := [o.toNat], sR := [] }
    (fun _ g => firstCause [((s.region g p.toNat).isNone, cIllegalOperand)])
    fun i g =>
      if g.exec ≠ 0 ∧ s.joinClear g.gid g.epoch = false then s.putGroup { g with wait := .joined } else
      let s := s.ownPsts g p.toNat
      let g := (s.group? g.gid).getD g
      match s.region g p.toNat with
      | none => s
      | some r =>
        let cs := r.checks g o.toNat 0 (fun _ => 0)
        let m := maskOf g.exec fun l => decide ((g.vlane o.toNat l).toNat < r.size)
        let q := fun l => r.query (g.vlane o.toNat l).toNat
        let g := if g.exec = 0 then g
          else (g.writeLanes s.clk 2 v.toNat m (vmk fun l => (q l).1)).writeLanes s.clk 2 (v.toNat + 1) m (vmk fun l => (q l).2)
        s.finishCheck (g.stamp s.clk i.sc) i.len true (cs.filterMap LaneCheck.fail?)

end Sys2Proof.Machine
end

