-- ==== Sys2Proof/Machine/Matrix.lean ====
section
/-!
DEFINITION. The matrix stream, MSTR (R188 to R193), fragments (Table A.76), the MMA (R76 to R79) and the lease
(R216, R217).
-/

namespace Sys2Proof.Machine

/-! ### Issue in a stream -/

/-- The meaning of a matrix-stream word; in a group it traps MATRIX_STREAM at step 1 of R18 (R55). -/
def withStream (s : State) (k : Team → Stream → State) : Answer :=
  match s.issue with
  | none => .fault .noIssue
  | some i =>
    match i.who with
    | .group gid =>
      match s.group? gid with
      | none => .fault .noAgent
      | some g =>
        match s.duePend g with
        | some p => .next (s.takePend g p)
        | none => .next (s.trap g cMatrixStream)
    | .stream tid =>
      match s.team? tid with
      | none => .fault .noAgent
      | some t =>
        match t.stream with
        | none => .fault .noAgent
        | some m => .next (k t m)

/-- One word issued at a clk: up to three MMAs and one other word a clk (R188). -/
def Stream.stamp (m : Stream) (clk : Nat) (mma : Bool) : Stream :=
  let same := m.lastIssue = some clk
  { m with
    lastIssue := some clk
    mmasNow := (if same then m.mmasNow else 0) + (if mma then 1 else 0)
    othersNow := (if same then m.othersNow else 0) + (if mma then 0 else 1) }

/-- A team's stream replaced. -/
def State.putStream (s : State) (t : Team) (m : Stream) : State := s.putTeam { t with stream := some m }

/-- A stream word with its checks (the cause that stops the stream) and its effect on the stream. -/
def streamOp (s : State) (more : Team → Stream → Option Nat) (tile : Nat) (eff : Team → Stream → Stream) : Answer :=
  withStream s fun t m =>
    match more t m with
    | some c => s.stopStream t m c tile (s.streamWord t m)
    | none => s.putStream t ((eff t m).stamp s.clk false)

/-! ### Fragments -/

/-- The shape that a format selects (Table A.75, Table A.76). -/
def fragShape (code : Nat) : Nat :=
  match code with
  | 5 => 1
  | 6 => 2
  | 1 => 3
  | 2 => 3
  | _ => 0

/-- Whether AF and BF form a pair of Table A.35. -/
def mmaPair (af bf : Nat) : Bool :=
  let f8 := fun c => c == 3 || c == 4 || c == 5
  (f8 af && f8 bf) || (af == bf && (af == 6 || af == 1 || af == 2 || af == 7))

/-- A fragment-table entry; one that no directive declares holds zeros (Table A.75). (Log entry 32 DEDUCED.) -/
def Team.frag (t : Team) (i : Nat) : Frag := t.frags.getD i { shape := 0, side := 0, base := 0, group := 0 }

/-- The team's group of a number; in a folded chain, the matrix stage's (R259). -/
def State.teamGroup (s : State) (tid grp : Nat) : Option Group :=
  let stage := match (s.team? tid).bind Team.chain with
    | none => none
    | some c => match s.chain? c with
      | some ch => if ch.folded then ch.mst.bind (fun k => ch.stages[k]?) else none
      | none => none
  match stage with
  | some st => s.group? st.gid
  | none => s.groups.find? fun g => g.tid == tid && g.grp == grp

/-- A register of a fragment as the MMA sees it (R189): a lane with a write under way gives either value, by the free
choice n. (Log entry 33 DESIGN CHOICE.) -/
def Group.fragLane (g : Group) (n r l : Nat) : Word :=
  match g.landing.find? (fun w => !w.scalar && w.reg == r && w.lanes.getLsbD l) with
  | some w => if Config.freeBool (n + 32 * r + l) then vget w.value l else g.vlane r l
  | none => g.vlane r l

/-- The values of row r (of A; column r of B) of a fragment in a format, in K order (Table A.76).  `x i l` is lane l of
register i of the fragment. -/
def fragRow (code : Nat) (ftz : Bool) (x : Nat → Nat → Word) (r : Nat) : List FVal :=
  match code with
  | 5 => (List.range 32).map fun k =>
      bxValue true (slotOf 4 (x (r / 4) (8 * (r % 4) + k / 4)) (k % 4)) ((x 8 r).toNat % 2 ^ 16)
  | 6 => (List.range 64).map fun k =>
      bxValue false (slotOf 8 (x (r / 4) (4 * (2 * (r % 4) + k / 32) + k % 32 / 8)) (k % 8))
        ((x 8 r).toNat / 2 ^ (16 * (k / 32)) % 2 ^ 16)
  | 1 => (List.range 16).map fun k => elemValue ftz 1 ((x (r / 2) (16 * (r % 2) + k)).toNat % 2 ^ 16)
  | 2 => (List.range 16).map fun k => elemValue ftz 2 ((x (r / 2) (16 * (r % 2) + k)).toNat % 2 ^ 16)
  | c => (List.range 32).map fun k => elemValue ftz c (slotOf 4 (x (r / 4) (8 * (r % 4) + k / 4)) (k % 4))

/-! ### The MMA -/

/-- An INT8 product sum added to an INT32 element (R77). -/
def mmaInt (c : Word) (a b : List FVal) : Word :=
  let int := fun (v : FVal) => match v with
    | .fin s m _ => if s then -(m : Int) else (m : Int)
    | _ => 0
  c + BitVec.ofInt 32 ((List.zipWith (fun x y => int x * int y) a b).foldl (· + ·) 0)

/-- One element of an MMA (R77): the K-blocks in ascending order, each rounded once into the accumulator (R78). -/
def mmaElem (af : Nat) (ftz : Bool) (c : Word) (a b : List FVal) : Word :=
  if af = 7 then mmaInt c a b
  else
    let p := List.zipWith FVal.mul a b
    let c := accRound ftz c (p.take 32)
    if af = 6 then accRound ftz c (p.drop 32) else c

/-- A tile of zeros, and a team's tile. -/
def zeroTile : List Vec := (List.range 32).map fun _ => vmk fun _ => 0
def Team.tile (t : Team) (a : Nat) : List Vec := t.tiles.getD a zeroTile
def Team.setTile (t : Team) (a : Nat) (x : List Vec) : Team := { t with tiles := t.tiles.set a x }

/-- mma(a_t, A, B) of R77. -/
def mmaTile (fmt : Word) (tile : List Vec) (a b : Nat → Nat → Word) : List Vec :=
  let ftz := fmtFTZ fmt
  let rows := (List.range 32).map (fragRow (fmtAF fmt) ftz a)
  let cols := (List.range 32).map (fragRow (fmtBF fmt) ftz b)
  (List.range 32).map fun i => vmk fun j =>
    mmaElem (fmtAF fmt) ftz (vget (tile.getD i []) j) (rows.getD i []) (cols.getD j [])

/-! ### The lease -/

/-- Whether a lease has reached an end of R217 at a clk: its count, its time, or its holder's stream. -/
def State.leaseOver (s : State) (l : Lease) : Bool :=
  match l.holder with
  | none => true
  | some tid =>
    match s.team? tid with
    | none => true
    | some t =>
      decide (l.quantum ≤ l.issued) || decide (l.began + (l.quantum + 2) / 3 + 256 ≤ s.clk)
        || (match t.stream with
            | some m => m.ended || m.stopped.isSome
            | none => true)

/-- Whether another team of the engine has an MMA waiting. -/
def State.leaseWanted (s : State) (core : Nat) (but : Option Nat) : Bool :=
  s.teams.any fun t => t.home == core && some t.tid != but && (match t.stream with
    | some m => m.waiting.isSome
    | none => false)

/-- Whether a waiting team of the engine comes before a team's MMA at a free lease, by the three keys (R217). -/
def State.leaseAfter (s : State) (t : Team) : Bool :=
  match t.stream with
  | none => false
  | some m =>
    let mine := { m with waiting := some (m.waiting.getD s.clk) }
    (s.leaseQueue t.home (some t.tid)).any fun y => leaseBefore y.2 mine

/-- The lease as a team's MMA finds it: free, its own, or renewed because no other team waits; a free one goes to the
waiting team that the three keys choose (R217). -/
def State.takeLease (s : State) (t : Team) : Option Lease :=
  let l := (s.core t.home).lease
  let fresh : Lease := { l with holder := some t.tid, issued := 0, began := s.clk, quantum := s.quantum t.ctx }
  match l.holder with
  | none =>
    let from_ := match l.lastMma with
      | some c => c + 32
      | none => 0
    if from_ ≤ s.clk ∧ s.leaseAfter t = false then some { fresh with notBefore := from_ } else none
  | some h =>
    if h ≠ t.tid then none
    else if s.clk < l.notBefore then none
    else if s.leaseOver l then (if s.leaseWanted t.home (some t.tid) then none else some fresh)
    else some l

/-- The clk at which an MMA retires (R216): 16 clk after it issues, and up to 24 more when a fragment lies on the
partner core (R215). (Log entry 29 DESIGN CHOICE.) -/
def State.mmaDue (s : State) (t : Team) (gs : List (Option Group)) : Nat :=
  let far := gs.any fun g => match g with
    | some g => coreOf g.die g.core != t.home
    | none => false
  s.clk + 16 + (if far then (Config.freeValue s.freeCount).toNat % 25 else 0)

/-- The checks of an MMA (R191): the format pair, the sides and the shapes. -/
def mmaCause (a b : Nat) (t : Team) (m : Stream) : Option Nat :=
  let fa := t.frag a
  let fb := t.frag b
  firstCause
    [(!mmaPair (fmtAF m.fmt) (fmtBF m.fmt), cIllegalOperand),
     (fa.side != 0 || fb.side != 1, cIllegalOperand),
     (fa.shape != fragShape (fmtAF m.fmt) || fb.shape != fragShape (fmtBF m.fmt), cIllegalOperand)]

/-- MMA with the lease: the tile takes its new contents, and the MMA retires later. (Log entry 33 DESIGN CHOICE.) -/
def State.mma (s : State) (t : Team) (m : Stream) (l : Lease) (tile a b : Nat) : State :=
  let fa := t.frag a
  let fb := t.frag b
  let ga := s.teamGroup t.tid fa.group
  let gb := s.teamGroup t.tid fb.group
  let get := fun (g : Option Group) (f : Frag) (n i lane : Nat) => match g with
    | some g => g.fragLane n (f.base + i) lane
    | none => 0
  let new := mmaTile m.fmt (t.tile tile) (get ga fa s.freeCount) (get gb fb (s.freeCount + 8192))
  let op : MmaOp := { tile := tile, issued := s.clk, zero := false, due := s.mmaDue t [ga, gb] }
  let c := s.core t.home
  let s := s.putCore { c with lease := { l with issued := l.issued + 1, lastMma := some s.clk } }
  let s := { s with freeCount := s.freeCount + 16384 }
  s.putStream (t.setTile tile new)
    ({ m.advance with inFlight := m.inFlight ++ [op], waiting := none, passed := 0 }.stamp s.clk true)

/-- MMA (R191, R216): without the lease it waits for it. -/
def execMma (t : BitVec 4) (a b : BitVec 8) (s : State) : Answer :=
  withStream s fun tm m =>
    match s.takeLease tm with
    | none => s.putStream tm { m with waiting := some (m.waiting.getD s.clk) }
    | some l =>
      match mmaCause a.toNat b.toNat tm m with
      | some c => s.stopStream tm m c t.toNat (s.streamWord tm m)
      | none =>
        let s := if (s.core tm.home).lease.holder.isNone then s.countPass tm.home tm.tid else s
        s.mma tm m l t.toNat a.toNat b.toNat

/-- MZERO (R191, R216). -/
def execMzero (t : BitVec 4) (s : State) : Answer :=
  withStream s fun tm m =>
    let last := ((m.inFlight.filter (fun o => o.tile == t.toNat)).map MmaOp.due).foldl max s.clk
    let op : MmaOp := { tile := t.toNat, issued := s.clk, zero := true, due := last + 1 }
    s.putStream (tm.setTile t.toNat zeroTile)
      ({ m.advance with inFlight := m.inFlight ++ [op] }.stamp s.clk false)

/-! ### The other functions of Table A.77 -/

/-- MWAITB (R191). -/
def execMwaitb (b : BitVec 4) (s : State) : Answer :=
  withStream s fun t m =>
    let gen := (t.bar b.toNat).seen
    let m' := if gen ≠ m.obs.getD b.toNat 0 then m.pass b.toNat gen (s.landedBy t.tid)
      else { m with wait := .bar b.toNat, ended := s.groups.all fun g => g.tid != t.tid || g.ended }
    s.putStream t (m'.stamp s.clk false)

/-- MSIGB (R191): an MMA reads its operands when it issues, so the barrier opens at once. (Log entry 129 DEDUCED.) -/
def execMsigb (b : BitVec 4) (s : State) : Answer :=
  withStream s fun t m => (s.putStream t (m.advance.stamp s.clk false)).openBarrier t.tid b.toNat

/-- MLOOP (R191): as R92, in words of 4 bytes. -/
def execMloop (c : BitVec 8) (e : BitVec 12) (s : State) : Answer :=
  streamOp s
    (fun _ m =>
      let stop := m.pc + 4 * e.zeroExtend 32
      firstCause
        [(decide (stop.toNat < (m.pc + 4).toNat), cIllegalOperand), (c != 0 && decide (4 ≤ m.loops.length), cLoopOverflow)])
    0xFF
    fun _ m =>
      let stop := m.pc + 4 * e.zeroExtend 32
      if c = 0 then { m with pc := stop + 4 }
      else { m with pc := m.pc + 4, loops := { start := m.pc + 4, stop := stop, count := c.zeroExtend 32 } :: m.loops }

/-- MFMT (R191): the group's fmt at this clk. -/
def execMfmt (g : BitVec 8) (s : State) : Answer :=
  streamOp s (fun t _ => firstCause [(decide (t.tsize ≤ g.toNat), cIllegalOperand)]) 0xFF fun t m =>
    match s.teamGroup t.tid g.toNat with
    | some x => { m.advance with fmt := x.fmt }
    | none => m.advance

/-- MEND (R191). -/
def execMend (s : State) : Answer := streamOp s (fun _ _ => none) 0xFF fun _ m => { m with ended := true }

/-- MNOP (R191). -/
def execMnop (s : State) : Answer := streamOp s (fun _ _ => none) 0xFF fun _ m => m.advance

end Sys2Proof.Machine
end

