-- ==== Sys2Proof/Machine/Acc.lean ====
section
/-!
DEFINITION. Accumulator access, ACC (R194 to R196).
-/

namespace Sys2Proof.Machine

/-- Whether an ACC instruction still waits for MMAs or MZEROs to its tile that were issued before its first attempt
(R194). -/
def State.tileBusy (s : State) (g : Group) (t : Nat) : Bool :=
  match s.streamOf g with
  | none => false
  | some m => m.inFlight.any fun o => o.tile == t && decide (o.issued < g.tried.getD s.clk)

/-- An ACC instruction: its checks, then its effect once the tile interlock lets it issue. -/
def accOp (s : State) (u : Group → Uses) (t : Nat) (more : Group → Option Nat) (eff : Team → Group → State → Team × Group) :
    Answer :=
  withGroup s fun i g =>
    match g.common (u g) with
    | some c => s.trap g c
    | none =>
      match more g with
      | some c => s.trap g c
      | none =>
        match s.team? g.tid with
        | none => s.trap g cAccRange
        | some tm =>
          if (s.streamOf g).isNone then s.trap g cAccRange
          else if s.tileBusy g t then
            s.putGroup { g with tried := some (g.tried.getD s.clk), readyAt := s.clk + 4 }
          else
            let x := eff tm g s
            (s.putTeam x.1).putGroup ((x.2.stamp s.clk i.sc).advance i.len)

/-- Row r of a tile. -/
def Team.tileRow (t : Team) (a r : Nat) : Vec := (t.tile a).getD r []

/-- ACCRD (R195). -/
def execAccrd (t : BitVec 4) (v : BitVec 7) (r : BitVec 5) (s : State) : Answer :=
  accOp s (fun _ => usesV [v.toNat] []) t.toNat (fun _ => none) fun tm g s =>
    (tm, g.writeV s.clk 2 v.toNat (tm.tileRow t.toNat r.toNat))

/-- ACCWR (R195). -/
def execAccwr (t : BitVec 4) (v : BitVec 7) (r : BitVec 5) (s : State) : Answer :=
  accOp s (fun _ => usesV [] [v.toNat]) t.toNat (fun _ => none) fun tm g _ =>
    (tm.setTile t.toNat ((tm.tile t.toNat).set r.toNat (blend g.exec (g.vreg v.toNat) (tm.tileRow t.toNat r.toNat))), g)

/-- Whether ACCRDC converts to a BX format. -/
def accBx (c : Nat) : Bool := c == 5 || c == 6

/-- The registers that ACCRDC writes (R196). -/
def accResult (cf : Nat) (fmt seed : Word) (row : Vec) : List Vec :=
  if accBx cf then
    let bx8 := cf == 5
    let b := bxBlockOf bx8 fmt seed 0 row
    [vmk fun l => if l < bxLanes bx8 then packSlots (bxSlots bx8) fun j => b.1.getD (l * bxSlots bx8 + j) 0 else 0,
     vmk fun l => if l = 0 then BitVec.ofNat 32 b.2 else 0]
  else
    let k := perLane cf
    [vmk fun l => if l < 32 / k then packSlots k fun j => cvtElem fmt seed 0 cf l j (vget row (k * l + j)).toNat else 0]

/-- ACCRDC (R196). -/
def execAccrdc (t : BitVec 4) (v : BitVec 7) (r : BitVec 5) (s : State) : Answer :=
  accOp s
    (fun g => usesV (if accBx (fmtCF g.fmt) then [v.toNat, v.toNat + 1] else [v.toNat]) [])
    t.toNat
    (fun g =>
      let cf := fmtCF g.fmt
      let bx8 := cf == 5
      firstCause
        [(cf == 0 || decide (8 ≤ cf), cIllegalOperand),
         (accBx cf && blockAny bx8 g.exec 0 && !blockAll bx8 g.exec 0, cIllegalOperand)])
    fun tm g s =>
      let seed := g.seedFor
      (tm, { g with seed := seed }.writeVs s.clk 3 v.toNat (accResult (fmtCF g.fmt) g.fmt seed (tm.tileRow t.toNat r.toNat)))

end Sys2Proof.Machine
end

