-- ==== Sys2Proof/Machine/Ext.lean ====
section
/-!
DEFINITION. The EXT prefix (R56, R57): the pair is one instruction of 8 bytes, with the second word's stall count, at
the EXT's address.
-/

namespace Sys2Proof.Machine

/-- A pair that R56 refuses. -/
def extRefused (s : State) : Answer := withGroup s fun _ g => s.trap g cIllegalInstruction

/-- The instructions that Table A.23 lists: those that accept an EXT before their word (R56). -/
def takesExt : Instr → Bool
  | .saddi .. | .sandi .. | .sori .. | .sxori .. | .slui .. | .vaddi .. | .vandi .. | .vori .. | .vxori .. | .vmuli .. => true
  | .brAlways .. | .brSz .. | .brSnz .. | .brSneg .. | .brSnneg .. | .brExecz .. | .brExecnz .. | .brExecall .. => true
  | .dbr .. | .dbrT .. | .call .. | .loop .. | .dly .. => true
  | .sld .. | .sld64 .. | .sst .. | .sst64 .. | .satadd .. | .satcas .. | .spollne .. | .sldacq .. => true
  | .spld .. | .spldq .. | .spst .. | .spstq .. | .vtaglk .. | .tagset .. | .tagclr .. | .spatadd .. | .spataddF .. => true
  | _ => false

/-- EXT before a word (R56): the instructions of Table A.23 with their immediates widened; before any other word, and
before a 16-bit parcel, the pair traps ILLEGAL_INSTRUCTION. (Log entry 20 DESIGN CHOICE.) -/
def execExt (x : BitVec 24) (w2 : Word) (s : State) : Answer :=
  match s.issue with
  | none => .fault .noIssue
  | some i =>
    let s : State := { s with issue := some { i with ext := some x, len := 8, sc := wordSc w2.toNat } }
    if w2.getLsbD 0 = false then extRefused s
    else match decode32 w2.toNat with
      | .ok (.saddi d a i) => execSaddi d a i s
      | .ok (.sandi d a i) => execSandi d a i s
      | .ok (.sori d a i) => execSori d a i s
      | .ok (.sxori d a i) => execSxori d a i s
      | .ok (.slui d i) => execSlui d i s
      | .ok (.vaddi d a i) => execVaddi d a i s
      | .ok (.vandi d a i) => execVandi d a i s
      | .ok (.vori d a i) => execVori d a i s
      | .ok (.vxori d a i) => execVxori d a i s
      | .ok (.vmuli d a i) => execVmuli d a i s
      | .ok (.brAlways o) => execBrAlways o s
      | .ok (.brSz a o) => execBrSz a o s
      | .ok (.brSnz a o) => execBrSnz a o s
      | .ok (.brSneg a o) => execBrSneg a o s
      | .ok (.brSnneg a o) => execBrSnneg a o s
      | .ok (.brExecz o) => execBrExecz o s
      | .ok (.brExecnz o) => execBrExecnz o s
      | .ok (.brExecall o) => execBrExecall o s
      | .ok (.dbr a o) => execDbr a o s
      | .ok (.dbrT a o) => execDbrT a o s
      | .ok (.call o) => execCall o s
      | .ok (.loop a i e) => execLoop a i e s
      | .ok (.sld d b i) => execSld d b i s
      | .ok (.sld64 d b i) => execSld64 d b i s
      | .ok (.sst d b i) => execSst d b i s
      | .ok (.sst64 d b i) => execSst64 d b i s
      | .ok (.satadd d b i) => execSatadd d b i s
      | .ok (.satcas d b i) => execSatcas d b i s
      | .ok (.spollne d b i) => execSpollne d b i s
      | .ok (.sldacq d b i) => execSldacq d b i s
      | .ok (.spld d a i) => execSpld d a i s
      | .ok (.spldq d a i) => execSpldq d a i s
      | .ok (.spst d a i) => execSpst d a i s
      | .ok (.spstq d a i) => execSpstq d a i s
      | .ok (.vtaglk d a i) => execVtaglk d a i s
      | .ok (.tagset d a i) => execTagset d a i s
      | .ok (.tagclr d a i) => execTagclr d a i s
      | .ok (.spatadd d a i) => execSpatadd d a i s
      | .ok (.spataddF d a i) => execSpataddF d a i s
      | .ok (.dly a i) => execDly a i s
      | _ => extRefused s

end Sys2Proof.Machine
end

