-- ==== Sys2Proof/Machine/Errors.lean ====
section
/-!
DEFINITION. Flipped bits (R362 to R366): corrections and their wear, uncorrectable granules, the policy of their owner,
and errors of on-chip state with the trial failures of islands (R371).
-/

namespace Sys2Proof.Machine

/-! ### Device memory -/

/-- The policy that applies to an uncorrectable line (R365, Table D.4): 0 none, 1 END, 2 POISON. -/
def State.linePolicy (s : State) (a : Nat) : Nat :=
  match s.ownerOf a with
  | none => 0
  | some c =>
    match s.pages.find? (fun p => p.ctx == c && p.sp == .dev && decide (p.frame ≤ a) && decide (a < p.frame + p.size)) with
    | some p => if p.rasPoison then 2 else 1
    | none => 1

/-- Near or far memory, as an event record says it. -/
def memPlace (a : Nat) : Nat := if a < farBase then 0 else 1

/-- An event record of a line (Table D.4). -/
def State.lineEvent (s : State) (cause a policy : Nat) : State :=
  s.logEvent cause (memPlace a) ((s.ownerOf a).getD 0xFF) (homeDie a) 0xFF 0xFF 0 a policy

/-- Clk of 24 hours (R364). -/
def day : Nat := 86400 * 940000000

/-- A correction counted against its 4 KiB region (R364): the fourth within 24 hours remaps a near region to a spare,
which no agent observes, and records a far one for repair at the next cold reset. -/
def State.wearOut (s : State) (a : Nat) : State :=
  let k := a / 4096
  let w : Wear := findD (fun x => x.region == k) { region := k, counts := [], remapped := false } s.wear
  let ts := (w.counts.filter fun t => decide (s.clk < t + day)) ++ [s.clk]
  let full := decide (4 ≤ ts.length)
  let near := memPlace a == 0
  let w : Wear := { w with counts := (if full && near then [] else ts), remapped := w.remapped || (full && near) }
  let s : State := { s with wear := putKey Wear.region w s.wear }
  if full = false then s
  else if near then s.lineEvent 4 a 0
  else if s.repair.contains k then s
  else ({ s with repair := s.repair ++ [k] } : State).lineEvent 5 a 0

/-- A granule with one flipped bit (R362): corrected, written back, and counted. -/
def State.correctLine (s : State) (a : Nat) : State := (s.lineEvent 1 a 0).wearOut a

/-- A granule marked poisoned. -/
def State.markPoison (s : State) (p : PAddr) : State :=
  let g := p.a / 8 * 8
  if (s.poisonOf p.sp).contains g then s else s.putPoison p.sp (s.poisonOf p.sp ++ [g])

/-- A granule with two or more flipped bits (R362): poisoned, with its event record. -/
def State.poisonLine (s : State) (a : Nat) : State := (s.lineEvent 2 a (s.linePolicy a)).markPoison ⟨.dev, a⟩

/-- What follows where the owner tag is invalid (R365): the Harrow rewrites a standing entry and a ring record. -/
def State.rewriteLine (s : State) (a : Nat) : State :=
  if harrowBase + 0x400000 ≤ a ∧ a < harrowBase + 0x800000 then s.writeStanding ((a - (harrowBase + 0x400000)) / 0x100)
  else if harrowBase + 0x800000 ≤ a ∧ a < harrowBase + 0xC00000 then
    let g := a / 8 * 8
    s.unitStore ⟨.dev, g⟩ (cellsGetN s.dev g 8)
  else s

/-! ### On-chip state -/

/-- The island of a group (R219): the vector pipe it is bound to. -/
def Group.island (g : Group) : Nat := coreOf g.die g.core * 4 + g.slot % 4

/-- The clk of one millisecond and of one hour's µs. -/
def msClk : Nat := 940000
def hourUs : Nat := 3600000000

/-- A trial failure of an island (R371): it returns to SAFE, and is barred for one hour. -/
def Island.fail (i : Island) (clk : Nat) : Island :=
  { i with vcur := i.safe, barred := true, barEnd := clk / 940 + hourUs }

/-- Whether an uncorrectable error counts as a trial failure of an island (R371, R372). -/
def Island.onTrial (i : Island) (clk : Nat) : Bool :=
  !i.nt && (match i.trimmed with
    | some t => decide (clk ≤ t + msClk)
    | none => false)

/-- A read of on-chip state of a group's team finds flipped bits (R362, R366): `place` as in Table D.4, 3 for a register
file, whose errors count for the group's island.  An uncorrectable one ends the context. -/
def State.chipError (s : State) (g : Group) (place flips : Nat) : State :=
  let k := g.island
  let i := s.island k
  let log := fun (s : State) (cause policy : Nat) => s.logEvent cause place g.ctx g.die (g.core / 4) g.core k 0 policy
  if flips = 0 then s
  else if flips = 1 then
    log (if place = 3 then s.putIsland { i with corrected := i.corrected + 1 } else s) 1 0
  else
    let trial := place = 3 ∧ i.onTrial s.clk = true
    let s := if trial then s.putIsland (i.fail s.clk) else s
    (log s (if trial then 3 else 2) 1).endContext g.ctx 0x24 0

/-- A read of queue-SRAM entries finds flipped bits (R362, R366): they belong to the queue's context.
(Log entry 155 DEDUCED.) -/
def State.queueError (s : State) (q : Queue) (flips : Nat) : State :=
  let log := fun (cause policy : Nat) => s.logEvent cause 5 q.ctx q.die 0xFF 0xFF 0 0 policy
  if flips = 0 then s else if flips = 1 then log 1 0 else (log 2 1).endContext q.ctx 0x24 0

end Sys2Proof.Machine
end

