-- ==== Sys2Proof/Machine/StepsOrder.lean ====
section
/-!
DEFINITION. Hardware steps of the ordering machine (Table B.6): PERFORM, READ, ATOMIC, FILL and EVICT, the watches of
SPOLLNE (R142), the ends of translation fills (R147), instruction-cache fills (R211), and results landing (R48).
-/

namespace Sys2Proof.Machine

/-- A hardware step: its effect where its condition holds, and nothing where it does not. -/
def hw (s : State) (f : State → Option State) : Answer := .next ((f s).getD s)

/-- Counters that fall, and a wait that is over, of a group after one of its accesses moved on. -/
def State.follow (s : State) (gid : Nat) : State := (s.retire gid).wake gid

/-- PERFORM of the store `a` (R224). -/
def execPerform (s : State) : Answer :=
  hw s fun s =>
    match s.stores.find? (fun x => x.sid == s.arg.a) with
    | none => none
    | some x => if s.mayPerform x then some ((s.performOne x).follow x.gid) else none

/-! ### READ -/

/-- The register words of a load of `width` bytes (Table A.57). -/
def loadWords (width : Nat) (sx : Bool) (bs : List Byte) : List Word :=
  match width with
  | 1 => [if sx then (BitVec.ofNat 8 (leNat bs)).signExtend 32 else BitVec.ofNat 32 (leNat bs)]
  | 2 => [if sx then (BitVec.ofNat 16 (leNat bs)).signExtend 32 else BitVec.ofNat 32 (leNat bs)]
  | n => (List.range ((n + 3) / 4)).map fun i => BitVec.ofNat 32 (leNat ((bs.drop (4 * i)).take 4))

/-- The register writes of a lane's read. -/
def Access.written (a : Access) (l : Nat) (ws : List Word) : List Landing :=
  match a.kind with
  | .sld => [wordTo true a.dst l (ws.getD 0 0)]
  | .sldacq => [wordTo true a.dst l (ws.getD 0 0)]
  | .spollne => [wordTo true a.dst l (ws.getD 0 0)]
  | .sld64 => [wordTo true a.dst l (ws.getD 0 0), wordTo true (a.dst + 1) l (ws.getD 1 0)]
  | .tag => if a.op = 1 then [] else [wordTo false a.dst l (ws.getD 0 0)]
  | _ => ws.mapIdx fun i x => wordTo false (a.dst + i) l x

/-- An access none of whose lanes is left completes the acquire it carries (R229): an SPOLLNE only when its value is
new, which also restores the BACKOFF lowering (R100, R142). -/
def State.completeAcquire (s : State) (g : Group) (a : Access) (got : Word) : Group :=
  if a.lanes.all LaneReq.finished then
    if a.kind = .spollne then
      (if got = a.cmp then g else { s.acquired g (a.acq.getD 3) with lower := 0 })
    else match a.acq with
      | some sc => s.acquired g sc
      | none => g
  else g

/-- The read of a lane takes its value: words for its registers, and the stores they are of. -/
def State.takeRead (s : State) (g : Group) (a : Access) (l : LaneReq) (ws : List Word) (from_ : List (Nat × Byte)) :
    State :=
  let a := a.finish l.lane false (a.written l.lane ws)
  let g := s.raiseAll (g.putAcc a) l.loc from_
  let s := { s with opStep := s.opStep + 1 }
  (s.putGroup (s.completeAcquire g a (ws.getD 0 0))).follow g.gid

/-- A poisoned read (R132): nothing is written; under END the context ends. -/
def State.poisonRead (s : State) (g : Group) (a : Access) (l : LaneReq) : State :=
  if s.poisonPolicy g.ctx l.va l.loc then
    let a := a.finish l.lane true []
    (s.putGroup (s.completeAcquire (g.putAcc a) a a.cmp)).follow g.gid
  else s.endContext g.ctx 0x24 0

/-- Bytes of a launch queue's refused-kick counts (R321). -/
def State.refusedBytes (s : State) (ctx a n : Nat) : List Byte :=
  (List.range n).map fun i =>
    let o := a + i - 0x80
    let count := match s.ctx? ctx with
      | some c => (match c.refusedKicks.find? (fun e => e.1 == o / 8) with
        | some e => e.2
        | none => 0)
      | none => 0
    BitVec.ofNat 8 (count / 256 ^ (o % 8))

/-- The data of a load: a refused-kick count (R321), or bytes from the L1 line where that is asked for and may serve, else
the last stores the group sees; none where a granule read from its home is poisoned (R132). -/
def State.loadLane (s : State) (g : Group) (a : Access) (l : LaneReq) (useLine : Bool) : Option (List (Nat × Byte)) :=
  let n := a.width
  match l.loc.sp with
  | .kick c => some ((s.refusedBytes c l.loc.a n).map fun b => (0, b))
  | _ => match (if useLine then s.lineBytes g a.id l.loc n else none) with
    | some bs => some bs
    | none => s.homeRead g a.id l.loc n

/-- Whether a plain or nontemporal load may take its data from the L1 (R128, R137). -/
def Access.mayUseLine (a : Access) : Bool :=
  (a.kind == .ld && decide (a.op ≤ 1)) || a.kind == .sld || a.kind == .sld64

/-- A PLD reads every lane at once, from one side of any swap (R249). -/
def State.readPlane (s : State) (g : Group) (a : Access) : State :=
  match s.region g a.op with
  | none => s
  | some r =>
    let a : Access := { a with
      lanes := a.lanes.map fun y => { y with finished := true }
      results := a.lanes.map fun l => wordTo false a.dst l.lane (r.presentAt l.va) }
    (s.putGroup (g.putAcc a)).follow g.gid

/-- One READ of a lane (R226, R228). -/
def State.readLane (s : State) (g : Group) (a : Access) (l : LaneReq) (line : Bool) : Option State :=
  if l.finished || !s.joinClear g.gid a.epoch || s.laneAway g.ctx l then none
  else match a.kind with
    | .pld => if a.lanes.any (fun y => g.accessBefore a.id y.loc 4) then none else some (s.readPlane g a)
    | .tag =>
      if l.y = 0 then some (s.takeRead g a l [l.x] [])
      else if g.tagHeld a.id then none else some (s.tagAct g a)
    | .spollne =>
      if l.y ≠ 0 then some (s.takeRead g a l [l.x] [])
      else if !(s.mayWatch g a l) || decide (l.loc.sp ≠ .dev) then none
      else match s.watchBytes g a l with
        | none => none
        | some bs =>
          if s.anyPoison l.loc 4 then some (s.poisonRead g a l) else
          let w := (loadWords 4 false (bs.map Prod.snd)).getD 0 0
          if w = a.cmp then none else some (s.takeRead g a l [w] bs)
    | .atom => none
    | .satadd => none
    | .satcas => none
    | .spatadd => none
    | .spataddF => none
    | _ =>
      if g.accessBefore a.id l.loc a.width then none
      else match l.loc.sp with
        | .port _ => none
        | _ => match s.loadLane g a l (line && a.mayUseLine) with
          | none => some (s.poisonRead g a l)
          | some bs => some (s.takeRead g a l (loadWords a.width a.sx (bs.map Prod.snd)) bs)

/-- The bits that the read of a lane finds flipped at its home (R362): one is corrected, more poison the granule.
(Log entry 112 DESIGN CHOICE.) -/
def State.readFlips (s : State) (g : Group) (l : LaneReq) (flips : Nat) : State :=
  match l.loc.sp with
  | .dev => if flips = 0 then s else if flips = 1 then s.correctLine l.loc.a else s.poisonLine l.loc.a
  | .win _ =>
    if flips = 0 then s
    else if flips = 1 then s.chipError g 2 1
    else (s.logEvent 2 2 g.ctx g.die (g.core / 4) g.core 0 0 1).markPoison l.loc
  | .plane .. => if flips = 0 then s else s.chipError g 4 flips
  | _ => s

/-- READ of lane `b` of the access `a`, from the L1 line where `flag` asks for it (R226), with `c` flipped bits found in
its granule (R362); the Harrow rewrites its own entry or record where they poison one (R365).  With `flag2` it is another
read of on-chip state, of the kind `d` of Table D.4, made for group `a`, or for the queue in slot `a` where the kind is
queue SRAM (R366). (Log entries 111 DESIGN CHOICE, 155 DEDUCED.) -/
def execRead (s : State) : Answer :=
  hw s fun s =>
    if s.arg.flag2 then
      if s.arg.c = 0 then none
      else if s.arg.d = 5 then (s.queue? s.arg.a).map fun q => s.queueError q s.arg.c
      else (s.group? s.arg.a).map fun g => s.chipError g s.arg.d s.arg.c
    else
      match s.access? s.arg.a with
      | none => none
      | some (g, a) => match a.lanes.find? (fun l => l.lane == s.arg.b) with
        | none => none
        | some l =>
          if (s.readLane g a l s.arg.flag).isNone then none
          else
            let bad := l.loc.sp == .dev && decide (2 ≤ s.arg.c) && (s.ownerOf l.loc.a).isNone
            let s := s.readFlips g l s.arg.c
            let s := match s.access? a.id with
              | some (g, a) => (s.readLane g a l s.arg.flag).getD s
              | none => s
            some (if bad then s.rewriteLine l.loc.a else s)

/-- ATOMIC of lane `b` of the access `a` (R234). (Log entry 111 DESIGN CHOICE.) -/
def execAtomic (s : State) : Answer :=
  hw s fun s =>
    match s.access? s.arg.a with
    | none => none
    | some (g, a) => match a.lanes.find? (fun l => l.lane == s.arg.b) with
      | none => none
      | some l =>
        if a.pendingAtomic && s.mayAtomic g a l then
          (if s.atomicEnds g l then some (s.endContext g.ctx 0x24 0)
           else some ((s.atomicLane g a l).follow g.gid))
        else none

/-! ### L1 lines -/

/-- The block of 16 bytes that holds a location. -/
def blockOf (p : PAddr) : PAddr := { p with a := p.a / 16 * 16 }

/-- Memory that the L1 serves (R128). (Log entry 14 DESIGN CHOICE.) -/
def cached (sp : Space) : Bool :=
  match sp with
  | .dev => true
  | .host => true
  | .peer _ => true
  | _ => false

/-- FILL of the line at `loc` of core `a`: the last stores of x's order for its cluster (R224, R226).  A block with a
poisoned granule is not filled, so that each of its reads meets the poison (R132). (Log entry 14 DESIGN CHOICE.) -/
def execFill (s : State) : Answer :=
  hw s fun s =>
    let p := blockOf s.arg.loc
    let c := s.arg.a
    if !(cached p.sp && s.enabled c) || s.anyPoison p 16 then none
    else
      let got := (List.range 16).map fun i => s.seen 0 (c % 40 / 4) (dieOfCore c) 0 (p.plus i)
      let s := { s with opStep := s.opStep + 1 }
      let b : L1Block := { core := c, loc := p, bytes := got.map Prod.snd, sids := got.map Prod.fst,
                           took := List.replicate 16 s.opStep }
      some { s with l1 := s.l1.filter (fun x => !(x.core == c && decide (x.loc = p))) ++ [b] }

/-- EVICT of the line at `loc` of core `a` (R224). (Log entry 14 DESIGN CHOICE.) -/
def execEvict (s : State) : Answer :=
  hw s fun s =>
    let p := blockOf s.arg.loc
    if s.l1.any (fun x => x.core == s.arg.a && decide (x.loc = p)) then
      some { s with opStep := s.opStep + 1, l1 := s.l1.filter fun x => !(x.core == s.arg.a && decide (x.loc = p)) }
    else none

/-! ### SPOLLNE -/

/-- The watch of the access `a` ends after 1,880 clk, or in the drain of a context switch, and returns the word read
then (R142). -/
def execSpollneWindowEnd (s : State) : Answer :=
  hw s fun s =>
    match s.access? s.arg.a with
    | none => none
    | some (g, a) => match a.lanes with
      | l :: _ =>
        let cut := match s.team? g.tid with
          | some t => t.state == .stopping
          | none => false
        if a.kind = .spollne && !l.finished && l.y = 0 && (cut || decide (a.issued + 1880 ≤ s.clk))
            && s.joinClear g.gid a.epoch && !g.accessBefore a.id l.loc a.width && !s.laneAway g.ctx l then
          match s.loadLane g a l false with
          | none => some (s.poisonRead g a l)
          | some bs => some (s.takeRead g a l (loadWords 4 false (bs.map Prod.snd)) bs)
        else none
      | [] => none

/-- The word of a watch `a` on a host or peer page is read again every 256 clk, once the group's earlier accesses let it
be (R142, R227, R233). -/
def execSpollneReread (s : State) : Answer :=
  hw s fun s =>
    match s.access? s.arg.a with
    | none => none
    | some (g, a) => match a.lanes with
      | l :: _ =>
        if s.mayWatch g a l && !s.laneAway g.ctx l && decide (l.loc.sp ≠ .dev) && decide ((s.clk - a.issued) % 256 = 0) then
          match s.loadLane g a l false with
          | none => some (s.poisonRead g a l)
          | some bs =>
            let w := (loadWords 4 false (bs.map Prod.snd)).getD 0 0
            if w = a.cmp then none else some (s.putGroup (s.capture g a bs))
        else none
      | [] => none

/-! ### Check phases, fills and landings -/

/-- The access of the instruction that a group issued last, while it is in its check phase. -/
def Group.checked (g : Group) : Option Access :=
  match g.wait with
  | .check .. => g.acc.find? fun a => some a.issued == g.lastIssue && decide (a.path ≠ 4)
  | _ => none

/-- The kind of data access that an access makes (Table C.15), and whether it is scalar. -/
def Access.dir (a : Access) : Dir :=
  match a.kind with
  | .st => .wr
  | .atom => .at_ a.op
  | .satadd => .at_ a.op
  | .satcas => .at_ a.op
  | _ => .rd
def Access.scalar (a : Access) : Bool :=
  a.kind == .sld || a.kind == .sld64 || a.kind == .sldacq || a.kind == .spollne || a.kind == .satadd || a.kind == .satcas

/-- A lane that has been translated afresh: it goes on at its new location, or is gone with its failure. -/
def State.relocate1 (s : State) (g : Group) (a : Access) (l : LaneReq) : LaneCheck → State
  | .pass r =>
    let s := if r.loc.sp = .host then s.migTouch g.ctx r.va else s
    let s : State := { s with stores := s.stores.map fun x =>
      if x.acc = a.id ∧ x.lane = l.lane then { x with tgt := .mem r.loc } else x }
    (match s.access? a.id with
     | some (g, a) => s.putGroup (g.putAcc { a with lanes := a.lanes.map fun y =>
         if y.lane = l.lane then { y with loc := r.loc, stale := false } else y })
     | none => s)
  | .moving => s
  | .fail _ =>
    let s : State := { s with stores := s.stores.filter fun x => !(x.acc == a.id && x.lane == l.lane) }
    (match s.access? a.id with
     | some (g, a) => s.putGroup (g.putAcc { a with lanes := a.lanes.filter fun y => y.lane ≠ l.lane })
     | none => s)

/-- The lanes of a check phase whose translation was shot down translated afresh, with those that now fail (R313);
none while a page of one moves (R311). -/
def State.retranslate (s : State) (g : Group) : Option (State × List LaneFail) :=
  match g.checked with
  | none => some (s, [])
  | some a =>
    let cs := (a.lanes.filter LaneReq.stale).map fun l =>
      (l, s.checkLane g TransReg.fresh l.lane l.va a.width a.dir a.scalar l.x l.y)
    if cs.any (fun c => c.2.isMoving) then none
    else some (s.each cs fun s c => s.relocate1 g a c.1 c.2, cs.filterMap fun c => c.2.fail?)

/-- The check phase of the access that group `a` issued last ends (R130, R131), with the lanes translated afresh that a
shoot-down asks it of (R313). (Log entries 15 DESIGN CHOICE, 72 DEDUCED.) -/
def execCheckPhaseEnd (s : State) : Answer :=
  hw s fun s =>
    match s.group? s.arg.a with
    | none => none
    | some g => match g.wait with
      | .check due len fails =>
        if due ≤ s.clk then
          (s.retranslate g).map fun x =>
            let s := x.1
            let g := (s.group? g.gid).getD g
            let fails := fails ++ x.2
            (if fails = [] then s.putGroup (g.advance len) else s.failLanes { g with wait := .none } fails).follow g.gid
        else none
      | _ => none

/-- The fill of a translation register, the XLATE access `a`, ends (R147). -/
def execXlateFillEnd (s : State) : Answer :=
  hw s fun s =>
    match s.access? s.arg.a with
    | none => none
    | some (g, a) =>
      let b := g.breg a.dst2
      let later := g.acc.any fun y => y.kind == .xlate && y.dst2 == a.dst2 && decide (a.id < y.id) && !y.returned
      if a.kind ≠ .xlate ∨ a.returned = true then none
      else if s.translate g.ctx b.base.toNat = .moving then none
      else
        let g := g.putAcc { a with returned := true }
        let g : Group := if b.state = .filling && !later then
            { g with b := g.b.set a.dst2 (s.fill g.ctx b.base.toNat) } else g
        some ((s.putGroup g).follow g.gid)

/-- A line of an instruction cache of four ways and 128 sets (R211). (Log entry 16 DESIGN CHOICE.) -/
def icacheAdd (lines : List Nat) (x : Nat) : List Nat :=
  if lines.contains x then lines
  else
    let same := lines.filter fun y => decide (y % 128 = x % 128)
    match same with
    | a :: _ => (if 4 ≤ same.length then lines.filter (· ≠ a) else lines) ++ [x]
    | [] => lines ++ [x]

/-- The line `b`, which holds address `d` of context `c`, arrives in the instruction cache of core `a` (R211): a line of
host memory is a device access to its page (R309). -/
def execIcacheFill (s : State) : Answer :=
  hw s fun s =>
    let c := s.core s.arg.a
    if c.icache.contains s.arg.b then none
    else some ((s.putCore { c with icache := icacheAdd c.icache s.arg.b }).migTouch s.arg.c s.arg.d)

/-- The fixed-latency results of group `a` that are due land (R48). -/
def execWriteLands (s : State) : Answer :=
  hw s fun s =>
    match s.group? s.arg.a with
    | none => none
    | some g => if g.landing.any (fun w => decide (w.due ≤ s.clk)) then some (s.putGroup (g.landDue s.clk)) else none

end Sys2Proof.Machine
end

