-- ==== Sys2Proof/Machine/StepsGroup.lean ====
section
/-!
DEFINITION. Hardware steps of groups and teams: ends of delays and holds (R98, R99), the end of a group (R101, R154),
barriers and their waves (R153, R155), grid barriers (R156), plane steps (R185), the matrix engine (R216, R217), chain
links (R258), pops (R162), and an instruction that does not decode (R54).
-/

namespace Sys2Proof.Machine

/-- The word at the issuing agent's program counter, as far as it can be fetched. -/
def State.issueWord (s : State) : Nat :=
  match s.issue with
  | none => 0
  | some i => match i.who with
    | .group gid => (match s.group? gid with
      | some g => (match s.groupBytes g g.pc with
        | .ok bs => leNat bs
        | .error _ => 0)
      | none => 0)
    | .stream tid => (match s.team? tid with
      | some t => (match t.stream with
        | some m => s.streamWord t m
        | none => 0)
      | none => 0)

/-- A word that decodes to no instruction (R54): ILLEGAL_INSTRUCTION, but for a word of the wrong stream (R55). -/
def execIllegalInstruction (s : State) : Answer :=
  let mstr := s.issueWord % 2 == 1 && fld s.issueWord 3 5 == 0x1C
  match s.issue with
  | none => .fault .noIssue
  | some i => match i.who with
    | .group _ => withGroup s fun _ g => s.trap g (if mstr then cMatrixStream else cIllegalInstruction)
    | .stream _ => withStream s fun t m =>
        s.stopStream t m (if mstr then cIllegalInstruction else cMatrixStream) 0xFF (s.streamWord t m)

/-! ### Delays, holds and waves -/

/-- The wait of a DLY of group `a` expires (R98); that of a team that stops is cut and serves its rest after the resume
(R314). -/
def execDlyEnd (s : State) : Answer :=
  hw s fun s =>
    match s.awake? s.arg.a with
    | none => none
    | some g => match g.wait with
      | .dly t =>
        let runs := match s.team? g.tid with
          | some t => t.state == .running
          | none => true
        if t ≤ s.clk ∧ runs = true then some (s.putGroup { g with wait := .none }) else none
      | _ => none

/-- The hold of a YIELD of group `a` ends after 8 beats (R99). -/
def execYieldEnd (s : State) : Answer :=
  hw s fun s =>
    match s.awake? s.arg.a with
    | none => none
    | some g => match g.wait with
      | .yield t => if t + 32 ≤ s.clk then some (s.putGroup { g with wait := .none }) else none
      | _ => none

/-- The wave of the released group `a` becomes eligible (R155): the instruction completes with its acquire. -/
def execBarrierWave (s : State) : Answer :=
  hw s fun s =>
    match s.awake? s.arg.a with
    | none => none
    | some g => match g.wait with
      | .wave due scope => if due ≤ s.clk then some (s.putGroup ((s.acquired g scope).advance 4)) else none
      | _ => none

/-- A barrier `b` of team `a` whose count is complete and whose counted releases are performed opens (R153), or its oldest
opening that is due is seen on its core (R212). -/
def execBarrierOpen (s : State) : Answer :=
  hw s fun s =>
    match s.awakeTeam? s.arg.a with
    | none => none
    | some t =>
      if s.barrierReady t s.arg.b then some (s.openBarrier t.tid s.arg.b)
      else ((t.bar s.arg.b).opens.find? fun o => decide (o.due ≤ s.clk)).map (s.showOpening t s.arg.b)

/-! ### The end of a group -/

/-- A DEFAULT barrier after one of its groups has ended (R154). -/
def State.adjustBarrier (s : State) (g : Group) (b : Nat) : State :=
  match s.team? g.tid with
  | none => s
  | some t =>
    let x := t.bar b
    if x.isSet then s
    else
      let here := (g.bar b).arr == some x.gen
      let x' : Barrier := { x with
        expect := x.expect - 1, arrived := if here then x.arrived - 1 else x.arrived }
      let t := t.putBar b x'
      let s := s.putTeam t
      if !here && s.barrierReady t b then s.openBarrier t.tid b else s

/-- A queued job behind a guard that is not true is discarded; one that is unguarded leaves the queue (R203). -/
def State.endJobs (s : State) (tid : Nat) : Nat → State
  | 0 => s
  | n + 1 =>
    let s := s.pumpJobs tid n
    match s.team? tid with
    | none => s
    | some t => match t.jobs with
      | [] => s
      | jid :: _ => match s.job? jid with
        | none => s
        | some j => (s.discardJob j).endJobs tid n

/-- What follows when every group of a team has ended: its stream ends at an MWAITB (R188), and jobs behind unresolved
guards are discarded (R203). -/
def State.teamEnded (s : State) (tid : Nat) : State :=
  if s.groups.any (fun g => g.tid == tid && !g.ended) then s
  else match s.team? tid with
    | none => s
    | some t =>
      let stream := t.stream.map fun m => if m.wait != MWait.none then { m with ended := true } else m
      (s.putTeam { t with stream := stream }).endJobs tid (t.jobs.length + 1)

/-- The stage of a chain that a group is, ended (R262). -/
def State.endStage (s : State) (g : Group) : State :=
  match s.chainOf g with
  | none => s
  | some c =>
    let k := c.stageOf g.gid
    let c : Chain := { c with stages := c.stages.mapIdx fun i st => if i = k then { st with ended := true } else st }
    (s.putChain c).foldSwitch c.cid

/-- Whether a group's end ends a group of its team: a stage of a folded chain ends the folded group only as the last
one (R262). -/
def State.lastStage (s : State) (g : Group) : Bool :=
  match s.chainOf g with
  | none => true
  | some c => !c.folded || c.stages.all fun st => st.ended || st.gid == g.gid

/-- A group ended, with what follows for its team: its DEFAULT barriers, its stage of a chain, and the end of the
team's work when it was the last (R101, R154, R203, R262). (Log entry 53 DEDUCED.) -/
def State.endGroup (s : State) (g : Group) : State :=
  let g : Group := { g.settle with ended := true, wait := .none, path := [], loops := [], u := 0 }
  let s := s.putGroup g
  let s := if s.lastStage g then s.each (List.range 16) fun s b => s.adjustBarrier g b else s
  (s.endStage g).teamEnded g.tid

/-- Group `a`, whose END has committed and whose counters are 0, ends (R101).  Poison that the wait passed traps first
(R132), and so does a trap that a release left to the group (R164). (Log entry 53 DEDUCED.) -/
def execGroupEnd (s : State) : Answer :=
  hw s fun s =>
    match s.awake? s.arg.a with
    | none => none
    | some g =>
      if g.wait ≠ .endDrain ∨ g.acc ≠ [] then none
      else match g.poison, g.pend with
        | p :: _, _ => some (s.poisonTrap { g with wait := .none } p)
        | [], p :: _ => some (s.takePend { g with wait := .none } p)
        | [], [] => some (s.endGroup g)

/-! ### Grid barriers (R156) -/

/-- The teams of a launch on a die. -/
def State.dieTeams (s : State) (l die : Nat) : List Team :=
  s.teams.filter fun t => t.launch == l && dieOfCore t.home == die && t.state != .retired

/-- Whether every group of a team that has not ended waits at grid barrier n with its release performed. -/
def State.teamAtGbar (s : State) (t : Team) (n : Nat) : Bool :=
  t.state != .saved && s.groups.all fun g => !(g.tid == t.tid && !g.ended) || (g.wait == Wait.gbar n && s.performedAt g.gid s.nextId 3)

/-- Die `b` forwards its arrival at grid barrier `c` of launch `a`. -/
def execGbarDieArrival (s : State) : Answer :=
  hw s fun s =>
    match s.launch? s.arg.a with
    | none => none
    | some l =>
      let n := s.arg.c
      let dies := l.gbDies.getD n []
      if l.gbar && decide (n < 4) && !dies.contains s.arg.b && !(s.dieTeams l.lid s.arg.b).isEmpty
          && (s.dieTeams l.lid s.arg.b).all (fun t => s.teamAtGbar t n) then
        some (s.putLaunch { l with gbDies := l.gbDies.set n (dies ++ [s.arg.b]) })
      else none

/-- The package level releases grid barrier `b` of launch `a`. -/
def execGbarRelease (s : State) : Answer :=
  hw s fun s =>
    match s.launch? s.arg.a with
    | none => none
    | some l =>
      let n := s.arg.b
      let ts := s.teams.filter fun t => t.launch == l.lid && t.state != .retired
      let waits := s.groups.any fun g => g.wait == Wait.gbar n && ts.any fun t => t.tid == g.tid
      if l.gbar && waits && ts.all (fun t => t.state != .saved && (l.gbDies.getD n []).contains (dieOfCore t.home)) then
        let s := s.putLaunch { l with gbDies := l.gbDies.set n [] }
        some (s.each ts fun s t => s.releaseWaves t 3 (s.clk + 1) fun g => g.wait == Wait.gbar n)
      else none

/-! ### Plane steps -/

/-- The collision record of a cancelled swap (Table B.17): the lowest collided word. -/
def Plane.collisionRecord (p : Plane) : List Byte :=
  let cs := p.next.filter fun e => e.coll.isSome
  match cs with
  | [] => []
  | c :: r =>
    let e := r.foldl (fun (m e : NextWord) => if e.w < m.w then e else m) c
    let k := e.coll.getD (0, 0)
    leBytes 4 p.id ++ leBytes 4 e.w ++ leBytes 4 p.steps.toNat ++ leBytes 4 e.key.toNat ++ leBytes 4 k.1.toNat
      ++ leBytes 4 e.x.toNat ++ leBytes 4 k.2.toNat ++ leBytes 4 cs.length

/-- A cancelled swap (R185, R250): every waiting member traps with the one record, in the block of the step group's
lowest member. -/
def State.cancelSwap (s : State) (t : Team) (p : Plane) (waiting : List Group) : State :=
  let low := s.groups.filter fun g => g.tid == t.tid && p.member g
  let block := match low with
    | [] => 0
    | g :: r => s.faultBlock (r.foldl (fun (m x : Group) => if x.grp < m.grp then x else m) g)
  let s := (s.writeVa t.ctx block p.collisionRecord).1
  let s := s.putTeam (t.putPlane p.cancel)
  s.each (waiting.map Group.gid) fun s gid =>
    match s.group? gid with
    | some g => s.trapEntry { g with wait := .none } cPlaneCollision 0 g.pc g.exec block false
    | none => s

/-- Whether a group waits at a step of a region. -/
def Group.atStep (g : Group) (p : Nat) : Bool :=
  match g.wait with
  | .pstep q _ => q == p
  | _ => false

/-- A completed swap (R185, R245): the members' program-order counts start again, and they are released (R155). -/
def State.completeSwap (s : State) (t : Team) (p : Plane) : State :=
  let s := s.putTeam (t.putPlane p.swap)
  let s : State := { s with opStep := s.opStep + 1, groups := s.groups.map fun g =>
    if g.tid == t.tid && p.member g then { g with psts := g.psts.filter fun e => e.1 != p.id } else g }
  s.releaseWaves t 0 s.clk fun g => g.atStep p.id

/-- The clk in which a waiting member's arrival reaches the home core: 8 clk later from a partner core (R254).
(Log entry 107 DEDUCED.) -/
def Team.stepArrival (t : Team) (g : Group) (p : Nat) : Option Nat :=
  match g.wait with
  | .pstep q (some c) => if q = p then some (if t.atHome g then c else c + 8) else none
  | _ => none

/-- The members of a region that have not ended. -/
def State.stepMembers (s : State) (t : Team) (p : Plane) : List Group :=
  s.groups.filter fun g => g.tid == t.tid && p.member g && !g.ended

/-- Whether every member that has not ended has arrived at the home core in a clk before `by_` (R247, R254).
(Log entry 107 DEDUCED.) -/
def State.stepDue (s : State) (t : Team) (p : Plane) (by_ : Nat) : Bool :=
  let ms := s.stepMembers t p
  !ms.isEmpty && ms.all fun g => match t.stepArrival g p.id with
    | some c => decide (c < by_)
    | none => false

/-- The step of region `b` of team `a` (R185, R247), in the clk after the last arrival has reached the home core, or
in the clk in which the last member ends (R254). (Log entry 107 DEDUCED.) -/
def execSwap (s : State) : Answer :=
  hw s fun s =>
    match s.awakeTeam? s.arg.a with
    | none => none
    | some t => match t.plane? s.arg.b with
      | none => none
      | some p =>
        if s.stepDue t p s.clk then
          (if p.rule = 5 ∧ p.next.any (fun e => e.coll.isSome) = true then some (s.cancelSwap t p (s.stepMembers t p))
           else some (s.completeSwap t p))
        else none

/-! ### The matrix engine -/

/-- The oldest MMA or MZERO of team `a` that is due retires (R216). -/
def execMmaRetire (s : State) : Answer :=
  hw s fun s =>
    match s.team? s.arg.a with
    | none => none
    | some t => match t.stream with
      | none => none
      | some m => match m.inFlight.find? (fun o => decide (o.due ≤ s.clk)) with
        | none => none
        | some o => some (s.putStream t { m with inFlight := m.inFlight.erase o })

/-- The lease of core `a` ends and passes to the next holder, or renews when no other team waits (R217). -/
def execLeaseEnd (s : State) : Answer :=
  hw s fun s =>
    let c := s.core s.arg.a
    if c.lease.holder.isNone ∨ s.leaseOver c.lease = false then none
    else match s.leaseQueue c.core c.lease.holder with
      | [] =>
        (match c.lease.holder.bind s.team? with
         | none => some (s.putCore { c with lease := { c.lease with holder := none } })
         | some t =>
           let dead := match t.stream with
             | some m => m.ended || m.stopped.isSome
             | none => true
           if dead then some (s.putCore { c with lease := { c.lease with holder := none } })
           else some (s.putCore { c with lease := { c.lease with issued := 0, began := s.clk, quantum := s.quantum t.ctx } }))
      | _ => some (s.passLease c.core)

/-! ### Links and pops -/

/-- The oldest entry of link `b` of chain `a` that is due becomes poppable (R258). -/
def execLinkEntryReady (s : State) : Answer :=
  hw s fun s =>
    match s.chain? s.arg.a with
    | none => none
    | some c =>
      let l := c.link s.arg.b
      match l.entries.findIdx? (fun e => decide (e.readyAt ≠ 0) && decide (e.readyAt ≤ s.clk)) with
      | none => none
      | some i => some (s.putChain (c.setLink s.arg.b { l with
          entries := l.entries.mapIdx fun j e => if j = i then { e with readyAt := 0 } else e }))

/-- A pop with what it takes: registers for the lanes in its mask (none when it takes nothing) and its count, written when
QRD falls past it (R162, R163). -/
def State.endPop (s : State) (g : Group) (a : Access) (regs : List Vec) (count : Nat) : State :=
  let ws : List Landing := regs.mapIdx fun i x => { scalar := false, reg := a.dst + i, lanes := a.mask, value := x, due := 0 }
  let st := if a.kind = .qget then [] else [wordTo true a.dst2 0 (BitVec.ofNat 32 count)]
  let g := g.putAcc { a with returned := true, results := ws ++ st }
  let g := if g.wait == Wait.chainPop a.id then g.advance 4 else g
  let s : State := { s with queues := s.queues.map (fun q =>
    if q.pops.contains a.id then { q with pops := q.pops.filter (· ≠ a.id) } else q) }
  (s.putGroup g).follow g.gid

/-- Whether a pop of the team is final: its queue is no MSG queue, or a COMMIT has been issued after it (R36). -/
def State.popFinal (s : State) (g : Group) (a : Access) : Bool :=
  a.bind.kind != .msg || (match s.team? g.tid with
    | some t => decide (a.turn < t.commitTurn)
    | none => true)

/-- The pop that a queue serves next (R166): the first that reached it and that no JOIN holds. -/
def State.firstPop (s : State) (q : Queue) : Option Nat :=
  q.pops.find? fun id => match s.access? id with
    | some (g, b) => s.joinClear g.gid b.epoch
    | none => false

/-- A pop of an MSG or STREAM queue (R162, R163, R166, R168).  A QTRY or QTRYP never waits for an entry.
(Log entry 31 DEDUCED.) -/
def State.popQueue (s : State) (g : Group) (a : Access) : Option State :=
  match s.queueOf a.bind.handle with
  | none => some (s.endPop g a [] 0)
  | some q =>
    match q.entries with
    | [] => if a.kind = .qget ∧ q.closed = false then none else some (s.endPop g a [] 0)
    | e :: r =>
      if q.paused then (if a.kind = .qget then none else some (s.endPop g a [] 0))
      else if s.firstPop q ≠ some a.id then none
      else if a.kind = .qtryp then some (s.endPop g a e.regs 1)
      else
        let tents := if s.popFinal g a then q.tents else q.tents ++ [{ tid := g.tid, turn := a.turn, entry := e }]
        some ((s.putQueue { q with entries := r, tents := tents }).endPop g a e.regs 1)

/-- The lane records of a BATCH pop as registers: successive records to the lanes of the mask, and the end record past
them (Table A.66). -/
def batchRegs (mask : Word) (recs : List (List Word)) : List Vec :=
  (List.range 4).map fun i => vmk fun l =>
    let k := ((lanesOf mask).filter (· < l)).length
    match recs[k]? with
    | some r => r.getD i 0
    | none => if i = 0 then 0xFFFFFFFF else 0

/-- A pop of a firing's batch (R162). -/
def State.popBatch (s : State) (g : Group) (a : Access) : State :=
  match s.batches.find? (fun b => b.bid == a.bind.aux) with
  | none => s.endPop g a [] 0
  | some b =>
    let n := popcount a.mask
    let got := b.left.take n
    if got = [] ∧ a.kind ≠ .qget then s.endPop g a [] 0
    else
      let s := if a.kind = .qtryp then s
        else { s with batches := s.batches.map fun x => if x.bid = b.bid then { x with left := x.left.drop n } else x }
      s.endPop g a (batchRegs a.mask got) got.length

/-- A pop of a chain link (R258, R261, R262). -/
def State.popLink (s : State) (g : Group) (a : Access) : Option State :=
  match s.chainOf g with
  | none => some (s.endPop g a [] 0)
  | some c =>
    let l := c.link a.bind.aux
    match l.entries with
    | [] =>
      if a.kind = .qget ∧ c.stageEnded a.bind.aux = false then none else some (s.endPop g a [] 0)
    | e :: r =>
      if e.readyAt ≠ 0 then (if a.kind = .qget then none else some (s.endPop g a [] 0))
      else if a.kind = .qtryp then some (s.endPop g a e.regs 1)
      else some (((s.putChain (c.setLink a.bind.aux { l with entries := r })).endPop g a e.regs 1).foldSwitch c.cid)

/-- Whether an earlier pop of the group on the same batch or link has not been served (R166). -/
def Group.popBefore (g : Group) (a : Access) : Bool :=
  (a.bind.kind == .batch || a.bind.kind == .chain) &&
  g.acc.any fun b => decide (b.id < a.id) && !b.returned && b.bind == a.bind && b.kind.isPop

/-- The pop `a` is served (R162, R163). (Log entries 31 DEDUCED, 111 DESIGN CHOICE.) -/
def execPop (s : State) : Answer :=
  hw s fun s =>
    match s.access? s.arg.a with
    | none => none
    | some (g, a) =>
      if a.returned || !a.kind.isPop || g.popBefore a || !s.joinClear g.gid a.epoch then none
      else match a.bind.kind with
        | .batch => some (s.popBatch g a)
        | .chain => s.popLink g a
        | _ => s.popQueue g a

end Sys2Proof.Machine
end

