-- ==== Sys2Proof/Machine/Jobs.lean ====
section
/-!
DEFINITION. Hardware steps of copy jobs (R172 to R178, R235, R357, R367): starting, reading a run, writing a run, and
ending.
-/

namespace Sys2Proof.Machine

/-! ### Conversion of a run (R172, R173) -/

/-- The source elements of a run. -/
def runElems (c : List Nat) (src : List Byte) : List Nat :=
  let z := fmtSize (cardFin c)
  (List.range (cardElems c)).map fun i => leNat ((src.drop (z * i)).take z)

/-- Two 4-bit elements to a byte, the first in the low half. -/
def packNibbles : List Nat → List Nat
  | a :: b :: r => (a + 16 * b) :: packNibbles r
  | [a] => [a]
  | [] => []

/-- The blocks of a BX run: elements and header of each. -/
def runBlocks (c : List Nat) (fmt : Word) (xs : List Nat) : List (List Nat × Nat) :=
  (List.range (cardBlocks c)).map fun b =>
    bxEncode (cardFout c == 5) (fmtSAT fmt) (fmtGAP fmt) (fun _ => rmOf (fmtRM fmt))
      (((xs.drop (32 * b)).take 32).map (elemValue (fmtFTZ fmt) (cardFin c)))

/-- convert() of R173: the element bytes of a run, then its header bytes. -/
def convertRun (c : List Nat) (fmt : Word) (src : List Byte) : List Byte :=
  if cardFin c = 15 then src
  else
    let xs := runElems c src
    if cardFout c = 5 ∨ cardFout c = 6 then
      let bs := runBlocks c fmt xs
      let es := bs.flatMap Prod.fst
      natBytes (if cardFout c = 5 then es else packNibbles es) ++ bs.flatMap (fun b => leBytes 2 b.2)
    else
      xs.flatMap fun x =>
        leBytes (fmtSize (cardFout c)) (convert (rmOf (fmtRM fmt)) (fmtSAT fmt) (fmtFTZ fmt) (cardFin c) (cardFout c) x)

/-- Which bytes of a run's result come from poisoned source bytes (R367): an element's from its own, and a block's,
its header among them, from any of the block. (Log entry 37 DEDUCED.) -/
def convertPoison (c : List Nat) (bad : Nat → Bool) : List Nat :=
  if cardFin c = 15 then (List.range (cardRun c)).filter bad
  else
    let zi := fmtSize (cardFin c)
    let elemBad := fun e => (List.range zi).any fun k => bad (zi * e + k)
    let n := cardOutBytes c
    if cardFout c = 5 ∨ cardFout c = 6 then
      let blockBad := fun b => (List.range 32).any fun k => elemBad (32 * b + k)
      let perBlock := if cardFout c = 5 then 32 else 16
      (List.range n).filter (fun i => blockBad (i / perBlock))
        ++ ((List.range (2 * cardBlocks c)).filter fun i => blockBad (i / 2)).map (n + ·)
    else (List.range n).filter fun i => elemBad (i / fmtSize (cardFout c))

/-! ### Where a run's bytes lie -/

/-- What the bytes of a span translate to. -/
inductive Span where
  /-- pieces in order, each with its length and the virtual address it begins at -/
  | ok (pieces : List (PAddr × Nat × Nat))
  | moving
  /-- a page without a translation, by its addresses -/
  | fault (vas : List Nat)
  /-- wrong memory or right, beside pages without a translation at these addresses -/
  | wrong (vas : List Nat)
  deriving DecidableEq, Repr

/-- The pieces of [a, a + n) that lie in one 64 KiB page each. -/
def pagePieces (a n : Nat) : List (Nat × Nat) :=
  if n = 0 then []
  else (List.range ((a + n - 1) / 0x10000 - a / 0x10000 + 1)).map fun i =>
    let lo := max a ((a / 0x10000 + i) * 0x10000)
    let hi := min (a + n) ((a / 0x10000 + i + 1) * 0x10000)
    (lo, hi - lo)

/-- One page piece of a job's span: `allow` says which memory the kind takes, and the right is read (0) or
write (1).  A peer's page whose ports carry no flits waits as a moving one does (R343). -/
def State.pageSpan (s : State) (ctx right : Nat) (allow : Space → Bool) (p : Nat × Nat) : Span :=
  match s.translate ctx p.1 with
  | .moving => .moving
  | .fail c => if c = cProtection then .wrong [] else .fault [p.1]
  | .ok loc perm sup =>
    let peer := match loc.sp with
      | .peer l => s.peerTakes l loc.a p.2
      | _ => true
    if !(allow loc.sp && perm.getLsbD right && !sup) || (right == 1 && s.inCode ctx p.1 p.2) then .wrong []
    else if s.portsDown loc.sp then .moving
    else if peer then .ok [(loc, p.2, p.1)]
    else .wrong []

/-- Two spans one after the other: a page that moves decides first, then a wrong one, then those that fault, whose
addresses a wrong page leaves (R357). -/
def Span.both : Span → Span → Span
  | .moving, _ => .moving
  | _, .moving => .moving
  | .wrong a, .wrong b => .wrong (a ++ b)
  | .wrong a, .fault b => .wrong (a ++ b)
  | .wrong a, .ok _ => .wrong a
  | .fault a, .wrong b => .wrong (a ++ b)
  | .ok _, .wrong b => .wrong b
  | .fault a, .fault b => .fault (a ++ b)
  | .fault a, .ok _ => .fault a
  | .ok _, .fault b => .fault b
  | .ok a, .ok b => .ok (a ++ b)

/-- A span of a job's addresses. -/
def State.vaSpan (s : State) (ctx right : Nat) (allow : Space → Bool) (a n : Nat) : Span :=
  ((pagePieces a n).map (s.pageSpan ctx right allow)).foldl Span.both (.ok [])

/-- A span of a team's window. -/
def State.winSpan (s : State) (tid a n : Nat) : Span :=
  match s.team? tid with
  | none => .wrong []
  | some t => if inWindow t a n then .ok [(⟨.win tid, a⟩, n, a)] else .wrong []

/-- Device memory or a team's window. -/
def onDevice (sp : Space) : Bool :=
  match sp with
  | .dev => true
  | .win _ => true
  | _ => false
def onHost (sp : Space) : Bool := sp == .host
def onPeer (sp : Space) : Bool :=
  match sp with
  | .peer _ => true
  | _ => false

/-- The source span of run r (R173). -/
def State.srcSpan (s : State) (j : Job) (r : Nat) : Span :=
  let c := j.card
  if cardSrcSpad c then (if cardKind c = 1 then .wrong [] else s.winSpan j.tid (runSrc c r) (cardRun c))
  else s.vaSpan j.ctx 0 (if cardKind c = 1 then onHost else onDevice) (runSrc c r) (cardRun c)

/-- The destination pieces of run r: its elements, then its headers; in a window, those of one target. -/
def State.dstSpan (s : State) (j : Job) (tid r : Nat) : Span :=
  let c := j.card
  let one := fun (a n : Nat) =>
    if n = 0 then Span.ok []
    else if cardDstSpad c then (if 2 ≤ cardKind c then .wrong [] else s.winSpan tid a n)
    else s.vaSpan j.ctx 1 (if 2 ≤ cardKind c then onPeer else onDevice) a n
  (one (runDst c r) (cardOutBytes c)).both (one (runHdr c r) (2 * cardBlocks c))

/-! ### JOB_START -/

/-- Whether two footprint regions meet; virtual addresses are of one context. -/
def Region.meets (a b : Region) : Bool := overlap a.loc a.len b.loc b.len
def regionsMeet (sameCtx : Bool) (xs ys : List Region) : Bool :=
  xs.any fun a => ys.any fun b => a.meets b && (sameCtx || decide (a.loc.sp ≠ .dev))

/-- Whether job j waits for an earlier job k of its order unit (R174). -/
def Job.after (j k : Job) : Bool :=
  let same := j.ctx == k.ctx
  regionsMeet same k.writes (j.reads ++ j.writes) || regionsMeet same (k.reads ++ k.writes) j.writes

/-- Whether a job is a confidential intake (R173). -/
def State.confIntake (s : State) (j : Job) : Bool :=
  cardKind j.card == 1 && (match s.ctx? j.ctx with
    | some c => c.conf
    | none => false)

/-- Whether a confidential intake would write outside its context's own pages (R173). -/
def State.intakeAbroad (s : State) (j : Job) : Bool :=
  s.confIntake j && (List.range (cardRuns j.card)).any fun r =>
    match s.dstSpan j j.tid r with
    | .ok ps => ps.any fun p => p.1.sp == .dev
        && !s.tags.any (fun t => decide (t.1 ≤ p.1.a) && decide (p.1.a < t.1 + t.2.1) && t.2.2 == j.ctx)
    | .wrong _ => true
    | _ => false

/-- Whether a job's start waits for the move of a page (R311): that of the IV it reads, or of a destination that it looks
up. (Log entry 19 DEDUCED.) -/
def State.startMoves (s : State) (j : Job) : Bool :=
  (cardCrypt j.card != 0 && s.movingIn j.ctx (cardCmpl j.card + 0x10) 12)
    || (s.confIntake j && (List.range (cardRuns j.card)).any fun r => s.dstSpan j j.tid r == .moving)

/-- JOB_START of job `a` (R235): every earlier job of its order unit whose footprints meet its own has ended.  A crypto
job reads its IV. -/
def execJobStart (s : State) : Answer :=
  hw s fun s =>
    match s.job? s.arg.a with
    | none => none
    | some j =>
      let before := (s.core j.core).order.takeWhile (· ≠ j.jid)
      let blocked := before.any fun k => match s.job? k with
        | some x => j.after x
        | none => false
      if j.state ≠ .waiting ∨ blocked = true ∨ s.startMoves j = true then none
      else
        let iv := match s.readVa j.ctx (cardCmpl j.card + 0x10) 12 with
          | .ok b => b
          | .error _ => []
        let noIv := cardCrypt j.card ≠ 0 ∧ iv = []
        some (s.putJob { j with state := .running, iv := iv, failed := j.failed || decide noIv || s.intakeAbroad j })

/-! ### JOB_READ -/

/-- The runs a job executes: all, or in a replay those that write a byte of a missing sector (R180). -/
def Job.needs (j : Job) (r : Nat) : Bool :=
  decide (r < cardRuns j.card)
    && (!j.replay || (runBytes j.card r).any fun b => !j.landedBefore.contains b.2)

/-- The addresses of a run's faults on pages for which the job has posted none yet, one for each page (R357). -/
def Job.newFaults (j : Job) (vas : List Nat) : List Nat :=
  vas.foldl (fun l va => if j.posted.contains (page64 va) || l.any (fun x => page64 x == page64 va) then l else l ++ [va]) []

/-- Faults posted for the pages of a run, one for each page however many runs touch it (R357).
(Log entry 38 DEDUCED.) -/
def State.jobFaults (s : State) (j : Job) (access : Nat) (vas : List Nat) : State :=
  s.each (j.newFaults vas) fun s va => s.postFault (dieOfCore j.core) j.ctx va access (s.faultClass j.ctx va cPageFault).2.2 []

/-- A run that faults writes nothing (R357). -/
def Job.faultRun (j : Job) (r : Nat) (vas : List Nat) : Job :=
  { j with posted := j.posted ++ (j.newFaults vas).map page64,
           runsRead := if j.runsRead.contains r then j.runsRead else r :: j.runsRead, runsFaulted := r :: j.runsFaulted,
           bufs := j.bufs.filter (fun b => b.1 ≠ r), failed := j.failed || cardCrypt j.card != 0 }

/-- A run at a page that fails the job, beside pages that fault: no run that has not begun is performed.
(Log entry 38 DEDUCED.) -/
def Job.failRun (j : Job) (r : Nat) (vas : List Nat) : Job :=
  { j with posted := j.posted ++ (j.newFaults vas).map page64,
           runsRead := if j.runsRead.contains r then j.runsRead else r :: j.runsRead, runsDone := r :: j.runsDone,
           bufs := j.bufs.filter (fun b => b.1 ≠ r), failed := true }

/-- The bytes of a span, and for each whether its 128-byte line holds poison. -/
def State.spanBytes (s : State) (ps : List (PAddr × Nat × Nat)) : List Byte := ps.flatMap fun p => s.bytesAt p.1 p.2.1
def State.lineBad (s : State) (p : PAddr) : Bool := s.anyPoison { p with a := p.a / 128 * 128 } 128
def State.spanBad (s : State) (ps : List (PAddr × Nat × Nat)) : List Bool :=
  ps.flatMap fun p => (List.range p.2.1).map fun i => s.lineBad (p.1.plus i)

/-- Whether every poisoned line of a span lies under the POISON policy (R367). -/
def State.spanPoisons (s : State) (ctx : Nat) (ps : List (PAddr × Nat × Nat)) : Bool :=
  ps.all fun p => (List.range p.2.1).all fun i => !s.lineBad (p.1.plus i) || s.poisonPolicy ctx (p.2.2 + i) (p.1.plus i)

/-- A run's source bytes taken: converted, and kept until its writes. -/
def Job.take (j : Job) (r : Nat) (src : List Byte) (bad : Nat → Bool) : Job :=
  { j with runsRead := r :: j.runsRead, taken := r :: j.taken, poisoned := j.poisoned || (List.range src.length).any bad,
           bufs := (r, convertRun j.card j.fmt src, convertPoison j.card bad) :: j.bufs }

/-- JOB_READ of run `b` of job `a` (R235): the last stores of its source; a padded run reads zeros. -/
def execJobRead (s : State) : Answer :=
  hw s fun s =>
    match s.job? s.arg.a with
    | none => none
    | some j =>
      let r := s.arg.b
      if j.state ≠ .running ∨ j.failed = true ∨ j.needs r = false ∨ j.runsRead.contains r = true then none
      else if (runOffsets (cardLoops j.card) r).2.2 then
        some (s.putJob (j.take r (List.replicate (cardRun j.card) 0) fun _ => false))
      else match s.srcSpan j r with
        | .moving => none
        | .wrong vas => some ((s.jobFaults j 5 vas).putJob (j.failRun r vas))
        | .fault vas => some ((s.jobFaults j 5 vas).putJob (j.faultRun r vas))
        | .ok ps =>
          if s.spanPoisons j.ctx ps then
            let bad := s.spanBad ps
            some (s.putJob (j.take r (s.spanBytes ps) fun i => bad.getD i false))
          else some ((s.finishJob { j with failed := true } 4).endContext j.ctx 0x24 0)

/-! ### JOB_WRITE -/

/-- The words of a piece for a REMOTE-ADD: each element of four bytes added at the peer (R173).
(Log entry 120 DEDUCED.) -/
def State.addWords (s : State) (fout : Nat) (p : PAddr) : List Byte → State
  | a :: b :: c :: d :: r =>
    let x := BitVec.ofNat 32 (leNat [a, b, c, d])
    let old := s.wordAt p
    let new := if fout = 0 then f32AddRne old x else old + x
    (s.unitStore p (leBytes 4 new.toNat)).addWords fout (p.plus 4) r
  | _ => s

/-- Bytes that a run may not write: those that later runs in index order have written (R172), but for REMOTE-ADD, in which
every run adds; and in a replay those of landed sectors (R180). -/
def Job.keeps (j : Job) (r : Nat) (b : Nat × Nat) : Bool :=
  (j.replay && j.landedBefore.contains b.2)
    || (cardKind j.card != 3 && j.runsDone.any fun q => decide (r < q) && (runBytes j.card q).any fun x => x.1 == b.1)

/-- The longest runs of bytes that are neither poisoned nor kept, each with its offset, from offset i on. -/
def freeRuns : Nat → List (Byte × Bool × Bool) → List (Nat × List Byte)
  | _, [] => []
  | i, x :: r =>
    if x.2.1 || x.2.2 then freeRuns (i + 1) r
    else match freeRuns (i + 1) r with
      | (o, bs) :: t => if o = i + 1 then (i, x.1 :: bs) :: t else (i, [x.1]) :: (o, bs) :: t
      | [] => [(i, [x.1])]

/-- One run of bytes written to a destination, or added at a peer (R173), whom the bytes are sent to. -/
def State.writeBytes (s : State) (j : Job) (p : PAddr) (bs : List Byte) : State :=
  let add := cardKind j.card == 3
  match p.sp with
  | .peer l => (if add then s.addWords (cardFout j.card) p bs else s.jobStore p bs j.ctx).emit (.peer l p.a bs add)
  | _ => s.jobStore p bs j.ctx

/-- The bytes of one piece stored, but for those kept; granules that take a poisoned byte are written poisoned, at a
peer too (R367). -/
def State.writePiece (s : State) (j : Job) (p : PAddr) (bytes : List (Byte × Bool × Bool)) : State :=
  let s := s.each (freeRuns 0 bytes) fun s x => s.writeBytes j (p.plus x.1) x.2
  let grs := dedup ((bytes.zipIdx.filter fun x => x.1.2.1 && !x.1.2.2).map fun x => (p.a + x.2) / 8 * 8)
  s.each grs fun s gr =>
    let s := match p.sp with
      | .peer l => s.emit (.peerPoison l gr)
      | _ => s
    if (s.poisonOf p.sp).contains gr then s else s.putPoison p.sp (s.poisonOf p.sp ++ [gr])

/-- The pieces of a destination written with a run's bytes. -/
def State.writePieces (s : State) (j : Job) : List (PAddr × Nat × Nat) → List (Byte × Bool × Bool) → State
  | [], _ => s
  | p :: r, bs => (s.writePiece j p.1 (bs.take p.2.1)).writePieces j r (bs.drop p.2.1)

/-- The key stream bytes for a run of a crypto job: the destination stream is the runs' bytes in job order (R173).
(Log entry 35 DEDUCED.) -/
def State.jobStream (s : State) (j : Job) (r n : Nat) : List Nat :=
  match s.ctx? j.ctx with
  | none => []
  | some c => match c.keys.find? (fun k => k.1 == cardKey j.card) with
    | none => []
    | some k => gcmStreamN (aesKeys (bytesNat k.2)) (bytesNat j.iv) (r * n) n

/-- What a run writes: its converted bytes, sealed or opened in a crypto job. -/
def State.runOut (s : State) (j : Job) (r : Nat) (bytes : List Byte) : List Byte :=
  if cardCrypt j.card = 0 then bytes else natBytes (xorBytes (bytesNat bytes) (s.jobStream j r bytes.length))

/-- Targets whose teams still run, at the time of a write (R176). (Log entry 39 DEDUCED.) -/
def State.liveTargets (s : State) (j : Job) : List Nat :=
  if cardDstSpad j.card then j.targets.filter (fun t => (s.team? t).isSome) else [j.tid]

/-- A run written to every target (R235). -/
def State.writeRun (s : State) (j : Job) (r : Nat) (buf : Nat × List Byte × List Nat) : State :=
  let ts := s.liveTargets j
  let gone := cardDstSpad j.card && decide (ts.length < j.targets.length)
  let spans := ts.map fun t => s.dstSpan j t r
  match spans.foldl Span.both (.ok []) with
  | .moving => s
  | .wrong vas => (s.jobFaults j 6 vas).putJob (j.failRun r vas)
  | .fault vas => (s.jobFaults j 6 vas).putJob (j.faultRun r vas)
  | .ok _ =>
    let out := s.runOut j r buf.2.1
    let addrs := runBytes j.card r
    let bs := (out.zip addrs).zipIdx.map fun x => (x.1.1, buf.2.2.contains x.2, j.keeps r x.1.2)
    let s := s.each spans fun s sp =>
      match sp with
      | .ok ps => s.writePieces j ps bs
      | _ => s
    let new := dedup ((addrs.map Prod.fst).filter fun a => !j.wrote.contains a)
    s.putJob { j with runsDone := r :: j.runsDone, wrote := j.wrote ++ new, skipped := j.skipped || gone,
                      bufs := if cardCrypt j.card = 0 then j.bufs.filter (fun b => b.1 ≠ r) else j.bufs }

/-- JOB_WRITE of run `b` of job `a` (R235). -/
def execJobWrite (s : State) : Answer :=
  hw s fun s =>
    match s.job? s.arg.a with
    | none => none
    | some j =>
      if j.state ≠ .running ∨ j.runsDone.contains s.arg.b = true ∨ j.runsFaulted.contains s.arg.b = true then none
      else match j.bufs.find? (fun b => b.1 == s.arg.b) with
        | none => none
        | some b => some (s.writeRun j s.arg.b b)

/-! ### JOB_END -/

/-- Whether every run that has begun has ended. -/
def Job.settled (j : Job) : Bool := j.runsRead.all fun r => j.runsDone.contains r || j.runsFaulted.contains r

/-- The ciphertext of a crypto job: what an open read, what a seal wrote. (Log entry 35 DEDUCED.) -/
def State.jobCipher (s : State) (j : Job) : List Nat :=
  (List.range (cardRuns j.card)).flatMap fun r =>
    match j.bufs.find? (fun b => b.1 == r) with
    | some b => bytesNat (if cardCrypt j.card = 1 then b.2.1 else s.runOut j r b.2.1)
    | none => []

/-- The tag of a crypto job. (Log entry 35 DEDUCED.) -/
def State.jobTag (s : State) (j : Job) : List Byte :=
  match s.ctx? j.ctx with
  | none => []
  | some c => match c.keys.find? (fun k => k.1 == cardKey j.card) with
    | none => []
    | some k => natBytes (gcmTag (aesKeys (bytesNat k.2)) (bytesNat j.iv) (s.jobCipher j))

/-- The addresses of the sectors of a job's destination span. -/
def spanSectors (c : List Nat) : List Nat :=
  let spans := (dstLow c / 4096 * 4096, elemSectors c) ::
    (if hdrSectors c = 0 then [] else [(hdrLow c / 4096 * 4096, hdrSectors c)])
  spans.flatMap fun x => (List.range x.2).map fun i => x.1 + 4096 * i

/-- The whole destination span written with zeros, sector by sector, but for code (R43, R173, R177).
(Log entry 36 DEDUCED.) -/
def State.zeroSpan (s : State) (j : Job) : State :=
  s.each (spanSectors j.card) fun s a =>
    if cardDstSpad j.card then s.each (s.liveTargets j) fun s t => s.writeHome ⟨.win t, a⟩ (List.replicate 4096 0)
    else match s.translate j.ctx a with
      | .ok loc perm _ =>
        if perm.getLsbD 1 = false then s
        else if s.inCode j.ctx a 4096 = false then s.jobStore loc (List.replicate 4096 0) j.ctx
        else s.each ((List.range 512).filter fun i => !s.inCode j.ctx (a + 8 * i) 8) fun s i =>
          s.jobStore (loc.plus (8 * i)) (List.replicate 8 0) j.ctx
      | _ => s

/-- Whether the tag of an open does not match (R173). -/
def State.tagDiffers (s : State) (j : Job) : Bool :=
  cardCrypt j.card == 1 && !j.failed && (match s.readVa j.ctx (cardCmpl j.card + 0x20) 16 with
    | .ok b => b != s.jobTag j
    | .error _ => true)

/-- The end of a crypto job: a seal writes its tag; an open whose tag does not match zeroes its destination and
fails (R173). (Log entry 36 DEDUCED.) -/
def State.endCrypto (s : State) (j : Job) : State × Job :=
  if s.tagDiffers j then (s.zeroSpan j, { j with failed := true })
  else if cardCrypt j.card = 2 ∧ j.failed = false then (s.writeArea j (cardCmpl j.card + 0x20) (s.jobTag j), j)
  else (s, j)

/-- Whether a job that has not failed writes to a peer whose ports carry no flits (R347). (Log entry 91 DEDUCED.) -/
def State.jobCut (s : State) (j : Job) : Bool :=
  decide (2 ≤ cardKind j.card) && !j.failed
    && s.pages.any fun p => p.ctx == j.ctx && s.portsDown p.sp && j.uses p.va p.size

/-- Whether a job's end waits: for the move of a page (R311), of its completion area or of a destination to be zeroed, or
for the ports of the peer that it writes to (R347). (Log entries 19 DEDUCED, 91 DEDUCED.) -/
def State.endMoves (s : State) (j : Job) : Bool :=
  s.jobCut j || s.areaMoves j || (s.tagDiffers j && !cardDstSpad j.card && (spanSectors j.card).any fun a => s.movingIn j.ctx a 4096)

/-- The pages of MIGRATE mappings in host memory that a job has read raise their requests, page by page (R309, R357). -/
def State.jobTouches (s : State) (j : Job) : State :=
  if cardKind j.card = 1 then
    let vas := (j.taken.filter fun r => !(runOffsets (cardLoops j.card) r).2.2).flatMap fun r =>
      (pagePieces (runSrc j.card r) (cardRun j.card)).map Prod.fst
    s.each (dedup vas) fun s va => s.migTouch j.ctx va
  else s

/-- The state a job ends in (R178). -/
def Job.endState (j : Job) : Nat :=
  if j.failed then 4 else if j.poisoned then 5 else if j.missingSectors ≠ [] then 3 else 2

/-- JOB_END of job `a` (R177, R178). -/
def execJobEnd (s : State) : Answer :=
  hw s fun s =>
    match s.job? s.arg.a with
    | none => none
    | some j =>
      let all := (List.range (cardRuns j.card)).all fun r => !j.needs r || j.runsDone.contains r || j.runsFaulted.contains r
      if j.state ≠ .running ∨ j.settled = false ∨ (j.failed = false ∧ all = false)
          ∨ s.endMoves j = true then none
      else
        let x := (s.jobTouches j).endCrypto j
        some ((x.1.finishJob x.2 x.2.endState).wakeTeam j.tid)

end Sys2Proof.Machine
end

