-- ==== Sys2Proof/Machine/Images.lean ====
section
/-!
DEFINITION. Images (Tables E.5 and E.6, R400 to R402), chain and plane descriptors (R242, R243, R255, R256), and the
roles that a launch makes of a kernel.
-/

namespace Sys2Proof.Machine

/-- Where an image lies, and its header (Table E.5). -/
structure Img where
  base : Nat
  kernels : Nat
  code : Nat
  codeSize : Nat
  data : Nat
  dataSize : Nat
  ktab : Nat
  ftab : Nat
  nfrag : Nat
  nvar : Nat
  vtab : Nat
  rtab : Nat
  nrel : Nat
  deriving DecidableEq, Repr

/-- A kernel table entry (Table E.6). -/
structure Kernel where
  entry : Nat
  isChain : Bool
  budget : Nat
  stream : Bool
  gbar : Bool
  threads : Nat
  scratch : Nat
  tagN : Nat
  nplane : Nat
  producer : Nat
  fmt : Word
  mentry : Nat
  planes : Nat
  args : Nat
  argLen : Nat
  desc : Nat
  /-- its reserved fields are 0 -/
  clean : Bool
  deriving DecidableEq, Repr

/-- Fault codes of Table C.6 and Table C.22 that steps give. -/
abbrev eCapacity : Nat := 0x10
abbrev eNoVariant : Nat := 0x11
abbrev eNotFoldable : Nat := 0x12
abbrev eApplyFault : Nat := 0x13
abbrev ePoison : Nat := 0x14
abbrev eBadImage : Nat := 0x15
abbrev eBadPacket : Nat := 0x18

/-- The fields of an image's header (Table E.5). -/
def imgOf (va : Nat) (b : List Byte) : Img :=
  { base := va, kernels := w16 b 6, code := w32 b 8, codeSize := w32 b 0xC, data := w32 b 0x10,
    dataSize := w32 b 0x14, ktab := w32 b 0x18, ftab := w32 b 0x1C, nfrag := w16 b 0x20,
    nvar := w16 b 0x22, vtab := w32 b 0x24, rtab := w32 b 0x28, nrel := w32 b 0x2C }

/-- The image header at a virtual address. -/
def State.imgHeader (s : State) (ctx va : Nat) : Except Nat Img :=
  match s.readVa ctx va 64 with
  | .error e => .error e
  | .ok b =>
    let i := imgOf va b
    if w32 b 0 = 0x31495849 ∧ w16 b 4 = 1 ∧ 1 ≤ i.kernels ∧ i.kernels ≤ 1024 ∧ i.code % 128 = 0 ∧ i.data % 64 = 0
        ∧ i.nfrag ≤ 256 ∧ (i.nfrag = 0) = (i.ftab = 0) ∧ 1 ≤ i.nvar ∧ i.nvar ≤ 64 ∧ w64 b 0x30 = 0 ∧ w64 b 0x38 = 0
    then .ok i else .error eBadImage

/-- Bytes of an image from its start, as its header tells them. -/
def Img.extent (i : Img) : Nat :=
  [64, i.code + i.codeSize, i.data + i.dataSize, i.ktab + 64 * i.kernels, i.ftab + 4 * i.nfrag, i.vtab + 16 * i.nvar,
   i.rtab + 8 * i.nrel].foldl max 0

/-- Whether some of an image lies on a page that moves, so that a unit that reads it waits (R311).
(Log entry 19 DEDUCED.) -/
def State.imageMoves (s : State) (ctx va : Nat) : Bool :=
  s.movingIn ctx va 64 || (match s.imgHeader ctx va with
    | .ok i => s.movingIn ctx va i.extent
    | .error _ => false)

/-- Kernel table entry k. -/
def State.imgKernel (s : State) (ctx : Nat) (i : Img) (k : Nat) : Except Nat Kernel :=
  match s.readVa ctx (i.base + i.ktab + 64 * k) 64 with
  | .error e => .error e
  | .ok b =>
    let f := leNat ((b.drop 5).take 1)
    let kind := leNat ((b.drop 4).take 1)
    let zero := fun (lo n : Nat) => leNat ((b.drop lo).take n) == 0
    .ok { entry := w32 b 0, isChain := kind == 1, budget := 8 * (f % 16 + 1), stream := f.testBit 4, gbar := f.testBit 5,
          threads := w16 b 6, scratch := w32 b 8, tagN := w16 b 0xC, nplane := leNat ((b.drop 0xE).take 1),
          producer := leNat ((b.drop 0xF).take 1), fmt := BitVec.ofNat 32 (w32 b 0x10), mentry := w32 b 0x14,
          planes := w32 b 0x18, args := w32 b 0x1C, argLen := w32 b 0x20, desc := w32 b 0x24,
          clean := decide (kind ≤ 1) && decide (f < 64) && zero 0x28 24
            && (kind != 1 || (zero 0 4 && zero 5 10 && zero 0x10 8)) }

/-- Whether [o, o + n) lies in a section of a size. -/
def within (o n size : Nat) : Bool := decide (o + n ≤ size)

/-- The load checks of a kernel table entry (R402). (Log entry 106 DEDUCED.) -/
def Kernel.ok (i : Img) (k : Kernel) : Bool :=
  k.clean && decide (k.argLen ≤ 65536) && within k.args k.argLen i.dataSize && k.args % 64 == 0
  && decide (k.nplane ≤ 8) && within k.planes (32 * k.nplane) i.dataSize
  && (if k.isChain then within k.desc 72 i.dataSize
      else within k.entry 1 i.codeSize && k.entry % 2 == 0
        && (!k.stream || (within k.mentry 1 i.codeSize && k.mentry % 2 == 0)))

/-- Bytes at a data offset. -/
def State.imgData (s : State) (ctx : Nat) (i : Img) (o n : Nat) : Except Nat (List Byte) := s.readVa ctx (i.base + i.data + o) n

/-- A row of the variant table (R401): its signature, whether it is relocatable, the number and the data offset of its
placements, and whether its reserved bits are 0. -/
structure Variant where
  sig : Nat
  reloc : Bool
  count : Nat
  at_ : Nat
  clean : Bool
  deriving DecidableEq, Repr

def State.imgVariant (s : State) (ctx : Nat) (i : Img) (v : Nat) : Except Nat Variant :=
  match s.readVa ctx (i.base + i.vtab + 16 * v) 16 with
  | .error e => .error e
  | .ok b =>
    let f := leNat ((b.drop 8).take 1)
    .ok { sig := w64 b 0, reloc := f.testBit 0, count := w16 b 10, at_ := w32 b 12, clean := decide (f < 2) }

/-- The placements of a variant: kernel, linear team and core (R401); a core above 39 is none of a die's (R3). -/
def State.imgPlaces (s : State) (ctx : Nat) (i : Img) (v : Variant) : Except Nat (List (Nat × Nat × Nat)) :=
  match s.imgData ctx i v.at_ (8 * v.count) with
  | .error e => .error e
  | .ok p => .ok ((List.range v.count).map fun j =>
      let w := w64 p (8 * j)
      let core := bits w 50 6
      (bits w 0 16, bits w 16 32, if core < 40 then coreOf (bits w 48 2) core else coreOf 4 core))

/-- The load checks of a row of the variant table: a keyed one has a signature, and a relocatable one no placements. -/
def Variant.ok (i : Img) (v : Variant) : Bool :=
  v.clean && v.reloc == (v.sig == 0) && (v.count == 0 || (!v.reloc && within v.at_ (8 * v.count) i.dataSize))

/-- A list of results as one result. -/
def allOk {α : Type} : List (Except Nat α) → Except Nat (List α)
  | [] => .ok []
  | .error e :: _ => .error e
  | .ok x :: r => match allOk r with
    | .error e => .error e
    | .ok l => .ok (x :: l)

/-- The reserved bits of the fragment table (Table A.75). -/
def State.fragsClean (s : State) (ctx : Nat) (i : Img) : Except Nat Bool :=
  match s.readVa ctx (i.base + i.ftab) (4 * i.nfrag) with
  | .error e => .error e
  | .ok b => .ok ((List.range i.nfrag).all fun n => decide (w32 b (4 * n) < 2 ^ 20))

/-- The load checks of a chain's descriptor (R402): the entries of its stages and of its matrix stream lie within the
code. -/
def State.imgStages (s : State) (ctx : Nat) (i : Img) (k : Kernel) : Except Nat Bool :=
  if k.isChain then
    match s.imgData ctx i k.desc 72 with
    | .error e => .error e
    | .ok b =>
      let h := w64 b 0
      .ok ((List.range (bits h 0 3 + 1)).all (fun j => within (bits (w64 b (8 * (j + 1))) 0 32) 1 i.codeSize)
        && (!h.testBit 11 || within (bits h 32 32) 1 i.codeSize))
  else .ok true

/-- The load checks of an image (R402): header, tables and every entry, with every reserved field; the image itself when
they pass. (Log entry 41 DEDUCED.) -/
def State.loadChecks (s : State) (ctx va : Nat) : Except Nat Img :=
  match s.imgHeader ctx va with
  | .error e => .error e
  | .ok i =>
    match allOk ((List.range i.kernels).map (s.imgKernel ctx i)),
          allOk ((List.range i.nvar).map (s.imgVariant ctx i)),
          allOk ((List.range i.nrel).map fun r => s.readVa ctx (i.base + i.rtab + 8 * r) 8), s.fragsClean ctx i with
    | .ok ks, .ok vs, .ok rs, .ok fs =>
      if ks.all (Kernel.ok i) && vs.all (Variant.ok i) && rs.all (fun r => within (w64 r 0) 8 i.dataSize) && fs then
        (match allOk (vs.map (s.imgPlaces ctx i)) with
         | .error e => .error e
         | .ok ps =>
           if ps.all (fun l => l.all fun p => decide (p.2.2 < coreOf 4 0)) then
             (match allOk (ks.map (s.imgStages ctx i)) with
              | .error e => .error e
              | .ok cs => if cs.all id then .ok i else .error eBadImage)
           else .error eBadImage)
      else .error eBadImage
    | .error e, _, _, _ => .error e
    | _, .error e, _, _ => .error e
    | _, _, .error e, _ => .error e
    | _, _, _, .error e => .error e

/-! ### Variants (R381) -/

/-- The defect map's 32 bytes (Table D.3) and its signature (R380). -/
def State.defectBytes (s : State) : List Byte :=
  (List.range 4).flatMap fun d => leBytes 8 (if d < s.dieCount then nth s.defect d 0 % 2 ^ 40 else 0)
def State.defectSignature (s : State) : Nat := leNat ((natBytes (sha256 (bytesNat s.defectBytes))).take 8)

/-- The variant that select(image) chooses (R381). -/
def chooseVariant (sig : Nat) (vs : List Variant) : Option Nat :=
  match vs.findIdx? (fun v => !v.reloc && v.sig == sig) with
  | some i => some i
  | none => vs.findIdx? Variant.reloc

/-- The relocations applied once: IMAGE + data offset added to each doubleword (R399); the code of the first that fails.
(Log entries 43 DEDUCED, 74 DEDUCED.) -/
def State.relocate (s : State) (ctx : Nat) (i : Img) : Except Nat State :=
  (List.range i.nrel).foldl (init := .ok s) fun x r =>
    match x with
    | .error e => .error e
    | .ok s => match s.readVa ctx (i.base + i.rtab + 8 * r) 8 with
      | .error e => .error e
      | .ok b =>
        let at_ := i.base + i.data + w64 b 0
        match s.readVa ctx at_ 8 with
        | .error e => .error e
        | .ok x =>
          let y := s.writeVa ctx at_ (leBytes 8 ((w64 x 0 + i.base + i.data) % 2 ^ 64))
          if y.2 = 0 then .ok y.1 else .error eApplyFault

/-! ### Descriptors -/

/-- A plane region as a team starts it (R242, R244). -/
def planeOf (b : List Byte) : Plane :=
  { id := bits (w64 b 0) 0 3, size := bits (w64 b 0) 12 20, carry := bits (w64 b 0) 8 2, rule := bits (w64 b 0) 4 3,
    members := leNat (b.drop 8), present := [], next := [], steps := 0 }

/-- Whether a plane descriptor passes R243 for a team of a size. -/
def planeOk (b : List Byte) (tsize : Nat) : Bool :=
  let w := w64 b 0
  let p := planeOf b
  w / 2 ^ 32 == 0 && bits w 10 2 == 0 && bits w 7 1 == 0 && bits w 3 1 == 0 && decide (p.carry ≤ 2) && decide (p.rule ≤ 5)
  && decide (32 ≤ p.size) && decide (p.size ≤ 131072) && p.size % 32 == 0
  && !(p.carry == 2 && (p.rule == 2 || p.rule == 5)) && p.members != 0 && decide (p.members < 2 ^ tsize)

/-- The plane regions of a kernel, checked (R243, R252). -/
def State.planesOf (s : State) (ctx : Nat) (i : Img) (k : Kernel) (tsize : Nat) : Except Nat (List Plane) :=
  match allOk ((List.range k.nplane).map fun n => s.imgData ctx i (k.planes + 32 * n) 32) with
  | .error e => .error e
  | .ok bs =>
    let ps := bs.map planeOf
    if bs.all (planeOk · tsize) && decide ((dedup (ps.map Plane.id)).length = ps.length)
        && decide ((ps.map fun p => 12 * p.size).foldl (· + ·) 0 ≤ 3 * 2 ^ 20) then .ok ps
    else .error eBadImage

/-- The fragment table (Table A.75), with whether its reserved bits are 0. -/
def State.imgFrags (s : State) (ctx : Nat) (i : Img) : Except Nat (List Frag × Bool) :=
  match s.readVa ctx (i.base + i.ftab) (4 * i.nfrag) with
  | .error e => .error e
  | .ok b =>
    let ws := (List.range i.nfrag).map fun n => w32 b (4 * n)
    .ok (ws.map fun w => { shape := bits w 16 4, side := bits w 15 1, base := bits w 8 7, group := bits w 0 8 },
         ws.all fun w => decide (w < 2 ^ 20) && decide (bits w 16 4 ≤ 3))

/-- Registers of a fragment of a shape (Table A.76): 8, 9 for the BX shapes, 16 for K16. -/
def fragRegs (shape : Nat) : Nat := if shape = 0 then 8 else if shape = 3 then 16 else 9

/-- Groups of a role, and whether it fits a core or a core pair (R199). -/
def tsizeOf (threads : Nat) : Nat := (threads + 31) / 32
def fits (tsize budget : Nat) : Bool :=
  (decide (tsize ≤ 128) && decide (tsize * budget ≤ 6144))
    || (let h := (tsize + 1) / 2
        decide (h ≤ 128) && decide (h * budget ≤ 6144))

/-- A tag-table size that R145 allows: 0, or a power of two from 8 to 1,024. (Log entry 106 DEDUCED.) -/
def tagSizeOk (n : Nat) : Bool := n == 0 || (List.range' 3 8).any fun k => n == 2 ^ k

/-- The launch checks of a role (R16, R189, R198, R199), with its scratch and tag-table sizes (R145, Table E.3).
(Log entry 106 DEDUCED.) -/
def Role.ok (r : Role) (frags : List Frag × Bool) : Bool :=
  let t := tsizeOf r.threads
  tagSizeOk r.tagN && r.scratch % 16 == 0 && decide (r.scratch ≤ 2 ^ 22) &&
  decide (16 ≤ r.budget) && decide (r.budget ≤ 128) && r.budget % 8 == 0
  && decide (1 ≤ r.threads) && decide (r.threads ≤ 6144) && fits t r.budget
  && (r.mst.isNone || (frags.2 && frags.1.all fun f =>
        decide (f.group < t) && decide (f.base + fragRegs f.shape ≤ r.budget)))

/-! ### Roles -/

/-- What a launch gives beside the kernel's header: group and budget overrides of a ROLE field (0 for none), the fmt
word (0xFFFFFFFF for the header's), the argument block and a packet's producer. -/
structure With where
  groups : Nat
  budget : Nat
  fmt : Word
  args : Nat
  argLen : Nat
  producer : Option Nat
  deriving DecidableEq, Repr

/-- The role of a kernel that is no chain. -/
def State.kernelRole (s : State) (ctx : Nat) (i : Img) (n : Nat) (k : Kernel) (w : With) : Except Nat Role :=
  let threads := if w.groups = 0 then k.threads else 32 * w.groups
  match s.planesOf ctx i k (tsizeOf threads) with
  | .error e => .error e
  | .ok ps => .ok
    { kernel := n, entry := k.entry, threads := threads, budget := if w.budget = 0 then k.budget else 8 * (w.budget + 1),
      scratch := k.scratch, tagN := k.tagN, planes := ps, producer := w.producer.getD k.producer,
      fmt := if w.fmt = 0xFFFFFFFF then k.fmt else w.fmt, mst := if k.stream then some k.mentry else none,
      args := if w.args = 0 then i.base + i.data + k.args else w.args,
      argLen := if w.args = 0 then k.argLen else w.argLen, stage := none }

/-- The roles of a chain, one for each stage, and its description (R255, R256). (Log entry 157 DESIGN CHOICE.) -/
def State.chainRoles (s : State) (ctx : Nat) (i : Img) (n : Nat) (k : Kernel) (w : With) (folded : Bool) :
    Except Nat (List Role × ChainDesc) :=
  match s.imgData ctx i k.desc 72 with
  | .error e => .error e
  | .ok b =>
    let h := w64 b 0
    let nst := bits h 0 3
    let st := fun j => w64 b (8 * (j + 1))
    let stages := List.range (nst + 1)
    let wins := stages.map fun j => 8 * (bits (st j) 32 4 + 1)
    let msv := h.testBit 11
    let fold := h.testBit 15
    let okHead := bits h 16 16 == 0 && bits h 12 3 == 0 && bits h 3 5 == 0 && decide (bits h 8 3 ≤ nst)
      && (msv || (bits h 8 3 == 0 && bits h 32 32 == 0)) && bits h 32 32 % 2 == 0
    let okStage := stages.all fun j =>
      bits (st j) 42 22 == 0 && bits (st j) 36 4 == 0 && bits (st j) 40 2 != 3 && bits (st j) 32 4 != 0
        && bits (st j) 0 32 % 2 == 0
    let okRest := bits (st nst) 40 2 == 0 && (List.range 8).all fun j => decide (j ≤ nst) || st j == 0
    if !(okHead && okStage && okRest) then .error eBadImage
    else .ok
      (stages.map fun j =>
        { kernel := n, entry := bits (st j) 0 32, threads := 32, budget := wins.getD j 0, scratch := 0, tagN := 0,
          planes := [], producer := w.producer.getD k.producer, fmt := if w.fmt = 0xFFFFFFFF then k.fmt else w.fmt,
          mst := if msv ∧ bits h 8 3 = j then some (bits h 32 32) else none,
          args := if w.args = 0 then i.base + i.data + k.args else w.args,
          argLen := if w.args = 0 then k.argLen else w.argLen, stage := some j },
       { folded := folded, foldable := fold, mst := if msv then some (bits h 8 3) else none,
         links := (List.range nst).map fun j => BitVec.ofNat 2 (bits (st j) 40 2) })

/-- Whether a chain may run folded (R267). -/
def State.chainFoldable (s : State) (ctx : Nat) (i : Img) (k : Kernel) : Bool :=
  match s.imgData ctx i k.desc 8 with
  | .ok b => (w64 b 0).testBit 15
  | .error _ => false

/-- The roles of kernel n of an image. -/
def State.rolesOf (s : State) (ctx : Nat) (i : Img) (n : Nat) (w : With) (folded : Bool) :
    Except Nat (List Role × Option ChainDesc) :=
  if i.kernels ≤ n then .error eBadImage
  else match s.imgKernel ctx i n with
    | .error e => .error e
    | .ok k =>
      if k.isChain then
        match s.chainRoles ctx i n k w folded with
        | .error e => .error e
        | .ok x => .ok (x.1, some x.2)
      else match s.kernelRole ctx i n k w with
        | .error e => .error e
        | .ok r => .ok ([r], none)

end Sys2Proof.Machine
end

