-- ==== Sys2Proof/Machine/Launch.lean ====
section
/-!
DEFINITION. Launches: footprints (R325), placement (R199 to R201, R326, R328, R329), the start of teams (R15, R21, R40,
R202), retirement (R203) and the completion of grids (R324).
-/

namespace Sys2Proof.Machine

/-! ### Teams of a launch -/

/-- Whether the launch is placed whole: a sheaf, which a spread chain and a firing are, or a grid with grid barriers (R328,
R329).  Each team of a grid of folded chains is placed by itself. -/
def Launch.whole (l : Launch) : Bool := l.sheaf || l.gbar
def Launch.folded (l : Launch) : Bool :=
  match l.chain with
  | some c => c.folded
  | none => false

/-- The roles that team i holds: every stage in a folded chain, its own in a sheaf. -/
def Launch.rolesOf (l : Launch) (i : Nat) : List Role :=
  if l.folded then l.roles
  else if l.roles.length = 1 then l.roles
  else (l.roles.drop i).take 1

/-- Role and linear index of team i. -/
def Launch.roleNo (l : Launch) (i : Nat) : Nat := if l.folded ∨ l.roles.length = 1 then 0 else i
def Launch.linear (l : Launch) (i : Nat) : Nat := if l.folded ∨ l.roles.length = 1 then i else 0

/-- The first number of an empty list is its default. -/
def headD {α : Type} (l : List α) (d : α) : α := l.headD d

/-- A role that names nothing. -/
def Role.none : Role :=
  { kernel := 0, entry := 0, threads := 1, budget := 16, scratch := 0, tagN := 0, planes := [], producer := 0xFF, fmt := 0,
    mst := Option.none, args := 0, argLen := 0, stage := Option.none }

/-- Groups of a team: TSIZE of a role's, one for each stage of a folded chain; each with its number, its role and
its stage. -/
def Launch.members (l : Launch) (i : Nat) : List (Nat × Role) :=
  let rs := l.rolesOf i
  if l.folded then rs.map fun r => (0, r)
  else
    let r := headD rs Role.none
    (List.range (tsizeOf r.threads)).map fun g => (g, r)

/-- Sum of numbers. -/
def sumNat (l : List Nat) : Nat := l.foldl (· + ·) 0

/-! ### Room on a core (Table B.1) -/

/-- The groups and the teams that hold room on a core; a saved team holds none. -/
def State.holders (s : State) : List Team := s.teams.filter fun t => t.state != .saved
def State.groupsOn (s : State) (core : Nat) : List Group :=
  let ts := (s.holders).map Team.tid
  s.groups.filter fun g => coreOf g.die g.core == core && ts.contains g.tid

/-- Scratchpad bytes of links of a width, and of a team's links: link k lies on the core of stage k + 1 (R258). -/
def linkBytes (n : BitVec 2) : Nat := 16 * 2 ^ n.toNat * 128
def Launch.linkNeed (l : Launch) (i : Nat) : Nat :=
  match l.chain, (headD (l.rolesOf i) Role.none).stage with
  | some c, some (k + 1) => if c.folded then 0 else linkBytes (c.links.getD k 0)
  | _, _ => 0
/-- (A stage that is being placed with its chain has its link from its launch.) -/
def State.linkUse (s : State) (t : Team) : Nat :=
  match t.chain.bind s.chain? with
  | none => (match s.launch? t.launch with
    | some l => l.linkNeed t.role
    | none => 0)
  | some c =>
    if c.movingTo.getD c.folded then 0
    else sumNat ((c.stages.zipIdx).map fun st =>
      if st.2 = 0 then 0
      else match s.group? st.1.gid with
        | some g => if g.tid = t.tid then linkBytes (c.link (st.2 - 1)).n2 else 0
        | none => 0)

def State.scratchUse (s : State) (t : Team) : Nat :=
  t.scratch + 1024 * t.tagN + sumNat (t.planes.map fun p => 12 * p.size) + s.linkUse t

/-- What a new team takes of its home core's scratchpad. -/
def Launch.scratchNeed (l : Launch) (i : Nat) : Nat :=
  let r := headD (l.rolesOf i) Role.none
  r.scratch + 1024 * r.tagN + sumNat (r.planes.map fun p => 12 * p.size) + l.linkNeed i

/-- The lowest free slot of issue slot q. -/
def freeSlot (used : List Nat) (q : Nat) : Option Nat :=
  ((List.range 32).map (fun k => 4 * k + q)).find? fun x => !used.contains x

/-- A placement turns the rotation of its core (R201). -/
def State.rotate (s : State) (c : Nat) : State := let k := s.core c; s.putCore { k with rot := k.rot + 1 }

/-- Slots for groups in order, by R201, on a core whose rotation count is c. -/
def bindSlots (c : Nat) : List Nat → List Nat → Option (List Nat)
  | _, [] => some []
  | used, g :: r =>
    match freeSlot used ((g + c) % 4) with
    | none => none
    | some x => match bindSlots c (x :: used) r with
      | none => none
      | some l => some (x :: l)

/-- The members of team i on each core: those of the home core, and those of the partner (R199). -/
def Launch.split (l : Launch) (i : Nat) (pair : Bool) : List (Nat × Role) × List (Nat × Role) :=
  let ms := l.members i
  let h := if pair then (ms.length + 1) / 2 else ms.length
  (ms.take h, ms.drop h)

/-- Whether team i fits one core alone. -/
def Launch.single (l : Launch) (i : Nat) : Bool :=
  let ms := l.members i
  l.folded || (decide (ms.length ≤ 128) && decide (sumNat (ms.map fun m => m.2.budget) ≤ 6144))

/-- The clusters a context is admitted to: bit 10 × die + cluster of CLMASK. -/
def State.admitted (s : State) (ctx core : Nat) : Bool :=
  match s.ctx? ctx with
  | some c => s.enabled core && decide (core / 40 < s.dieCount) && c.clmask.testBit (core / 4)
  | none => false

/-- Whether a core can take groups of some budgets at once (R200, R201, R342): the slots they would take. -/
def State.coreTakes (s : State) (ctx core : Nat) (ms : List (Nat × Role)) (folded : Bool) : Option (List Nat) :=
  let gs := s.groupsOn core
  if s.admitted ctx core = false ∨ (s.core core).halted = true then none
  else if 6144 < sumNat (gs.map fun g => g.v.length) + sumNat (ms.map fun m => m.2.budget) then none
  else if folded then
    (match bindSlots (s.core core).rot (gs.map Group.slot) [0] with
     | some [x] => some (ms.map fun _ => x)
     | _ => none)
  else bindSlots (s.core core).rot (gs.map Group.slot) (ms.map Prod.fst)

/-- Whether the home core has the scratchpad, the matrix context and the context the private blocks (Table B.1). -/
def State.homeTakes (s : State) (l : Launch) (i home : Nat) : Bool :=
  let ts := (s.holders).filter fun t => t.home == home
  let blocks := match s.ctx? l.ctx with
    | some c => c.blockCount - c.blocks.length
    | none => 0
  let stream := (l.rolesOf i).any fun r => r.mst.isSome
  decide (sumNat (ts.map s.scratchUse) + l.scratchNeed i ≤ 0x400000)
    && (!stream || decide ((ts.filter fun t => t.stream.isSome).length < 4))
    && decide ((l.members i).length ≤ blocks)

/-- Whether an exact variant lets team i go to a core (R381, R401). -/
def Launch.placeOk (l : Launch) (i home : Nat) : Bool :=
  let r := headD (l.rolesOf i) Role.none
  l.places.all fun p => !(p.1 == r.kernel && p.2.1 == l.linear i) || p.2.2 == home

/-- The slots that a placement of team i on a home and a partner core takes, when it is one (R199, R200). -/
def State.placement (s : State) (l : Launch) (i home partner : Nat) : Option (List Nat × List Nat) :=
  let pair := decide (home ≠ partner)
  let x := l.split i pair
  if pair = l.single i ∨ home / 4 ≠ partner / 4 ∨ l.placeOk i home = false ∨ s.homeTakes l i home = false then none
  else match s.coreTakes l.ctx home x.1 l.folded with
    | none => none
    | some a =>
      if pair then (match s.coreTakes l.ctx partner x.2 false with
        | none => none
        | some b => some (a, b))
      else some (a, [])

/-! ### Making a team -/

/-- SEED of a group (R40). -/
def seedOf (word : Word) (role linear grp : Nat) : Word :=
  let s := if word = 0 then 0x6A5D39E1 else word
  let g := role * 2 ^ 24 + (linear * 192 + grp) % 2 ^ 24
  let x := s ^^^ (BitVec.ofNat 32 (0x9E3779B9 * (g + 1))).rotateLeft 16
  if x = 0 then 0x6A5D39E1 else x

/-- The lanes present in group g of a team of threads (R22). -/
def presentLanes (threads g : Nat) : Word := BitVec.ofNat 32 (2 ^ min 32 (threads - 32 * g) - 1)

/-- A launch binding: the queue that a handle names, when it names one of the context's (Table C.4). -/
def State.launchBind (s : State) (ctx : Nat) (h : Word) : QBind :=
  match s.queueOf h with
  | some q => if q.ctx = ctx ∧ h ≠ 0 then { kind := q.kind, n2 := q.entryN2, handle := h, aux := 0 } else QBind.none
  | none => QBind.none

/-- The queue registers of a group at launch: the launch's handles, or a chain's links and outside queues (R256), with
the bindings of a firing in place of QH0 and QH1 (R331). -/
def State.launchQueues (s : State) (l : Launch) (role : Nat) (r : Role) : List QBind :=
  let fire := match l.origin with
    | .firing _ b => some b
    | _ => none
  let plain := (List.range 16).map fun i => s.launchBind l.ctx (l.qh.getD i 0)
  let batch := fun (b : Nat) => ({ kind := .batch, n2 := 2, handle := 0, aux := b } : QBind)
  match l.chain, r.stage with
  | some c, some k =>
    let last := c.links.length
    let q0 : QBind :=
      if k = 0 then (match fire with
        | some b => batch b
        | none => s.launchBind l.ctx (l.qh.getD 0 0))
      else { kind := .chain, n2 := c.links.getD (k - 1) 0, handle := 0, aux := k - 1 }
    let q1 : QBind :=
      if k = last then s.launchBind l.ctx (l.qh.getD 1 0)
      else { kind := .chain, n2 := c.links.getD k 0, handle := 1, aux := k }
    q0 :: q1 :: List.replicate 14 QBind.none
  | _, _ =>
    let q0 := match fire with
      | some b => if role = 0 then [batch b] else [QBind.none]
      | none => plain.take 1
    let q1 := if fire.isSome ∧ role + 1 ≠ l.roles.length then [QBind.none] else (plain.drop 1).take 1
    q0 ++ q1 ++ plain.drop 2

/-- A group as its launch starts it (Table A.1, Table A.5). (Log entry 142 DESIGN CHOICE.) -/
def State.newGroup (s : State) (l : Launch) (i gid tid core slot blk : Nat) (m : Nat × Role) : Group :=
  let r := m.2
  let lin := l.linear i
  let t := if l.folded ∨ r.stage.isSome then 1 else tsizeOf r.threads
  let role := r.stage.getD (l.roleNo i)
  let size := match s.ctx? l.ctx with
    | some c => (c.priv + 1) * 4096
    | none => 4096
  let pool := match s.ctx? l.ctx with
    | some c => c.frarea + 0x2000000
    | none => 0
  let b7 : TransReg := { s.fill l.ctx (pool + blk * size) with limit := BitVec.ofNat 32 size }
  { gid := gid, tid := tid, ctx := l.ctx, grp := m.1, die := core / 40, core := core % 40, slot := slot,
    v := List.replicate r.budget (List.replicate 32 0),
    s := ((List.replicate 64 0).set 1 (BitVec.ofNat 32 m.1)).set 2 (BitVec.ofNat 32 t),
    exec := presentLanes r.threads m.1, fmt := r.fmt, pc := BitVec.ofNat 32 r.entry,
    codeBase := l.codeBase, codeSize := l.codeSize,
    b := s.fill l.ctx r.args :: (List.replicate 6 TransReg.fresh ++ [b7]),
    q := s.launchQueues l (l.roleNo i) r,
    path := [], loops := [], depth := 0, u := 0, seed := seedOf l.seed role lin m.1, schk := false, prio := l.prio,
    clkh := 0, epc := 0, ecause := 0, emask := 0, frec := 0,
    teamX := BitVec.ofNat 32 (lin % l.nx), teamY := BitVec.ofNat 32 (lin / l.nx % l.ny),
    teamZ := BitVec.ofNat 32 (lin / l.nx / l.ny),
    nteamX := BitVec.ofNat 32 l.nx, nteamY := BitVec.ofNat 32 l.ny, nteamZ := BitVec.ofNat 32 l.nz,
    tsize := t, nest := l.depth, super := false, handler := none, reissue := none, park := none, pend := [], lower := 0,
    anchor := none, fold := (match l.chain with
      | some c => c.foldable
      | none => false),
    bars := List.replicate 16 { arr := none, arrId := 0, obs := 0 }, psts := [], landing := [], acc := [], poison := [],
    mark := 0, floors := [], epoch := 0, wait := .none, readyAt := 0, tried := none, lastIssue := none, readyFor := 0,
    maxN := 0, urgent := false, waitFrom := none, priv := blk, back := false, pendPops := [], dlyLeft := 0, ended := false }

/-- The free private blocks of a context, lowest first, at most n. -/
def Ctx.freeBlocks (c : Ctx) (n : Nat) : List Nat :=
  ((List.range c.blockCount).filter fun b => !c.blocks.contains b).take n

/-- Private blocks taken and zeroed (R299). -/
def State.takeBlocks (s : State) (ctx n : Nat) : State × List Nat :=
  match s.ctx? ctx with
  | none => (s, [])
  | some c =>
    let bs := c.freeBlocks n
    let size := (c.priv + 1) * 4096
    let s := s.putCtx { c with blocks := c.blocks ++ bs }
    (s.each bs fun s b => s.zeroFrame (c.privFrame + b * size) size, bs)

/-- A matrix stream as its team starts it (R188). -/
def newStream (entry : Nat) (fmt : Word) (prio : Nat) : Stream :=
  { pc := BitVec.ofNat 32 entry, fmt := fmt, loops := [], obs := List.replicate 16 0, wait := MWait.none, ended := false,
    stopped := none, lastIssue := none, mmasNow := 0, othersNow := 0, inFlight := [], readyAt := 0, waiting := none,
    passed := 0, prio := prio }

/-- A team before its first instruction (Table A.1, R152, R244). -/
def Launch.newTeam (l : Launch) (i tid home partner : Nat) : Team :=
  let rs := l.rolesOf i
  let r := headD rs Role.none
  let n := if l.folded then 1 else tsizeOf r.threads
  { tid := tid, launch := l.lid, ctx := l.ctx, linear := l.linear i, role := l.roleNo i, tsize := n,
    budget := if l.folded then sumNat (rs.map Role.budget) else r.budget, producer := r.producer, scratch := r.scratch,
    tagN := r.tagN, home := home, partner := partner, state := .placed, win := [], winPoison := [], tags := [],
    guards := List.replicate 16 0,
    bars := List.replicate 16 (Barrier.fresh n),
    planes := r.planes, held := [], committed := l.gbar || l.chain.isSome, commitTurn := 0, releasing := [], jobs := [],
    tokens := List.replicate 8 { state := 0, landed := 0, skipped := false, cardLoc := 0, cardSpad := false, card := [],
                                 job := 0 },
    stream := (rs.find? fun r => r.mst.isSome).bind fun r => r.mst.map fun e => newStream e r.fmt l.prio,
    tiles := List.replicate 16 (List.replicate 32 (List.replicate 32 0)), frags := l.frags, codeBase := l.codeBase,
    codeSize := l.codeSize, chain := none, stop := .none, reserved := 0 }

/-- Team i placed on its cores (R200, R201): its groups take their slots and private blocks. -/
def State.placeTeam (s : State) (l : Launch) (i home partner : Nat) (slots : List Nat × List Nat) : State × List Nat :=
  let (tid, s) := s.newId
  let x := l.split i (decide (home ≠ partner))
  let (s, bs) := s.takeBlocks l.ctx (l.members i).length
  let at_ := (x.1.zip slots.1).map (fun m => (home, m)) ++ (x.2.zip slots.2).map (fun m => (partner, m))
  let first := s.nextId
  let s := { s with nextId := s.nextId + at_.length }
  let gs := at_.zipIdx.map fun y =>
    s.newGroup l i (first + y.2) tid y.1.1 y.1.2.2 (bs.getD y.2 0) y.1.2.1
  let s := (s.putTeam (l.newTeam i tid home partner))
  let s := { s with groups := s.groups ++ gs }
  let s := s.rotate home
  let s := if home = partner then s else s.rotate partner
  let s := match s.ctx? l.ctx with
    | some c => s.putCtx { c with cores := dedup (home :: partner :: c.cores) }
    | none => s
  (s, gs.map Group.gid)

/-- Teams placed one after another; nothing when one cannot be (R328, R329).  The groups placed come with it. -/
def State.placeAll (s : State) (l : Launch) : List (Nat × Nat × Nat) → Option (State × List Nat)
  | [] => some (s, [])
  | p :: r =>
    match s.placement l p.1 p.2.1 p.2.2 with
    | none => none
    | some sl =>
      let x := s.placeTeam l p.1 p.2.1 p.2.2 sl
      match x.1.placeAll l r with
      | none => none
      | some y => some (y.1, x.2 ++ y.2)

/-! ### The ready pool -/

/-- Rows of a footprint operand as (first byte, bytes) (R325). -/
def footRows (f : Bool × Nat × Nat × Nat × Nat) : List (Nat × Nat) :=
  (List.range (f.2.2.2.2 + 1)).map fun r => (f.2.1 + r * 64 * f.2.2.1, f.2.2.2.1 + 1)

/-- Whether one footprint writes a byte that the other reads or writes. -/
def footMeets (a b : Bool × Nat × Nat × Nat × Nat) : Bool :=
  (a.1 || b.1) && (footRows a).any fun x => (footRows b).any fun y => decide (x.1 < y.1 + y.2) && decide (y.1 < x.1 + x.2)

/-- Whether a launch is ready: no earlier launch of its context in its pool that has not completed meets its
footprints (R325). -/
def State.launchReady (s : State) (l : Launch) : Bool :=
  let before := s.launches.takeWhile fun x => x.lid != l.lid
  before.all fun x => !(x.ctx == l.ctx && x.die == l.die && x.feet.any fun a => l.feet.any fun b => footMeets a b)

/-- Whether teams of the launch are still to be claimed. -/
def Launch.open_ (l : Launch) : Bool :=
  !l.again.isEmpty || decide (l.next < l.total) || l.parts.any fun p => decide (p.next < p.stop)

/-! ### The span of a grid (R327) -/

/-- Whether a grid's teams are dealt out over its span: a sheaf stays in one cluster, and the teams of an exact
variant go where it places them (R381). (Log entry 113 DESIGN CHOICE.) -/
def Launch.dealt (l : Launch) : Bool := !l.sheaf && l.places.isEmpty

/-- The dies that hold a core of the context's admitted clusters. -/
def State.admittedDies (s : State) (ctx : Nat) : List Nat :=
  (List.range s.dieCount).filter fun d => (List.range 40).any fun c => s.admitted ctx (40 * d + c)

/-- Whether firmware may give a grid a span: one to four different dies of the context's. -/
def State.spanOk (s : State) (ctx : Nat) (span : List Nat) : Bool :=
  !span.isEmpty && decide ((dedup span).length = span.length) && span.all fun d => (s.admittedDies ctx).contains d

/-- Range mode: one contiguous range of the linear team indices for each die of a span (R327).
(Log entry 113 DESIGN CHOICE.) -/
def ranges (total : Nat) (span : List Nat) : List Part :=
  span.zipIdx.map fun x =>
    let lo := total * x.2 / span.length
    { die := x.1, start := lo, next := lo, stop := total * (x.2 + 1) / span.length }

/-- A grid with its span: a span of one or two dies deals out every team at once (R327).
(Log entry 113 DESIGN CHOICE.) -/
def Launch.withSpan (l : Launch) (span : List Nat) : Launch :=
  if span.length ≤ 2 then { l with span := span, parts := ranges l.total span, next := l.total } else { l with span := span }

/-- Teams that one fetch of the team counter takes, the last of a grid perhaps fewer (R327). -/
def batchTeams : Nat := 8

/-- The team that a die would claim next: the first of what it has taken, and in counter mode that of a batch it would
fetch. -/
def Launch.nextOn (l : Launch) (die : Nat) : Option Nat :=
  match l.parts.find? (fun p => p.die == die && decide (p.next < p.stop)) with
  | some p => some p.next
  | none => if l.span.contains die ∧ l.next < l.total then some l.next else none

/-- A team claimed by a die (R327): of what the die has taken, or of a batch that it fetches from the team counter; a
discarded team goes to the die that took it. -/
def Launch.claim (l : Launch) (i die : Nat) : Option Launch :=
  if l.dealt = false then some { l with next := max l.next (i + 1) }
  else if l.again.contains i then
    (if l.parts.any (fun p => p.die == die && decide (p.start ≤ i) && decide (i < p.next)) then some l else none)
  else if l.nextOn die ≠ some i then none
  else if l.parts.any (fun p => p.die == die && p.next == i && decide (i < p.stop)) then
    some { l with parts := l.parts.map fun p => if p.die == die && p.next == i then { p with next := i + 1 } else p }
  else
    let stop := min (i + batchTeams) l.total
    some { l with next := stop, parts := l.parts ++ [{ die := die, start := i, next := i + 1, stop := stop }] }

/-- Whether equal numbers of a list stand together. -/
def contiguous : List Nat → Bool
  | [] => true
  | [_] => true
  | a :: b :: r => (a == b || !r.contains a) && contiguous (b :: r)

/-- A grid that is placed whole, on the dies of its teams' home cores: those of its span, each with one contiguous
range in range mode (R327, R329). Its one placement shows no batches. (Log entry 113 DESIGN CHOICE.) -/
def Launch.claimWhole (l : Launch) (dies : List Nat) : Option Launch :=
  if l.dealt = false ∨ (dies.all l.span.contains && (decide (2 < l.span.length) || contiguous dies)) = true then
    some { l with next := l.total }
  else none

/-- Teams claimed in order, each by the die of its home core. -/
def Launch.claimEach (l : Launch) : List (Nat × Nat × Nat) → Option Launch
  | [] => some l
  | x :: r =>
    match l.claim x.1 (dieOfCore x.2.1) with
    | none => none
    | some l => l.claimEach r

/-- Teams claimed, each with its home core and its partner. -/
def Launch.claimAll (l : Launch) (ps : List (Nat × Nat × Nat)) : Option Launch :=
  if l.whole then l.claimWhole (ps.map fun p => dieOfCore p.2.1) else l.claimEach ps

/-- The teams that a claim on some cores is for: every open one of a launch that is placed whole; else one, discarded
teams first (R317, R326). -/
def Launch.todo (l : Launch) (pairs : List (Nat × Nat)) : List Nat :=
  if l.whole then (if l.again ≠ [] then l.again else List.range l.total)
  else if l.again ≠ [] then l.again.take 1
  else if l.dealt then (match pairs with
    | p :: _ => (l.nextOn (dieOfCore p.1)).toList
    | [] => [])
  else [l.next]

/-- A program's record by its id, in a context. -/
def State.programOf (s : State) (ctx id : Nat) : Option Rec :=
  s.recs.find? fun r => r.live && r.kind == 4 && r.ctx == ctx && r.id == id

/-- Whether a PAUSE or a deletion keeps the launch's teams from starting (R288): not those of a grid whose launch step
waits for the first of them, since a later edit waits for the end of that step (R289, R404). (Log entry 61 DEDUCED.) -/
def State.launchPaused (s : State) (l : Launch) : Bool :=
  (match s.ctx? l.ctx with
   | some c => c.paused || !c.live
   | none => true)
  || (match l.origin with
      | .program slot =>
        let r := s.record slot
        ((r.paused || r.deleting || r.undoing && r.waiting) && !(r.starting && !l.started)) || !r.live
      | .firing .. => (match l.prog with
        | some k => let r := s.record k; r.paused || r.deleting || r.undoing && r.waiting || !r.live
        | none => true)
      | .kick .. => false)

/-- Whether an earlier ready launch of the pool is offered first: teams are offered in launch order, but a launch that
is placed whole waits in the pool without holding the others (R326, R328). (Log entry 50 DEDUCED.) -/
def State.offeredAfter (s : State) (l : Launch) : Bool :=
  (s.launches.takeWhile fun x => x.lid != l.lid).any fun x =>
    x.die == l.die && x.open_ && !x.whole && s.launchReady x && !s.launchPaused x

/-- The chain of a placed launch (R256): its stages' groups in order. (Log entry 138 DEDUCED.) -/
def State.newChain (s : State) (l : Launch) (c : ChainDesc) (gids : List Nat) : State :=
  let (cid, s) := s.newId
  let ch : Chain :=
    { cid := cid, launch := l.lid, slot := l.prog,
      folded := c.folded, foldable := c.foldable, mst := c.mst,
      stages := gids.zipIdx.map fun x => { gid := x.1, win := (l.roles.getD x.2 Role.none).budget, ended := false, block := .none },
      links := c.links.map fun n => { n2 := n, entries := [] }, running := 0, switchAt := 0, request := l.form.filter (· ≠ c.folded),
      next := none, movingTo := none, moveEnd := 0, users := [] }
  let s := s.putChain ch
  { s with teams := s.teams.map fun t =>
      if s.groups.any (fun g => g.tid == t.tid && gids.contains g.gid) then { t with chain := some cid } else t }

/-- The chains of placed groups: one for a spread chain, one for each team of a folded one. (Log entry 45 DEDUCED.) -/
def State.newChains (s : State) (l : Launch) (gids : List Nat) : State :=
  match l.chain with
  | none => s
  | some c =>
    let n := l.roles.length
    s.each (List.range (gids.length / n)) fun s k => s.newChain l c ((gids.drop (n * k)).take n)

/-- The ticket counter of a die counts a claim (R326). -/
def State.takeTicket (s : State) (die n : Nat) : State :=
  let old := match s.tickets.find? (fun t => t.1 == die) with
    | some t => t.2
    | none => 0
  { s with tickets := putKey Prod.fst (die, old + n) s.tickets }

/-- A grid with the span that firmware gives it at its first claim (R327). -/
def State.spanned (s : State) (l : Launch) (span : List Nat) : Option Launch :=
  if l.dealt = false ∨ l.span ≠ [] then some l
  else if s.spanOk l.ctx span then some (l.withSpan span)
  else none

/-- TICKET_CLAIM: teams of launch `a` are placed on the cores of `pairs`, each a home core and its partner, or the
home core twice (R199, R326): the next team of a plain grid, or every team at once of one that is placed whole.  `nats` is
the span that firmware gives a grid at its first claim (R327). (Log entries 50 DEDUCED, 105 DESIGN CHOICE.) -/
def execTicketClaim (s : State) : Answer :=
  hw s fun s =>
    match (s.launch? s.arg.a).bind fun l => s.spanned l s.arg.nats with
    | none => none
    | some l =>
      let cluster := (s.arg.pairs.map fun p => p.1 / 4)
        ++ (s.teams.filter fun t => t.launch == l.lid).map Team.cluster
      let oneCluster := cluster.all fun c => some c == cluster.head?
      let todo := l.todo s.arg.pairs
      if l.open_ = false ∨ s.launchReady l = false ∨ s.launchPaused l = true ∨ s.offeredAfter l = true
          ∨ todo = [] ∨ s.arg.pairs.length ≠ todo.length ∨ l.sheaf = true ∧ oneCluster = false then none
      else match l.claimAll (todo.zip s.arg.pairs), s.placeAll l (todo.zip s.arg.pairs) with
        | some l', some x =>
          let l' := { l' with again := l'.again.filter fun i => !todo.contains i }
          some (((x.1.newChains l x.2).putLaunch l').takeTicket l.die todo.length)
        | _, _ => none

/-! ### The packet's words (R322) -/

/-- The packet of a kick, where it lies. -/
def State.packetVa (s : State) (l : Launch) : Option Nat :=
  match l.origin with
  | .kick ctx q slot _ => (s.ctx? ctx).map fun c => c.frarea + 0x1400000 + 0x4000 * q + 0x100 * slot
  | _ => none

/-- STATUS, CODE and REISSUE written with a DEVICE release. -/
def State.packetStatus (s : State) (ctx va status code reissue : Nat) : State :=
  match s.translate ctx va with
  | .ok loc _ _ => s.unitStore loc (leBytes 4 (status + 256 * code + 65536 * min reissue 255))
  | _ => s

/-- (Log entry 55 DEDUCED.) -/
def State.setStatus (s : State) (l : Launch) (status : Nat) : State :=
  match s.packetVa l with
  | some va => s.packetStatus l.ctx va status 0 l.reissue
  | none => s

/-! ### TEAM_START -/

/-- The launch step of a PROGRAM record ends when the grid's first team has started (R288). -/
def State.launchStarted (s : State) (l : Launch) : State :=
  match l.origin with
  | .program slot =>
    let r := s.record slot
    if r.starting = false then s
    else if r.phase = .applying ∧ r.goal = .create then
      s.enter slot fun r => { r with phase := .converged, cursor := 5, starting := false, everConverged := true,
                                     versionConverged := true, oldBody := r.body, paused := r.pauseBit }
    else s.putRecord { r with starting := false }
  | _ => s

/-- Placed teams of a launch run (R202), and the launch has started. -/
def State.startTeams (s : State) (l : Launch) (ids : List Nat) : State :=
  let s : State := { s with
    opStep := s.opStep + 1,
    teams := s.teams.map (fun t => if ids.contains t.tid then { t with state := .running } else t),
    groups := s.groups.map (fun g => if ids.contains g.tid then { g with mark := s.opStep, readyAt := s.clk } else g) }
  if l.started then s
  else
    let l := { l with started := true }
    ((s.putLaunch l).setStatus l 2).launchStarted l

/-- TEAM_START of launch `a` (R202): every placed team of it starts in this clk, with a DEVICE acquire (R237). -/
def execTeamStart (s : State) : Answer :=
  hw s fun s =>
    match s.launch? s.arg.a with
    | none => none
    | some l =>
      let ts := s.teams.filter fun t => t.launch == l.lid && t.state == .placed
      if ts = [] ∨ s.launchPaused l = true then none
      else some (s.startTeams l (ts.map Team.tid))

/-! ### Retirement and completion -/

/-- A launch put at the end of the ready pool. -/
def State.addLaunch (s : State) (l : Launch) : State := { s with launches := s.launches ++ [l] }

/-- The launch of a firing is done with its batch (R331). -/
def State.dropBatch (s : State) (l : Launch) : State :=
  match l.origin with
  | .firing _ b => { s with batches := s.batches.filter fun x => x.bid != b }
  | _ => s

/-- Whether a live EXPERT queue names a PROGRAM record (R331). -/
def State.isExpertProgram (s : State) (r : Rec) : Bool :=
  s.recs.any fun q => q.live && q.kind == 3 && q.sub == 2 && q.ctx == r.ctx && w32 q.body 0 == r.id

/-- RESTART: a PROGRAM record's grid launched again when it completes (R288), whatever the phase of a later edit,
unless the record is being deleted or has become an expert program (R331); `again` makes the launch, whose teams wait
while the record is paused. -/
def State.completeGrid (s : State) (again : State → Nat → State) (l : Launch) : State :=
  let s := s.setStatus l 3
  let s := s.dropBatch l
  let s : State := { s with launches := s.launches.filter (fun x => x.lid != l.lid),
                            chains := s.chains.filter (fun c => c.launch != l.lid) }
  match l.origin with
  | .program slot =>
    let r := s.record slot
    if r.live && r.kind == 4 && !r.deleting && !s.isExpertProgram r && (w32 r.launchBody 8).testBit 18 then again s slot
    else s
  | _ => s

/-- Teams retired, as the home die gathers the dies' counts (R327). -/
def Launch.retired (l : Launch) : Nat := sumNat (l.dones.map Prod.snd)

/-- Some teams of a die counted as retired. -/
def Launch.done (l : Launch) (die n : Nat) : Launch :=
  let old := match l.dones.find? (fun d => d.1 == die) with
    | some d => d.2
    | none => 0
  { l with dones := putKey Prod.fst (die, old + n) l.dones }

/-- Whether every team of a launch has retired and every grid they launched has completed (R203). -/
def State.gridDone (s : State) (l : Launch) : Bool :=
  decide (l.retired = l.total + l.more) && !s.launches.any fun x => match x.origin with
    | .kick _ _ _ p => p == l.lid
    | _ => false

/-- Grids that are done complete, children before parents; at most n. -/
def State.completeGrids (again : State → Nat → State) : Nat → State → State
  | 0, s => s
  | n + 1, s =>
    match s.launches.find? s.gridDone with
    | none => s
    | some l => State.completeGrids again n (s.completeGrid again l)

/-- Whether a team retires (R203). (Log entry 47 DEDUCED.) -/
def State.mayRetire (s : State) (t : Team) : Bool :=
  t.state == .running && t.jobs.isEmpty
    && s.groups.all (fun g => !(g.tid == t.tid && !g.ended))
    && (match t.stream with
        | none => true
        | some m => (m.ended || m.stopped.isSome) && m.inFlight.isEmpty)
    && s.jobs.all (fun j => !(j.tid == t.tid && j.state != .ended))

/-- A team gone from its launch's count. -/
def State.retireTeam (s : State) (t : Team) : State :=
  let s := s.dropTeam t.tid
  match s.launch? t.launch with
  | none => s
  | some l => s.putLaunch (l.done (dieOfCore t.home) 1)

end Sys2Proof.Machine
end

