-- ==== Sys2Proof/Machine/Release.lean ====
section
/-!
DEFINITION. Hardware steps of the commit buffer, the queues and the launch queues: the release of held entries (R36,
R164, R323), the reorder unit (R336 to R338), and the firing of expert queues (R331, R332).
-/

namespace Sys2Proof.Machine

/-! ### The end of an entry's release -/

/-- The team without its held entry. -/
def State.dropHeld (s : State) (tid id : Nat) : State :=
  match s.team? tid with
  | none => s
  | some t => s.putTeam { t with held := t.held.filter (fun e => e.id ≠ id) }

/-- The COMMIT under way that releases an entry, by its place and its identity: the one that covers the fewest. -/
def Team.covering (t : Team) (e : HeldEntry) : Option (Nat × Nat) :=
  match t.releasing.filter fun u => decide (e.turn < u.1) with
  | [] => none
  | c :: r => some (r.foldl (fun m u => if u.1 < m.1 then u else m) c)

/-- A release that stops at an entry (R164, R103): the entry is gone, its COMMIT returns, and later entries stay
held. -/
def State.stopRelease (s : State) (t : Team) (id turn : Nat) : State :=
  let s := s.dropHeld t.tid id
  let s := match s.team? t.tid with
    | some t => s.putTeam { t with releasing := t.releasing.filter (fun r => r.1 ≠ turn) }
    | none => s
  s.each (s.groups.filter fun g => g.tid == t.tid) fun s g =>
    match g.wait with
    | .commit u isEnd => if u = turn then s.putGroup { g with wait := .commit 0 isEnd } else s
    | _ => s

/-- A trap left to a group, or, where it has ended, to one whose COMMIT made the release (R164). -/
def State.pendTo (s : State) (t : Team) (gid turn : Nat) (p : PendTrap) : State :=
  let committer := s.groups.find? fun g => g.tid == t.tid && (match g.wait with
    | .commit u _ => u == turn
    | _ => false)
  let who := match s.group? gid with
    | some g => if g.ended then committer else some g
    | none => committer
  match who with
  | some g => s.putGroup { g with pend := g.pend ++ [p] }
  | none => s

/-- A push or a record refused, and counted in the queue's record (R168, R337). -/
def State.refusePush (s : State) (slot n : Nat) : State :=
  let r := s.record slot
  s.setRecord { r with refused := r.refused + n }

/-! ### The reorder unit -/

/-- Where a sequence's entry lies, and whether a unit's access to it waits for a page that moves (R311).  An edit of SEQVA
takes effect for a sequence once no token of it is pending (R336). (Log entry 140 DEDUCED.) -/
def Queue.seqEntry (q : Queue) (seq : Nat) : Nat :=
  match q.rseqs.find? (fun x => x.seq == seq) with
  | some x => x.va
  | none => q.seqVa + 8 * seq
def State.seqMoves (s : State) (q : Queue) (seq : Nat) : Bool := s.movingIn q.ctx (q.seqEntry seq) 8

/-- A sequence whose handle and NEXT are free values. (Log entry 48 DESIGN CHOICE.) -/
def State.freeSeq (s : State) (seq va : Nat) : RSeq × State :=
  let (v, s) := s.free
  ({ seq := seq, va := va, handle := v.extractLsb' 0 32, next := (v.extractLsb' 32 32).toNat }, s)

/-- The unit's handle and NEXT of a sequence (R336): those it keeps while a token of it is pending, and those that
memory holds otherwise. Where software has written the entry meanwhile neither is defined, and where an entry that it
has to read cannot be read the spec gives neither: both are free values. (Log entry 48 DESIGN CHOICE.) -/
def State.seqOf (s : State) (q : Queue) (seq : Nat) : RSeq × State :=
  match q.rseqs.find? (fun x => x.seq == seq), s.readVa q.ctx (q.seqEntry seq) 8 with
  | none, .ok b => ({ seq := seq, va := q.seqEntry seq, handle := BitVec.ofNat 32 (w32 b 0), next := w32 b 4 }, s)
  | none, .error _ => s.freeSeq seq (q.seqEntry seq)
  | some x, .ok b => if x.handle.toNat = w32 b 0 ∧ x.next = w32 b 4 then (x, s) else s.freeSeq seq (q.seqEntry seq)
  | some x, .error _ => (x, s)

def Queue.putSeq (q : Queue) (x : RSeq) : Queue := { q with rseqs := putKey RSeq.seq x q.rseqs }
def Queue.token? (q : Queue) (seq pos : Nat) : Option RToken := q.rtoks.find? fun t => t.seq == seq && t.pos == pos
def Queue.putToken (q : Queue) (t : RToken) : Queue :=
  if (q.token? t.seq t.pos).isSome then
    { q with rtoks := q.rtoks.map fun x => if x.seq = t.seq ∧ x.pos = t.pos then t else x }
  else { q with rtoks := q.rtoks ++ [t] }

/-- Whether the unit has to read a sequence's entry that lies on a page that moves. -/
def State.seqWaits (s : State) (q : Queue) (seq : Nat) : Bool := !q.rseqs.any (fun x => x.seq == seq) && s.seqMoves q seq

/-- One contribution record taken, refused, or made to wait (none) (R337): for room, behind failed tokens that wait
for it, or for its sequence's entry. -/
def State.takeContribution (s : State) (q : Queue) (w : List Word) : Option State :=
  let seq := (w.getD 0 0).toNat
  let pos := (w.getD 1 0).toNat
  let idx := (w.getD 2 0).toNat % 8
  let k := (w.getD 2 0).toNat / 16 % 8 + 1
  if q.nseq ≤ seq then some (s.refusePush q.slot 1)
  else if s.seqWaits q seq then none
  else
    let (x, s) := s.seqOf q seq
    if pos < x.next then some (s.refusePush q.slot 1)
    else match q.token? seq pos with
      | some t =>
        let fresh := t.k = 0
        if t.got.any (fun g => g.1 == idx) ∨ (fresh = false ∧ t.k ≠ k) then some (s.refusePush q.slot 1)
        else some (s.putQueue ((q.putSeq x).putToken { t with k := k, got := t.got ++ [(idx, w.getD 3 0)] }))
      | none =>
        if q.cap ≤ q.rtoks.length ∨ q.rfails ≠ [] then none
        else some (s.putQueue ((q.putSeq x).putToken
          { seq := seq, pos := pos, k := k, got := [(idx, w.getD 3 0)], failed := false }))

/-- A failed token of a sequence and position taken (R335, R337), refused where its position lies below NEXT, or made
to wait (none) as a push is. (Log entry 130 DEDUCED.) -/
def State.takeFail (s : State) (q : Queue) (seq pos : Nat) : Option State :=
  if q.nseq ≤ seq then some (s.refusePush q.slot 1)
  else if s.seqWaits q seq then none
  else
    let (x, s) := s.seqOf q seq
    if pos < x.next then some (s.refusePush q.slot 1)
    else if (q.token? seq pos).isSome ∨ q.rtoks.length < q.cap then some (s.putQueue ((q.putSeq x).failToken seq pos))
    else none

/-- A token returned to a reorder queue as failed: taken, or added behind those that wait (R335, R337).
(Log entry 130 DEDUCED.) -/
def State.takeFailed (s : State) (ctx : Nat) (handle : Word) (w : List Word) : State :=
  match s.queues.find? (fun r => r.handle == handle && r.kind == .reorder && r.ctx == ctx) with
  | none => s
  | some q =>
    let seq := (w.getD 0 0).toNat
    let pos := (w.getD 1 0).toNat
    match (if q.rfails = [] then s.takeFail q seq pos else none) with
    | some s => s
    | none => s.putQueue { q with rfails := q.rfails ++ [(seq, pos)] }

/-- The oldest failed token that waits, taken where it now can be. (Log entry 130 DEDUCED.) -/
def State.takeWaiting (s : State) (q : Queue) : Option State :=
  match q.rfails with
  | [] => none
  | f :: r => let q := { q with rfails := r }; (s.putQueue q).takeFail q f.1 f.2

/-- Whether a token is complete (R337). -/
def RToken.complete (t : RToken) : Bool := t.failed || (t.k != 0 && t.got.length == t.k)

/-- The register of a result entry (Table C.26). -/
def RToken.entry (t : RToken) : Vec :=
  vmk fun l =>
    if l = 0 then BitVec.ofNat 32 t.seq
    else if l = 1 then BitVec.ofNat 32 t.pos
    else if l = 2 then (if t.failed then 1 else 0)
    else if l = 3 then BitVec.ofNat 32 t.k
    else if l < 12 then
      let i := l - 4
      if t.k ≤ i then 0
      else match t.got.find? (fun g => g.1 == i) with
        | some g => g.2
        | none => 0xFFFFFFFF
    else 0

/-- NEXT written back with a DEVICE release (R336). -/
def State.writeNext (s : State) (ctx va next : Nat) : State :=
  match s.translate ctx (va + 4) with
  | .ok loc _ _ => s.unitStore loc (leBytes 4 next)
  | _ => s

/-- An entry added at the tail of a queue. -/
def State.enqueue (s : State) (q : Queue) (regs : List Vec) (words : List Word) : State :=
  let (i, s) := s.newId
  s.putQueue { q with entries := q.entries ++ [{ id := i, regs := regs, words := words, at_ := s.clk }] }

/-- A token released: the sequence's NEXT advances, and the unit forgets a sequence with no token left. -/
def State.advanceSeq (s : State) (q : Queue) (x : RSeq) : State :=
  let next := (x.next + 1) % 2 ^ 32
  let toks := q.rtoks.filter fun t => !(t.seq == x.seq && t.pos == x.next)
  let q : Queue := { q with
    rtoks := toks,
    rseqs := if toks.any (fun t => t.seq == x.seq) then putKey RSeq.seq { x with next := next } q.rseqs
      else q.rseqs.filter fun y => y.seq ≠ x.seq }
  (s.putQueue q).writeNext q.ctx x.va next

/-- REORDER_RELEASE of sequence `b` of the queue in slot `a` (R337, R338): its complete token at NEXT goes to the
sequence's result queue, which holds it while full.  A failed token that waited for room is taken first.
(Log entries 159 DESIGN CHOICE, 164 DESIGN CHOICE.) -/
def execReorderRelease (s : State) : Answer :=
  hw s fun s =>
    match s.queue? s.arg.a with
    | none => none
    | some q =>
      match s.takeWaiting q with
      | some s => some s
      | none =>
        if q.kind ≠ .reorder ∨ q.rtoks.any (fun t => t.seq == s.arg.b) = false ∨ s.seqMoves q s.arg.b = true then none
        else
          let (x, s) := s.seqOf q s.arg.b
          match q.token? x.seq x.next with
          | none => none
          | some t =>
            if t.complete = false then none
            else match s.queues.find? (fun m => m.handle == x.handle && m.kind == .msg && m.n2 == 0) with
              | none => some ((s.refusePush q.slot 1).advanceSeq q x)
              | some m =>
                if m.closed then some ((s.refusePush m.slot 1).advanceSeq q x)
                else if m.cap ≤ m.entries.length then none
                else some ((s.enqueue m [t.entry] []).advanceSeq q x)

/-! ### Kicks -/

/-- The refused-kick count of a launch queue rises (R321, R323). -/
def State.refuseKick (s : State) (ctx q : Nat) : State :=
  match s.ctx? ctx with
  | none => s
  | some c =>
    let old := match c.refusedKicks.find? (fun e => e.1 == q) with
      | some e => e.2
      | none => 0
    s.putCtx { c with refusedKicks := putKey Prod.fst (q, old + 1) c.refusedKicks }

/-- A footprint operand (Table C.23) from its two doublewords. -/
def footOf (d0 d1 : Nat) : Bool × Nat × Nat × Nat × Nat :=
  (d0.testBit 63, bits d0 0 52, bits d1 40 24, bits d1 16 24, bits d1 0 16)

/-- Whether a packet passes the checks of BAD_PACKET (Table C.22). (Log entry 44 DEDUCED.) -/
def packetOk (p : List Byte) : Bool :=
  let w := w32 p 4
  let sheaf := w % 2 = 1
  let nfp := bits w 16 4
  bits (w32 p 0) 24 8 == 0 && bits w 20 12 == 0 && w16 p 0x16 == 0 && w32 p 0x2C == 0 && w64 p 0x70 == 0 && w64 p 0x78 == 0 && decide (nfp ≤ 4)
  && !(sheaf && (w64 p 0x10 != 0x100010001 || w.testBit 1))
  && (w32 p 0x18 == 0xFFFFFFFF || fmtOk (BitVec.ofNat 32 (w32 p 0x18)))
  && decide (w32 p 0x28 ≤ 65536)
  && ((List.range 4).all fun i => bits (w64 p (0x30 + 16 * i)) 52 11 == 0)
  && ((List.range 8).all fun i => bits (w64 p (0xC0 + 8 * i)) 28 36 == 0)

/-- Whether extents break R198. -/
def extentsOk (nx ny nz : Nat) : Bool :=
  decide (1 ≤ nx) && decide (nx ≤ 65535) && decide (1 ≤ ny) && decide (ny ≤ 65535) && decide (1 ≤ nz)
    && decide (nz ≤ 65535) && decide (nx * ny * nz < 2 ^ 32)

/-- What a core of a cluster has left: groups, registers, scratchpad bytes and matrix contexts. -/
abbrev CoreRoom := Nat × Nat × Nat × Nat
def fullRoom : CoreRoom := (128, 6144, 0x400000, 4)

/-- Room less some groups and registers, and less what the home core of a team gives. -/
def CoreRoom.less (r : CoreRoom) (groups regs scratch streams : Nat) : Option CoreRoom :=
  if r.1 < groups ∨ r.2.1 < regs ∨ r.2.2.1 < scratch ∨ r.2.2.2 < streams then none
  else some (r.1 - groups, r.2.1 - regs, r.2.2.1 - scratch, r.2.2.2 - streams)

/-- Whether teams, each of groups, budget, scratchpad and streams, fit the empty cores of a cluster all at once. -/
def packTeams : List (Nat × Nat × Nat × Nat) → List CoreRoom → Bool
  | [], _ => true
  | (n, b, sc, st) :: r, cores =>
    let h := (n + 1) / 2
    if n ≤ 128 ∧ n * b ≤ 6144 then
      (List.range cores.length).any fun i =>
        match (cores.getD i fullRoom).less n (n * b) sc st with
        | none => false
        | some x => packTeams r (cores.set i x)
    else
      (List.range cores.length).any fun i => (List.range cores.length).any fun j =>
        if i = j then false
        else match (cores.getD i fullRoom).less h (h * b) sc st, (cores.getD j fullRoom).less (n - h) ((n - h) * b) 0 0 with
          | some x, some y => packTeams r ((cores.set i x).set j y)
          | _, _ => false

/-- A team's needs, as packTeams takes them. -/
def Launch.needs (l : Launch) (i : Nat) : Nat × Nat × Nat × Nat :=
  let ms := l.members i
  let regs := sumNat (ms.map fun m => m.2.budget)
  let streams := if (l.rolesOf i).any (fun r => r.mst.isSome) then 1 else 0
  if l.folded then (1, regs, l.scratchNeed i, streams)
  else (ms.length, (headD ms (0, Role.none)).2.budget, l.scratchNeed i, streams)

/-- Enabled cores of each admitted cluster of a context. -/
def State.clusters (s : State) (ctx : Nat) : List Nat :=
  (List.range 40).filterMap fun c =>
    let n := ((List.range 4).filter fun k => s.admitted ctx (4 * c + k)).length
    if n = 0 then none else some n

/-- How many teams of one shape the empty cores of a cluster hold: whole, or by halves on pairs, where no core holds two
home halves. -/
def clusterHolds (need : Nat × Nat × Nat × Nat) (cores : Nat) : Nat :=
  let per := fun (n : Nat) =>
    let a := min (128 / max n 1) (6144 / max (n * need.2.1) 1)
    let a := if need.2.2.1 = 0 then a else min a (0x400000 / need.2.2.1)
    if need.2.2.2 = 0 then a else min a 4
  if need.1 ≤ 128 ∧ need.1 * need.2.1 ≤ 6144 then cores * per need.1
  else ((List.range' 1 cores).filter fun k => packTeams (List.replicate k need) (List.replicate cores fullRoom)).length

/-- Whether the admitted clusters can ever hold what is placed whole (R328, R329). (Log entry 108 DEDUCED.) -/
def State.canHold (s : State) (l : Launch) : Bool :=
  let cs := s.clusters l.ctx
  if l.sheaf then
    cs.any fun n => packTeams ((List.range l.total).map l.needs) (List.replicate n fullRoom)
  else if l.gbar then decide (l.total ≤ sumNat (cs.map (clusterHolds (l.needs 0))))
  else true

/-- The launch checks of a launch that has been built: BAD_IMAGE, then CAPACITY. -/
def State.checkLaunch (s : State) (l : Launch) (frags : List Frag × Bool) : Option Nat :=
  if l.roles = [] ∨ l.roles.all (fun r => r.ok frags) = false ∨ extentsOk l.nx l.ny l.nz = false
      ∨ (l.chain.isSome && l.frags.any (fun f => f.group != 0)) = true then some eBadImage
  else if s.canHold l then none else some eCapacity

/-- select(image) (R381): the variant chosen, whose exact placements, where it is keyed, lie in the context's clusters.
(Log entry 119 DEDUCED.) -/
def State.pickVariant (s : State) (ctx : Nat) (i : Img) : Except Nat Nat :=
  match allOk ((List.range (min i.nvar 64)).map (s.imgVariant ctx i)) with
  | .error e => .error e
  | .ok vs =>
    match chooseVariant s.defectSignature vs with
    | none => .error eNoVariant
    | some v => match (vs[v]?).map (s.imgPlaces ctx i) with
      | some (.error e) => .error e
      | some (.ok ps) => if ps.all (fun p => s.admitted ctx p.2.2) then .ok v else .error eCapacity
      | none => .error eNoVariant

/-- The exact placements of a variant that has been chosen (R381). -/
def State.variantPlaces (s : State) (ctx : Nat) (i : Img) (v : Option Nat) : List (Nat × Nat × Nat) :=
  match v with
  | none => []
  | some v => match s.imgVariant ctx i v with
    | .ok x => (match s.imgPlaces ctx i x with
      | .ok ps => ps
      | .error _ => [])
    | .error _ => []

/-- The launch of a packet by a kick (R323): its roles and the checks of an image and a launch.
(Log entries 42 DEDUCED, 43 DEDUCED, 119 DEDUCED.) -/
def State.packetLaunch (s : State) (ctx q slot parent die nest lid : Nat) (p : List Byte) : Except Nat Launch :=
  if packetOk p = false then .error eBadPacket
  else match s.loadChecks ctx (w64 p 8) with
    | .error e => .error e
    | .ok i => match s.imgFrags ctx i, s.pickVariant ctx i with
      | .error e, _ => .error e
      | _, .error e => .error e
      | .ok fr, .ok v =>
        let w := w32 p 4
        let sheaf := w % 2 == 1
        let n := if sheaf then bits w 2 3 + 1 else 1
        let role := fun k =>
          let f := w64 p (0xC0 + 8 * k)
          s.rolesOf ctx i (bits f 0 16)
            { groups := bits f 16 8, budget := bits f 24 4, fmt := BitVec.ofNat 32 (w32 p 0x18), args := w64 p 0x20,
              argLen := w32 p 0x28, producer := some (bits w 8 8) } false
        match allOk ((List.range n).map role) with
        | .error e => .error e
        | .ok rs =>
          let chain := if n = 1 then (rs.head?).bind Prod.snd else none
          let roles := rs.flatMap Prod.fst
          if n ≠ 1 ∧ rs.any (fun r => r.2.isSome) then .error eBadPacket
          else
            let nx := w16 p 0x10
            let ny := w16 p 0x12
            let nz := w16 p 0x14
            let l : Launch :=
              { lid := lid, ctx := ctx, die := die, origin := .kick ctx q slot parent, prog := none, roles := roles,
                sheaf := sheaf || chain.isSome, gbar := w.testBit 1, nx := nx, ny := ny, nz := nz,
                seed := BitVec.ofNat 32 (w32 p 0x1C),
                prio := min (bits w 5 3) (match s.ctx? ctx with
                  | some c => c.pceil
                  | none => 0),
                depth := nest + 1, qh := (List.range 16).map fun k => BitVec.ofNat 32 (w32 p (0x80 + 4 * k)),
                codeBase := i.base + i.code, codeSize := i.codeSize, frags := fr.1,
                feet := (List.range (bits w 16 4)).map fun k => footOf (w64 p (0x30 + 16 * k)) (w64 p (0x38 + 16 * k)),
                places := s.variantPlaces ctx i (some v), chain := chain, form := none, more := 0,
                total := if sheaf ∨ chain.isSome then roles.length else nx * ny * nz,
                span := [], parts := [], next := 0, again := [], started := false, dones := [], reissue := 0, gbDies := List.replicate 4 [] }
            match s.checkLaunch l fr with
            | some e => .error e
            | none => .ok l

/-- The code region of an image becomes read-only to groups (R43). -/
def State.addImage (s : State) (ctx codeVa len : Nat) : State :=
  let r : CodeRegion := { ctx := ctx, va := codeVa, len := len }
  if s.images.contains r then s else { s with images := s.images ++ [r] }

/-- One kick taken by a launch queue (R323). (Log entry 149 DESIGN CHOICE.) -/
def State.kick (s : State) (t : Team) (q : Nat) (value : Word) (nest : Nat) : State :=
  match s.ctx? t.ctx with
  | none => s
  | some c =>
    let slot := value.toNat % 64
    let va := c.frarea + 0x1400000 + 0x4000 * q + 0x100 * slot
    match s.readVa t.ctx va 256 with
    | .error _ => s.refuseKick t.ctx q
    | .ok p =>
      let st := leNat (p.take 1)
      if 64 ≤ value.toNat ∨ st = 1 ∨ st = 2 then s.refuseKick t.ctx q
      else
        let (lid, s) := s.newId
        let reissue := leNat ((p.drop 2).take 1)
        if nest = 10 then s.packetStatus t.ctx va 4 0x17 reissue
        else match s.packetLaunch t.ctx q slot t.launch (dieOfCore t.home) nest lid p with
          | .error e => s.packetStatus t.ctx va 4 e reissue
          | .ok l => ((s.packetStatus t.ctx va 1 0 0).addImage t.ctx l.codeBase l.codeSize).addLaunch l

/-- The kicks of an entry in lane order; the cause and the number of those not taken when an address fails (R103).
(Log entry 143 DEDUCED.) -/
def State.kicks (s : State) (t : Team) (nest : Nat) : List (Nat × Word) → State × Option Nat
  | [] => (s, none)
  | k :: r =>
    match s.translate t.ctx k.1 with
    | .ok loc _ _ =>
      (match loc.sp with
       | .kick _ =>
         if loc.a < 0x80 ∧ loc.a % 8 = 0 then (s.kick t (loc.a / 8) k.2 nest).kicks t nest r else (s, some cProtection)
       | _ => (s, some cProtection))
    | .moving => (s, some cPageFault)
    | .fail c => (s, some c)

/-- Whether a kick waits: its address, or the image of its packet, lies on a page that moves (R311).
(Log entry 19 DEDUCED.) -/
def State.kickWaits (s : State) (t : Team) (k : Nat × Word) : Bool :=
  match s.translate t.ctx k.1 with
  | .moving => true
  | .ok loc _ _ =>
    (match loc.sp, s.ctx? t.ctx with
     | .kick _, some c =>
       let va := c.frarea + 0x1400000 + 0x4000 * (loc.a / 8) + 0x100 * (k.2.toNat % 64)
       (match s.readVa t.ctx va 256 with
        | .ok p => s.imageMoves t.ctx (w64 p 8)
        | .error _ => false)
     | _, _ => false)
  | .fail _ => false

/-! ### HELD_ENTRY_RELEASE -/

/-- The lane records of a lane kind's entry, with their lanes. -/
def laneRecords (lanes : Word) (regs : List Vec) : List (Nat × List Word) :=
  (lanesOf lanes).map fun l => (l, regs.map fun v => vget v l)

/-- A spill record (Table A.85). -/
def spillRecord (w : List Word) (handle pc : Word) : List Byte :=
  (w.take 4).flatMap (fun x => leBytes 4 x.toNat) ++ leBytes 4 handle.toNat ++ leBytes 4 pc.toNat ++ [0x11]
    ++ List.replicate 7 0

/-- A token added at the tail of an EXPERT queue: on chip while there is room and none is spilled, else as the next
record of the spill ring (R334); none where there is no room. (Log entry 49 DESIGN CHOICE.) -/
def State.pushToken (s : State) (q : Queue) (w : List Word) : Option State :=
  if q.spilled = [] ∧ q.entries.length < q.cap then some (s.enqueue q [] w)
  else if q.spilled.length < q.spill then
    let (i, s) := s.newId
    let s := (s.writeVa q.ctx (q.spillVa (q.ringHead + q.spilled.length)) ((w.take 4).flatMap fun x => leBytes 4 x.toNat)).1
    some (s.putQueue { q with spilled := q.spilled ++ [(i, s.clk)] })
  else none

/-- Records pushed in order as far as there is room, and those left. -/
def State.pushTokens (s : State) (slot : Nat) : List (Nat × List Word) → State × List (Nat × List Word)
  | [] => (s, [])
  | r :: rest =>
    match (s.queue? slot).bind fun q => s.pushToken q r.2 with
    | some s => s.pushTokens slot rest
    | none => (s, r :: rest)

/-- A released push of an EXPERT entry (R164, R334): the records that fit join; the others trap. -/
def State.pushExpert (s : State) (t : Team) (e : HeldEntry) (turn : Nat) (q : Queue) (recs : List (Nat × List Word)) :
    State :=
  let x := s.pushTokens q.slot recs
  match x.2 with
  | [] => x.1.dropHeld t.tid e.id
  | left =>
    (x.1.pendTo t e.gid turn
      { code := cExpertSpill, emask := left.foldl (fun m r => m ||| BitVec.ofNat 32 (2 ^ r.1)) 0, frec := 0,
        recs := left.map fun r => (r.1, spillRecord r.2 q.handle e.pc), perLane := false }).stopRelease t e.id turn

/-- The contribution records of an entry taken in lane order as far as there is room; those left wait in the entry
(R337). -/
def State.pushReorder (s : State) (t : Team) (e : HeldEntry) (handle : Word) (lanes : Word) (regs : List Vec) :
    List (Nat × List Word) → State
  | [] => s.dropHeld t.tid e.id
  | r :: rest =>
    match s.queueOf handle with
    | none => s.pushReorder t e handle lanes regs rest
    | some q =>
      match (if q.closed then some (s.refusePush q.slot 1) else s.takeContribution q r.2) with
      | some s => s.pushReorder t e handle lanes regs rest
      | none =>
        let left := (r :: rest).foldl (fun m x => m ||| BitVec.ofNat 32 (2 ^ x.1)) (0 : Word)
        match s.team? t.tid with
        | none => s
        | some t => s.putTeam { t with held := t.held.map fun h =>
            if h.id = e.id then { h with what := .push handle .reorder left regs } else h }

/-- A held push released (R36, R164, R168); none while it waits for room. -/
def State.releasePush (s : State) (t : Team) (e : HeldEntry) (turn : Nat) (handle : Word) (kind : QKind) (lanes : Word)
    (regs : List Vec) : Option State :=
  let recs := laneRecords lanes regs
  let n := if kind.lane then recs.length else 1
  match s.queueOf handle with
  | none => some ((s.refusePush (handle.toNat % 2 ^ 20) n).dropHeld t.tid e.id)
  | some q =>
    if q.closed then some ((s.refusePush q.slot n).dropHeld t.tid e.id)
    else match kind with
      | .expert =>
        if s.ringMoves q (q.ringHead + q.spilled.length) (min recs.length (q.spill - q.spilled.length)) then none
        else some (s.pushExpert t e turn q recs)
      | .reorder =>
        let s' := s.pushReorder t e handle lanes regs recs
        if s' = s then none else some s'
      | _ => if q.cap ≤ q.entries.length ∨ q.isOpen = false then none else some ((s.enqueue q regs []).dropHeld t.tid e.id)

/-- The stores that the release of an entry covers are performed: the team's at team scope (R102), or for a kick its
group's at DEVICE scope (R103). -/
def State.beforeRelease (s : State) (t : Team) (e : HeldEntry) (upTo : Nat) : State × Bool :=
  match e.what with
  | .kick .. =>
    let s := s.release e.gid e.id 3
    (s, s.performedAt e.gid e.id 3)
  | .push .. =>
    let gs := (s.groups.filter fun g => g.tid == t.tid).map Group.gid
    let s := s.each gs fun s g => s.release g upTo 0
    (s, gs.all fun g => s.performedAt g upTo 0)

/-- HELD_ENTRY_RELEASE of team `a` (R36): its oldest entry, when a COMMIT covers it whose clk is over.  A trap that a
LAUNCH's release raises is left to its group, with the exec that the LAUNCH issued under (R103, R59).
(Log entry 123 DEDUCED.) -/
def execHeldEntryRelease (s : State) : Answer :=
  hw s fun s =>
    match s.awakeTeam? s.arg.a with
    | none => none
    | some t => match t.held with
      | [] => none
      | e :: _ => match t.covering e with
        | none => none
        | some c =>
          if s.clk ≤ c.1 / 8 then none
          else
            let b := s.beforeRelease t e c.2
            let s := b.1
            if b.2 = false then none
            else match e.what with
              | .push handle kind lanes regs =>
                (s.releasePush t e c.1 handle kind lanes regs).map fun s => s.wakeTeam t.tid
              | .kick ks nest =>
                if ks.any (s.kickWaits t) then none
                else
                  let x := s.kicks t nest ks
                  (match x.2 with
                   | none => some ((x.1.dropHeld t.tid e.id).wakeTeam t.tid)
                   | some code =>
                     some (((x.1.pendTo t e.gid c.1
                       { code := code, emask := e.exec, frec := 0, recs := [], perLane := false }).stopRelease t e.id
                       c.1).wakeTeam t.tid))

/-! ### Expert firing -/

/-- The form that a PROGRAM body asks for (Table C.4, R267); POLICY is firmware's choice.
(Log entry 51 DESIGN CHOICE.) -/
def State.wantsFolded (s : State) (slot : Nat) (body : List Byte) : Bool :=
  let f := bits (w32 body 8) 16 2
  f == 1 || (f == 2 && Config.policyFolded slot && (match s.imgHeader (s.record slot).ctx (w64 body 0) with
    | .ok i => (match s.imgKernel (s.record slot).ctx i (bits (w32 body 8) 0 16) with
      | .ok k => s.chainFoldable (s.record slot).ctx i k
      | .error _ => false)
    | .error _ => false))

/-- The launch of a PROGRAM body (R277): of a grid, or with a batch of a firing (R331).
(Log entries 45 DEDUCED, 73 DESIGN CHOICE, 163 DESIGN CHOICE.) -/
def State.programLaunch (s : State) (r : Rec) (body : List Byte) (die lid : Nat) (origin : Origin) : Except Nat Launch :=
  match s.imgHeader r.ctx (w64 body 0) with
  | .error e => .error e
  | .ok i => match s.imgFrags r.ctx i, s.imgKernel r.ctx i (bits (w32 body 8) 0 16),
      s.rolesOf r.ctx i (bits (w32 body 8) 0 16)
        { groups := 0, budget := 0, fmt := BitVec.ofNat 32 (w32 body 0x18), args := w64 body 0x20, argLen := w32 body 0x28,
          producer := none } (s.wantsFolded r.slot body) with
    | .error e, _, _ => .error e
    | _, .error e, _ => .error e
    | _, _, .error e => .error e
    | .ok fr, .ok k, .ok x =>
      let fire := match origin with
        | .firing .. => true
        | _ => false
      let nx := w16 body 0x10
      let ny := w16 body 0x12
      let nz := w16 body 0x14
      let spread := match x.2 with
        | some c => !c.folded
        | none => false
      let n := if spread then x.1.length else nx * ny * nz
      let qh := (List.range 16).map fun j => BitVec.ofNat 32 (w32 body (0x30 + 4 * j))
      let rdom := match origin with
        | .firing q _ => (match s.queue? q with
          | some q => q.rdom
          | none => 0)
        | _ => 0
      let l : Launch :=
        { lid := lid, ctx := r.ctx, die := die, origin := origin, prog := some r.slot, roles := x.1, sheaf := fire || spread,
          gbar := k.gbar && !k.isChain, nx := nx, ny := ny, nz := nz, seed := BitVec.ofNat 32 (w32 body 0x1C),
          prio := min (w32 body 0xC % 8) (match s.ctx? r.ctx with
            | some c => c.pceil
            | none => 0),
          depth := 0, qh := if fire then 0 :: rdom :: qh.drop 2 else qh, codeBase := i.base + i.code,
          codeSize := i.codeSize, frags := fr.1, feet := [], places := s.variantPlaces r.ctx i r.launchVariant, chain := x.2,
          form := none, total := n, more := 0, span := [], parts := [], next := 0, again := [], started := false, dones := [], reissue := 0,
          gbDies := List.replicate 4 [] }
      if fire ∧ 8 < n then .error eBadImage
      else match s.checkLaunch l fr with
        | some e => .error e
        | none => .ok l

/-- Whether a queue is being deleted under DRAIN (R335). -/
def State.draining (s : State) (q : Queue) : Bool := (s.record q.slot).deleting && q.closed && !q.drop

/-- Tokens of an EXPERT queue whose push was released before a clk: one of the same clk is no part of a choice (R332).
(Log entry 76 DEDUCED.) -/
def Queue.ripe (q : Queue) (clk : Nat) : Nat :=
  (q.entries.filter fun e => decide (e.at_ < clk)).length + (q.spilled.filter fun e => decide (e.2 < clk)).length

/-- Whether a queue is eligible to fire (R332). (Log entry 76 DEDUCED.) -/
def State.mayFire (s : State) (q : Queue) : Bool :=
  let paused := match s.ctx? q.ctx with
    | some c => c.paused || !c.live
    | none => true
  q.kind == .expert && q.isOpen && decide (0 < q.ripe s.clk) && !q.paused && !paused
  && (if q.closed then s.draining q
      else decide (q.fill ≤ q.ripe s.clk) || decide (ageUnit * q.ageT ≤ s.headAge q))
  && (match s.programOf q.ctx q.prog with
      | some r => r.everConverged && r.phase != .failed && !r.deleted && !r.deleting && !r.paused
      | none => false)

/-- Whether queue x is chosen before queue y (R332). (Log entry 46 DEDUCED.) -/
def State.firesBefore (s : State) (x y : Queue) : Bool :=
  let od := fun (q : Queue) => decide (2 * ageUnit * q.ageT < s.headAge q)
  if od x != od y then od x
  else if !od x && x.pclass != y.pclass then decide (y.pclass < x.pclass)
  else if s.headAge x != s.headAge y then decide (s.headAge y < s.headAge x)
  else decide (x.slot < y.slot)

/-- The tokens of a firing taken off the head of its queue, spilled ones after those on chip, and the room filled again
(R332, R334). -/
def State.takeBatch (s : State) (q : Queue) (n : Nat) : List (List Word) × State :=
  let (q, s) := s.unspill q (n - q.entries.length)
  let batch := (q.entries.take n).map QEntry.words
  let (q, s) := s.refill { q with entries := q.entries.drop n }
  (batch, s.putQueue q)

/-- Whether an eligible queue takes part in a choice: its program's launch checks must pass now, or wait for a page of the
image that moves.  Otherwise the queue keeps its tokens, and the program's record its phase (Table C.8).
(Log entry 114 DESIGN CHOICE.) -/
def State.fires (s : State) (q : Queue) : Bool :=
  s.mayFire q && (match s.programOf q.ctx q.prog with
    | none => false
    | some p => s.imageMoves p.ctx (w64 p.launchBody 0)
        || (match s.programLaunch p p.launchBody q.die 0 (.firing q.slot 0) with
            | .error _ => false
            | .ok _ => true))

/-- EXPERT_FIRE of die `a` (R332): the queue chosen gives a batch of its oldest tokens to a sheaf.
(Log entries 46 DEDUCED, 114 DESIGN CHOICE.) -/
def execExpertFire (s : State) : Answer :=
  hw s fun s =>
    match s.queues.filter fun q => q.die == s.arg.a && s.fires q with
    | [] => none
    | x :: r =>
      let q := r.foldl (fun (m y : Queue) => if s.firesBefore y m then y else m) x
      match s.programOf q.ctx q.prog with
      | none => none
      | some p =>
        let n := min q.batch (q.ripe s.clk)
        if s.imageMoves p.ctx (w64 p.launchBody 0) ∨ s.ringMoves q q.ringHead (min q.spilled.length (n + q.cap)) then none
        else
          let (bid, s) := s.newId
          let (lid, s) := s.newId
          match s.programLaunch p p.launchBody q.die lid (.firing q.slot bid) with
          | .error _ => none
          | .ok l =>
            let age := s.headAge q / ageUnit
            let x := s.takeBatch q n
            let s : State := { x.2 with batches := x.2.batches ++ [{ bid := bid, queue := q.slot, all := x.1, left := x.1 }] }
            let qr := s.record q.slot
            some ((s.addLaunch l).setRecord { qr with firings := qr.firings + 1, maxAge := max qr.maxAge age })

/-- EXPERT_AGE_LIMIT of the queue in slot `a` (R330, R332): its head age has reached T or 2T; the largest head age seen
is kept, in units of 0.25 µs. -/
def execExpertAgeLimit (s : State) : Answer :=
  hw s fun s =>
    match s.queue? s.arg.a with
    | none => none
    | some q =>
      let r := s.record q.slot
      let age := s.headAge q / ageUnit
      if q.kind = .expert ∧ q.ageT ≤ age ∧ r.maxAge < age ∧ q.entries ≠ [] then some (s.setRecord { r with maxAge := age })
      else none

end Sys2Proof.Machine
end

