-- ==== Sys2Proof/Machine/StepsFault.lean ====
section
/-!
DEFINITION. Hardware steps of faults and their answers (R303 to R308, R355).
-/

namespace Sys2Proof.Machine

/-- Whether a page that a parked lane waits on has become usable (R303). -/
def State.usable (s : State) (ctx va : Nat) : Bool :=
  match s.translate ctx va with
  | .ok .. => true
  | .moving => false
  | .fail c => c != cPageFault && c != cHostAbsent

/-- FPOST_RESUME of group `a` (R108, R307): every page it posted has been applied, and it performs the ERET.
(Log entry 117 DEDUCED.) -/
def execFpostResume (s : State) : Answer :=
  hw s fun s =>
    match s.awake? s.arg.a with
    | none => none
    | some g => match g.park with
      | none => none
      | some p =>
        let open_ := p.fails.any fun f =>
          if f.parkable then !s.usable g.ctx f.va
          else s.faults.any fun x => x.ctx == g.ctx && page64 x.va == page64 f.va
        if p.posted = false ∨ open_ = true then none
        else match g.handler with
          | some v =>
            if g.epc.getLsbD 0 then some (s.trap { g with park := none } cMisaligned)
            else if s.eretWaits g v then none
            else some (s.eret g v)
          | none => some (s.putGroup { g with park := none })

/-- PARK_REPLAY of group `a` (R303): the pages of its lanes are usable, and the instruction issues again for them. -/
def execParkReplay (s : State) : Answer :=
  hw s fun s =>
    match s.awake? s.arg.a with
    | none => none
    | some g => match g.park with
      | none => none
      | some p =>
        if p.posted ∨ p.fails.all (fun f => s.usable g.ctx f.va) = false then none
        else some (s.putGroup { g with
          park := none, pc := p.pc, reissue := some (g.reissue.getD g.exec), exec := p.lanes, readyAt := s.clk })

/-- FAULT_BATCH_AGE of die `a` (R308): its oldest pending fault has waited 20 µs. -/
def execFaultBatchAge (s : State) : Answer :=
  hw s fun s =>
    if s.faults.any (fun f => f.die == s.arg.a && !f.sent && decide (f.posted + 18800 ≤ s.clk)) then
      some (s.writeBatch s.arg.a)
    else none

/-- FAULT_TIMEOUT of context `a` (R307): a posted fault has waited FWAIT ms. -/
def execFaultTimeout (s : State) : Answer :=
  hw s fun s =>
    match s.ctx? s.arg.a with
    | none => none
    | some c =>
      if c.live && c.fwait ≠ 0 && s.faults.any (fun f => f.ctx == c.ctx && decide (f.posted + 940000 * c.fwait ≤ s.clk)) then
        some (s.endContext c.ctx 0x22 0)
      else none

/-- HOST_ABSENCE of context `a` (R355): its host-absence clock has reached HOSTABS. -/
def execHostAbsence (s : State) : Answer :=
  hw s fun s =>
    match s.ctx? s.arg.a with
    | none => none
    | some c => match c.absentSince with
      | none => none
      | some t =>
        if c.live ∧ c.hostabs ≠ 0 ∧ t + 940000 * c.hostabs ≤ s.clk then some (s.endContext c.ctx 0x23 0) else none

/-- A group's latest outcome at the first-touch port. -/
def State.ftOutcome (s : State) (c : Ctx) (gid code : Nat) : State :=
  s.putCtx { c with ftStat := putKey Prod.fst (gid, code) c.ftStat }

/-- A pool page zeroed, tagged and installed for a first-touch page (R306, R363). -/
def State.mapFirstTouch (s : State) (c : Ctx) (r : Rec) (va frame : Nat) : State :=
  let s := s.zeroFrame frame 0x10000
  { s with
    tags := s.tags ++ [(frame, 0x10000, c.ctx)]
    pages := s.pages ++ [{ ctx := c.ctx, va := page64 va, size := 0x10000, sp := .dev, frame := frame,
                           perm := BitVec.ofNat 3 (bits (w32 r.body 0xC) 4 3), sup := false, kind := .mapping, slot := r.slot,
                           rasPoison := (w32 r.body 0xC).testBit 13, hostVis := false, revoked := false, moving := false,
                           movedAt := none }] }

/-- FIRST_TOUCH_REQUEST at the port of context `a` (R306): its oldest request is acted on. -/
def execFirstTouchRequest (s : State) : Answer :=
  hw s fun s =>
    match s.ctx? s.arg.a with
    | none => none
    | some c => match c.ftReqs with
      | [] => none
      | (gid, va) :: rest =>
        let c : Ctx := { c with ftReqs := rest }
        let s := s.putCtx c
        match s.covering? c.ctx va with
        | none => some (s.ftOutcome c gid 2)
        | some r =>
          if bits (w32 r.body 0xC) 10 2 ≠ 1 ∨ 2 ^ 52 ≤ va then some (s.ftOutcome c gid 2)
          else match s.page? c.ctx va with
            | some p => some (s.ftOutcome c gid (if p.moving then 4 else 1))
            | none => match s.poolPages c with
              | [] => some (s.ftOutcome c gid 3)
              | f :: _ =>
                let s := (s.mapFirstTouch c r va f).ftOutcome c gid 0
                some ((s.writeStanding c.slot).writeStanding r.slot)

/-- FIRST_TOUCH_STATUS: the read `a` of STATUS returns the outcome of its group's latest request, once that has been
acted on (R306).  With no request the spec states no outcome: a free value. (Log entry 52 DESIGN CHOICE.) -/
def execFirstTouchStatus (s : State) : Answer :=
  hw s fun s =>
    match s.access? s.arg.a with
    | none => none
    | some (g, a) => match a.lanes with
      | [] => none
      | l :: _ => match l.loc.sp with
        | .port c =>
          let waiting := (match s.ctx? c with
              | some cx => cx.ftReqs.any fun r => r.1 == g.gid
              | none => false)
            || s.stores.any fun x => x.gid == g.gid && decide (x.sid < a.id) && (match x.tgt with
                | .mem p => p.sp == .port c
                | _ => false)
          if l.finished || waiting || !s.joinClear g.gid a.epoch then none
          else
            let known := match s.ctx? c with
              | some cx => (cx.ftStat.find? fun e => e.1 == g.gid).map Prod.snd
              | none => none
            (match known with
             | some code => some (s.takeRead g a l [BitVec.ofNat 32 code] [])
             | none =>
               let (v, s) := s.free
               some (s.takeRead g a l [v.extractLsb' 0 32] []))
        | _ => none

end Sys2Proof.Machine
end

