-- ==== Sys2Proof/Machine/StepsTeam.lean ====
section
/-!
DEFINITION. Hardware steps of teams and chains: retirement (R203), pre-emption and resumption (R314 to R318, R37, R42,
R167, R240), and the switch of a chain between its forms (R257, R264 to R267).
-/

namespace Sys2Proof.Machine

/-! ### The launch step of a PROGRAM record -/

/-- The grid of a PROGRAM record launched with a body, as the record's launch step does it (R277, R404); with die 0 as
its pool's die, and with the variant that `r.launchVariant` names. (Log entry 73 DESIGN CHOICE.) -/
def State.launchGrid (s : State) (r : Rec) (body : List Byte) : Except Nat State :=
  let (lid, s) := s.newId
  match s.programLaunch r body 0 lid (.program r.slot) with
  | .error e => .error e
  | .ok l => .ok (((s.putRecord { s.record r.slot with launchBody := body, launchVariant := r.launchVariant, unlaunched := false }).addImage
      r.ctx l.codeBase l.codeSize).addLaunch l)

/-- RESTART (R288, R404): the next launch takes the fields that the record's launch step has last taken up. It waits
while a page of the image moves (R311). -/
def State.relaunch (s : State) (slot : Nat) : State :=
  let r := s.record slot
  if s.imageMoves r.ctx (w64 r.launchBody 0) then s.putRecord { r with unlaunched := true }
  else match s.launchGrid r r.launchBody with
    | .ok s => s
    | .error _ => s

/-- TEAM_RETIRE of team `a` (R203), and the completion of the grids that are then done (R324). -/
def execTeamRetire (s : State) : Answer :=
  hw s fun s =>
    match s.team? s.arg.a with
    | none => none
    | some t =>
      if s.mayRetire t then
        let s := s.retireTeam t
        some (State.completeGrids State.relaunch (s.launches.length + 1) s)
      else none

/-! ### Pre-emption -/

/-- The teams of a team's unit of pre-emption (R314): a grid with grid barriers, a chain, or the team alone. -/
def State.unitOf (s : State) (t : Team) : List Team :=
  let grid := match s.launch? t.launch with
    | some l => l.gbar
    | none => false
  if t.chain.isSome then s.teams.filter fun x => x.launch == t.launch && x.chain == t.chain
  else if grid then s.teams.filter fun x => x.launch == t.launch
  else [t]

/-- Bytes that a team's state takes of the save area (R316): the registers of Table A.1 and what the team holds.
(Log entry 54 DESIGN CHOICE.) -/
def State.saveBytes (s : State) (t : Team) : Nat :=
  let gs := s.groups.filter fun g => g.tid == t.tid
  sumNat (gs.map fun g => 128 * g.v.length + 2048) + t.scratch + 1024 * t.tagN + sumNat (t.planes.map fun p => 12 * p.size)
    + 1024 * t.held.length + (if t.stream.isSome then 65536 else 0) + 4096

/-- A group stopped: its fixed-latency writes land (R51), and the rest of a DLY is kept (R98). -/
def Group.stop (g : Group) (clk : Nat) : Group :=
  let g := g.settle
  match g.wait with
  | .dly t => { g with dlyLeft := t - clk }
  | _ => g

/-- Whether a team of a team's unit has groups on a halted core: no pre-emption of it is asked for (R342). -/
def State.unitHalted (s : State) (t : Team) : Bool :=
  (s.unitOf t).any fun x => s.groups.any fun g => g.tid == x.tid && (s.core (coreOf g.die g.core)).halted

/-- A pre-emption asked for every team of a unit (R314); it begins at the end of the clk. -/
def State.askStop (s : State) (unit : List Team) : State :=
  let ids := unit.map Team.tid
  { s with teams := s.teams.map fun x => if ids.contains x.tid then { x with stop := .asked } else x }

/-- The running teams of a unit stop, as no group of them issues from the next clk on (R314, R315). A unit of
committed teams reserves its room in the save area; where there is too little, the pre-emption is not made and
firmware is told (R316). (Log entry 54 DESIGN CHOICE.) -/
def State.beginStop (s : State) (t : Team) : State :=
  let unit := (s.unitOf t).filter fun x => x.state == .running
  let ids := unit.map Team.tid
  let need := sumNat (unit.map s.saveBytes)
  let room := match s.ctx? t.ctx with
    | some c => c.saveLeft
    | none => 0
  if t.committed ∧ room < need then
    ({ s with teams := s.teams.map fun x => if ids.contains x.tid then { x with stop := .refused } else x } : State).emit
      (.refused t.tid)
  else
    let s := if t.committed then (match s.ctx? t.ctx with
        | some c => s.putCtx { c with saveLeft := c.saveLeft - need }
        | none => s)
      else s
    { s with
      teams := s.teams.map (fun x =>
        if ids.contains x.tid then
          { x with state := .stopping, stop := .none, reserved := if t.committed then s.saveBytes x else 0 }
        else x),
      groups := s.groups.map (fun g => if ids.contains g.tid then g.stop s.clk else g) }

/-- Whether an access is a pop that still waits and has taken nothing (R167): a QGET of a queue without an entry for
it, or a pop that a JOIN holds. -/
def State.popWaits (s : State) (g : Group) (a : Access) : Bool :=
  a.kind.isPop && !a.returned &&
    (!s.joinClear g.gid a.epoch || (a.kind == .qget && a.bind.kind != .batch
      && (match a.bind.kind with
          | .chain => (s.popLink g a).isNone
          | _ => (s.popQueue g a).isNone)))

/-- Whether an access that stands in QRD is no longer under way: it waits and has taken nothing, or it has returned
and stays only behind one that waits (R34, R167). -/
def State.popStays (s : State) (g : Group) (a : Access) : Bool :=
  a.path == 4 && (a.returned || a.kind == .nothing || s.popWaits g a)

/-- The stores of a team performed at DEVICE (R240), and the counters that then fall. -/
def State.flushTeam (s : State) (tid : Nat) : State :=
  s.each ((s.groups.filter fun g => g.tid == tid).map Group.gid) fun s g => (s.release g s.nextId 3).follow g

/-- Whether nothing of a stopping team is under way but pops that wait, and those returned behind them. -/
def State.drained (s : State) (tid : Nat) : Bool :=
  s.groups.all (fun g => g.tid != tid ||
    ((match g.wait with
      | .check .. => false
      | _ => true) && g.landing.isEmpty && g.acc.all (s.popStays g) && s.performedAt g.gid s.nextId 3))
  && s.jobs.all (fun j => j.tid != tid || j.state != .running)
  && (match s.team? tid with
      | some t => (match t.stream with
        | some m => m.inFlight.isEmpty
        | none => true)
      | none => true)

/-- Poison that the drain passed traps at the first instruction after the switch (R132). -/
def PoisonRec.pend (p : PoisonRec) : PendTrap :=
  { code := p.cause, emask := failMask p.fails, frec := 0, recs := p.fails.map fun f => (f.lane, f.bytes p.pc),
    perLane := true }

/-- A translation register at a resume (R318). -/
def TransReg.saved (b : TransReg) : TransReg := if b.state = .invalid then b else { b with state := .stale }

/-- Pops that a save or a move of a form keeps: those of outside queues, and of links those that have returned. -/
def Group.keptPops (g : Group) : List Access :=
  g.acc.filter fun a => a.bind.kind != .chain || a.returned || a.kind == .nothing

/-- A group as its save records it (R42, R167). -/
def Group.save (g : Group) : Group :=
  { g with
    pendPops := g.keptPops
    acc := [], pend := g.pend ++ g.poison.map PoisonRec.pend, poison := [], b := g.b.map TransReg.saved,
    wait := match g.wait with
      | .chainPop _ => .none
      | .yield _ => .none
      | w => w }

/-- Jobs that wait in an order unit put back into the team's queue (R175): their guards have been passed. -/
def State.requeueJobs (s : State) (t : Team) : State :=
  let back := s.jobs.filter fun j => j.tid == t.tid && j.state == .waiting
  let s := s.each back fun s j => (s.putJob { j with state := .queued, guard := none }).dropOrder j.core j.jid
  match s.team? t.tid with
  | none => s
  | some t => s.putTeam { t with jobs := back.map Job.jid ++ t.jobs }

/-- A committed team saved (R316): its waiting pops are withdrawn, and it holds no room until it resumes.
(Log entry 54 DESIGN CHOICE.) -/
def State.saveTeam (s : State) (t : Team) : State :=
  let s := ((s.withdrawPops t.tid).requeueJobs t).dropLease t.tid
  let s : State := { s with groups := s.groups.map fun g => if g.tid == t.tid then g.save else g }
  let idle := fun (m : Stream) => ({ m with waiting := none, passed := 0 } : Stream)
  match s.team? t.tid with
  | some x => s.putTeam { x with state := .saved, stream := x.stream.map idle }
  | none => s

/-- The number of a team in its launch. -/
def Team.index (t : Team) : Nat := t.role + t.linear

/-- A number put into a rising list. -/
def insertNat (x : Nat) : List Nat → List Nat
  | [] => [x]
  | y :: r => if x < y then x :: y :: r else if x = y then y :: r else y :: insertNat x r

/-- An uncommitted team discarded (R37, R317): its launch record offers it again, and a firing's batch is whole again
(R331). (Log entry 55 DEDUCED.) -/
def State.discardAgain (s : State) (t : Team) : State :=
  let s := s.each (s.jobs.filter fun j => j.tid == t.tid && j.state != .ended) State.discardJob
  let s := s.discardTeam t.tid
  match s.launch? t.launch with
  | none => s
  | some l =>
    let l := { l with again := insertNat t.index l.again, reissue := min (l.reissue + 1) 255 }
    let s := (s.putLaunch l).setStatus l (if l.started then 2 else 1)
    match l.origin with
    | .firing _ b => { s with batches := s.batches.map fun x => if x.bid = b then { x with left := x.all } else x }
    | _ => s

/-- The teams of a team's unit that stop with it: one that is still saved from an earlier stop stays as it is (R314). -/
def State.stoppingOf (s : State) (t : Team) : List Team := (s.unitOf t).filter fun x => x.state == .stopping

/-- The unit of a stopping team saved or discarded once every team of it has drained. A plane step whose last arrival
was made before the stop swaps first (R315, R253). (Log entry 58 DESIGN CHOICE.) -/
def State.finishStop (s : State) (t : Team) : Option State :=
  let unit := s.stoppingOf t
  let s := s.each (unit.map Team.tid) State.flushTeam
  if unit.all (fun x => s.drained x.tid && x.planes.all fun p => !s.stepDue x p (s.clk + 9)) = false then none
  else some (s.each (s.stoppingOf t) fun s x => if t.committed then s.saveTeam x else s.discardAgain x)

/-- PREEMPT of team `a` (R314): firmware asks for the pre-emption of its unit, which stops at the end of the clk; a
further step, once the unit has drained, saves or discards it. (Log entry 58 DESIGN CHOICE.) -/
def execPreempt (s : State) : Answer :=
  hw s fun s =>
    match s.team? s.arg.a with
    | none => none
    | some t =>
      match t.state with
      | .running => if t.stop = .asked ∨ s.unitHalted t = true then none else some (s.askStop (s.unitOf t))
      | .stopping => s.finishStop t
      | _ => none

/-- Whether a launch is a program record's: its grid's or a firing's (R331). (Log entry 61 DEDUCED.) -/
def Launch.isOf (l : Launch) (r : Rec) : Bool := l.prog == some r.slot

/-- Whether a PAUSE, or the deletion of its PROGRAM record, asks for the pre-emption of a launch's teams (R288, R314). -/
def State.launchStops (s : State) (l : Launch) : Bool :=
  (match s.ctx? l.ctx with
   | some c => c.paused
   | none => false)
  || s.recs.any fun r => r.live && r.kind == 4 && r.ctx == l.ctx && (r.paused || (r.undoing && r.waiting))
      && l.isOf r

/-- Whether a launch has a team that is ready to be placed and that an empty cluster would hold, but that waits for
room. -/
def State.waitsForRoom (s : State) (l : Launch) : Bool :=
  l.open_ && s.launchReady l && !s.launchPaused l && !s.offeredAfter l
    && (l.whole || (List.range 40).any fun c =>
        packTeams [l.needs 0] (List.replicate ((List.range 4).filter fun k => s.admitted l.ctx (4 * c + k)).length fullRoom))

/-- Whether a launch of higher priority waits for room that a core could give (R314). (Log entry 115 DESIGN CHOICE.) -/
def State.outranked (s : State) (prio core : Nat) : Bool :=
  s.launches.any fun l => decide (prio < l.prio) && s.admitted l.ctx core && s.waitsForRoom l

/-- The launch priority of a team. -/
def State.teamPrio (s : State) (t : Team) : Nat :=
  match s.launch? t.launch with
  | some l => l.prio
  | none => 7

/-- Whether the pre-emption of a running team is asked for: by firmware, by its record's or context's PAUSE or its
record's deletion, or by the admission of work of higher priority (R314); of none with groups on a halted core (R342).
One that was refused for want of room is not asked for again by itself (R316). -/
def State.wantsStop (s : State) (t : Team) : Bool :=
  t.state == .running && !s.unitHalted t &&
  (match t.stop with
   | .asked => true
   | .refused => false
   | .none => (match s.launch? t.launch with
     | some l => s.launchStops l
     | none => false) || s.outranked (s.teamPrio t) t.home)

/-- The pre-emptions of a clk begin, one unit at a time (R314): none while a unit is stopping. A chain whose form is
being switched stops after its move (R315, R266). (Log entries 58 DESIGN CHOICE, 115 DESIGN CHOICE.) -/
def State.beginStops (s : State) : State :=
  if s.teams.any (fun t => t.state == .stopping) then s
  else match s.teams.find? fun t => s.wantsStop t && !s.chainMoves t with
    | none => s
    | some t => s.beginStop t

/-! ### Resumption -/

/-- The groups of a team in ascending order, those that have ended among them: each holds its slot and its registers until
the team retires (Table B.1). -/
def State.savedGroups (s : State) (tid : Nat) : List Group := s.groups.filter fun g => g.tid == tid

/-- The slots of some groups of a saved team on a core (R201): those they had, where it is the core they ran on, else
the slots of a new binding. (Log entry 56 DEDUCED.) -/
def State.coreResumes (s : State) (ctx core : Nat) (gs : List Group) (folded : Bool) : Option (List Nat) :=
  if gs.all (fun g => coreOf g.die g.core == core) then
    let on := s.groupsOn core
    if s.admitted ctx core = false ∨ (s.core core).halted = true
        ∨ 6144 < sumNat (on.map fun g => g.v.length) + sumNat (gs.map fun g => g.v.length)
        ∨ gs.any (fun g => (on.map Group.slot).contains g.slot) = true then none
    else some (gs.map Group.slot)
  else s.coreTakes ctx core (gs.map fun g => (g.grp, { Role.none with budget := g.v.length })) folded

/-- Whether a core has the scratchpad and the matrix context for a saved team (Table B.1). -/
def State.homeTakesTeam (s : State) (t : Team) (home : Nat) : Bool :=
  let ts := (s.holders).filter fun x => x.home == home
  decide (sumNat (ts.map s.scratchUse) + s.scratchUse t ≤ 0x400000)
    && (t.stream.isNone || decide ((ts.filter fun x => x.stream.isSome).length < 4))

/-- Whether a team must be with others of its launch in one cluster (R258, R328). (Log entry 56 DEDUCED.) -/
def State.sheafMates (s : State) (t : Team) : List Team :=
  match s.launch? t.launch with
  | some l =>
    if l.sheaf || l.chain.isSome then
      s.teams.filter fun x => x.launch == t.launch && x.tid != t.tid && x.state != .saved && x.chain == t.chain
    else []
  | none => []

/-- The slots that a saved team would take on a home and a partner core (R318). (Log entry 56 DEDUCED.) -/
def State.resumePlace (s : State) (t : Team) (home partner : Nat) : Option (List Nat × List Nat) :=
  let gs := s.savedGroups t.tid
  let folded := match t.chain.bind s.chain? with
    | some c => c.folded
    | none => false
  let single := folded || (decide (gs.length ≤ 128) && decide (sumNat (gs.map fun g => g.v.length) ≤ 6144))
  let pair := decide (home ≠ partner)
  let h := if pair then (gs.length + 1) / 2 else gs.length
  let placed := match s.launch? t.launch with
    | some l => l.placeOk t.index home
    | none => false
  if pair = single ∨ home / 4 ≠ partner / 4 ∨ placed = false ∨ s.homeTakesTeam t home = false
      ∨ (s.sheafMates t).all (fun x => x.cluster == home / 4) = false then none
  else match s.coreResumes t.ctx home (gs.take h) folded with
    | none => none
    | some a =>
      if pair then (match s.coreResumes t.ctx partner (gs.drop h) false with
        | none => none
        | some b => some (a, b))
      else some (a, [])

/-- A group as it resumes (R318, R240): in its new slot, with its pending pops in their counter again, a DLY's remaining
time to serve, and an acquire at DEVICE. -/
def Group.resume (g : Group) (core slot clk step : Nat) : Group :=
  { g with
    die := core / 40, core := core % 40, slot := slot, acc := g.pendPops, pendPops := [], mark := step, readyAt := clk,
    wait := (match g.wait with
      | .dly _ => .dly (clk + g.dlyLeft)
      | w => w), dlyLeft := 0 }

/-- The pending pops of a group posted to their queues (R167). -/
def State.postPops (s : State) (g : Group) : State :=
  { s with queues := s.queues.map fun q =>
      { q with pops := q.pops ++ ((g.acc.filter fun a => a.kind.isPop && !a.returned && a.bind.handle == q.handle
          && (a.bind.kind == .msg || a.bind.kind == .stream)).map Access.id) } }

/-- A saved team runs again (R318): its groups in their slots with their pending pops, the turn of the rotation of a
core it has moved to (R201), the room it held in the save area, and its waiting jobs. -/
def State.resumeTeam (s : State) (t : Team) (home partner : Nat) (sl : List Nat × List Nat) : State :=
  let gs := s.savedGroups t.tid
  let at_ := (sl.1.map fun x => (home, x)) ++ (sl.2.map fun x => (partner, x))
  let moved := fun (c : Nat) => (gs.zip at_).any fun x => x.2.1 == c && coreOf x.1.die x.1.core != c
  let turns := (if home = partner then [home] else [home, partner]).filter moved
  let s : State := { s with opStep := s.opStep + 1 }
  let s := s.each (gs.zip at_) fun s x =>
    let g := x.1.resume x.2.1 x.2.2 s.clk s.opStep
    (s.putGroup g).postPops g
  let s := s.putTeam { t with home := home, partner := partner, state := .running, reserved := 0 }
  let s := s.each turns State.rotate
  let s : State := { s with teams := s.teams.map fun x =>
    if x.ctx = t.ctx ∧ x.stop = .refused then { x with stop := .none } else x }
  let s := match s.ctx? t.ctx with
    | some c => s.putCtx { c with saveLeft := c.saveLeft + t.reserved, cores := dedup (home :: partner :: c.cores) }
    | none => s
  (s.pumpJobs t.tid (t.jobs.length + 1)).wakeTeam t.tid

/-- TEAM_RESUME of the saved team `a` on core `b` with partner `c`, or `b` twice (R318). (Log entry 56 DEDUCED.) -/
def execTeamResume (s : State) : Answer :=
  hw s fun s =>
    match s.team? s.arg.a with
    | none => none
    | some t =>
      let paused := match s.launch? t.launch with
        | some l => s.launchPaused l
        | none => true
      if t.state ≠ .saved ∨ paused = true then none
      else match s.resumePlace t s.arg.b s.arg.c with
        | none => none
        | some sl => some (s.resumeTeam t s.arg.b s.arg.c sl)

/-! ### Switching a chain's form -/

/-- Whether an access is a pop of a stage's outside input queue that has no entry (R260). (Log entry 144 DEDUCED.) -/
def State.outsidePop (s : State) (g : Group) (a : Access) : Bool :=
  a.kind == .qget && !a.returned && a.bind.kind != .chain && s.popWaits g a

/-- The accesses of a group that have not returned. -/
def State.unreturned (s : State) (g : Group) : List Access := g.acc.filter fun a => !(s.accDone a || a.returned)

/-- Whether a group's only access not yet returned is a pop of its outside queue, which has no entry for it (R260). -/
def State.onOutsidePop (s : State) (g : Group) : Bool :=
  match s.unreturned g with
  | [a] => s.outsidePop g a
  | _ => false

/-- Whether a stage is input-blocked (R260), with no access in flight but the pop of its outside queue (R264): at a link
without a poppable entry (Table D.7), at a full link, or at a WAITCNT or a pending write of that pop.  In the folded form a
stage that has blocked stays so until it is resumed, whether or not its cause has cleared. -/
def State.inputBlocked (s : State) (c : Chain) (k : Nat) (st : Stage) (g : Group) : Bool :=
  g.park.isNone &&
  ((match g.wait with
    | .chainPop i => (c.link (k - 1)).entries.all (fun e => decide (e.readyAt ≠ 0))
        && (!(c.link (k - 1)).entries.isEmpty || !c.stageEnded (k - 1))
        && ((s.unreturned g).filter fun a => a.id != i).all (s.outsidePop g)
        && decide (((s.unreturned g).filter fun a => a.id != i).length ≤ 1)
    | _ => false)
   || ((st.block == .qget || st.block == .qput || (c.folded && st.block == .outside)) && ((s.unreturned g).isEmpty || s.onOutsidePop g))
   || (s.onOutsidePop g && (st.block == .outside || (match g.wait with
        | .waitcnt .. => true
        | _ => false))))

/-- Whether a chain is at an equivalence point (R264). -/
def State.equivalence (s : State) (c : Chain) : Bool :=
  c.links.all (fun l => decide (l.entries.length ≤ 1))
  && c.stages.zipIdx.all fun x =>
    x.1.ended || (match s.group? x.1.gid with
      | none => true
      | some g => (g.lastIssue.isNone && g.acc.isEmpty) || s.inputBlocked c x.2 x.1 g)

/-- The teams of a chain's stages, with the numbers of the stages. -/
def State.stageTeams (s : State) (c : Chain) : List (Nat × Team) :=
  c.stages.zipIdx.filterMap fun x => ((s.group? x.1.gid).bind fun g => s.team? g.tid).map fun t => (x.2, t)

/-- The stages that have used an item of a kind and number. -/
def Chain.usersOf (c : Chain) (kind n : Nat) : List Nat :=
  (c.users.filter fun u => u.1 == kind && u.2.1 == n).map fun u => u.2.2

/-- The teams of a chain. -/
def State.chainTeams (s : State) (c : Chain) : List Team := s.teams.filter fun t => t.chain == some c.cid

/-- Stages whose groups still exist, by number. -/
def State.liveStages (s : State) (c : Chain) : List (Nat × Group) :=
  c.stages.zipIdx.filterMap fun x => (s.group? x.1.gid).map fun g => (x.2, g)

/-- Whether a token is as a launch leaves it. -/
def Token.fresh : Token := { state := 0, landed := 0, skipped := false, cardLoc := 0, cardSpad := false, card := [], job := 0 }

/-- One of some items: the only one, or where there are several a free choice (R257); a starting one where there is none.
(Log entry 57 DESIGN CHOICE.) -/
def State.pickItem {α : Type} (s : State) (start : α) (items : List α) : α × State :=
  match items with
  | [] => (start, s)
  | [x] => (x, s)
  | x :: r =>
    let (v, s) := s.free
    ((x :: r).getD (v.toNat % (r.length + 1)) x, s)

/-- The n items of a kind that a folded team takes from its stage teams: of each number that of the stage that uses
it, and of a number that several use one of theirs (R257, Table B.21). (Log entry 57 DESIGN CHOICE.) -/
def State.mergeAll {α : Type} (s : State) (c : Chain) (kind : Nat) (start : α) (rows : List (Nat × List α)) :
    Nat → List α × State
  | 0 => ([], s)
  | n + 1 =>
    let (l, s) := s.mergeAll c kind start rows n
    let (x, s) := s.pickItem start ((rows.filter fun r => (c.usersOf kind n).contains r.1).map fun r => r.2.getD n start)
    (l ++ [x], s)

/-- The n items of a kind that a stage's team takes from the folded team: its own, and of a number that another stage
has used the shared item or a starting one, a free choice (R257). (Log entry 57 DESIGN CHOICE.) -/
def State.splitAll {α : Type} (s : State) (c : Chain) (kind k : Nat) (start : α) (items : List α) : Nat → List α × State
  | 0 => ([], s)
  | n + 1 =>
    let (l, s) := s.splitAll c kind k start items n
    if (c.usersOf kind n).all (· == k) then (l ++ [items.getD n start], s)
    else
      let (v, s) := s.free
      (l ++ [if v.getLsbD 0 then items.getD n start else start], s)

/-- A barrier of a stage's team with the count that a team of one unended group has. -/
def Barrier.norm (b : Barrier) : Barrier := if b.isSet then b else { b with expect := 1 }

/-- What follows the stage groups into their new teams: jobs, and the entries held and tentative. -/
def State.rehome (s : State) (old : List Nat) (next : Nat → Nat) (first : Nat) : State :=
  { s with
    jobs := s.jobs.map fun j => if old.contains j.tid then { j with tid := next j.gid } else j
    queues := s.queues.map fun q => { q with
      tents := q.tents.map fun t => if old.contains t.tid then { t with tid := first } else t } }

/-- A group moved to a team and a slot: its fixed-latency writes land, its waiting outside pop is withdrawn (R265,
R167) and a blocked pop of a link given up, to be issued again. -/
def Group.moveTo (g : Group) (tid core slot : Nat) : Group :=
  { g.settle with
    tid := tid, die := core / 40, core := core % 40, slot := slot,
    pendPops := g.keptPops
    acc := []
    wait := match g.wait with
      | .chainPop _ => .none
      | w => w }

/-- How a stage is blocked, as the other form records it. -/
def Stage.carry (st : Stage) (g : Group) : Block :=
  match g.wait with
  | .chainPop _ => .qget
  | .waitcnt .. => .outside
  | _ => st.block

/-- The launch with its chain in a form, as the teams of a switched chain are made from it. -/
def Launch.inForm (l : Launch) (folded : Bool) : Launch :=
  { l with chain := l.chain.map fun c => { c with folded := folded } }

/-- The longest time of a move (R266). -/
def Chain.moveTime (c : Chain) : Nat := 512 + 4 * sumNat (c.stages.map Stage.win) + 40 * c.stages.length

/-- A spread chain's state moved into a folded team on a core (R265). (Log entry 57 DESIGN CHOICE.) -/
def State.fold (s : State) (c : Chain) (l : Launch) (core slot : Nat) : State :=
  let ts := s.chainTeams c
  let live := s.liveStages c
  let l0 := l.done (dieOfCore core) (ts.length - 1)
  let l := l.inForm true
  let (tid, s) := s.newId
  let t0 := l.newTeam (match ts with
    | [] => 0
    | t :: _ => t.linear) tid core core
  let s := s.each ts fun s t => (s.each (s.groups.filter fun g => g.tid == t.tid) fun s g =>
    s.release g.gid s.nextId 3).withdrawPops t.tid
  let ts := s.chainTeams c
  let live := live.filterMap fun x => (s.group? x.2.gid).map fun g => (x.1, g)
  let rows := s.stageTeams c
  let (bars, s) := s.mergeAll c 0 (Barrier.fresh 1) (rows.map fun r => (r.1, r.2.bars.map Barrier.norm)) 16
  let (toks, s) := s.mergeAll c 1 Token.fresh (rows.map fun r => (r.1, r.2.tokens)) 8
  let (gds, s) := s.mergeAll c 2 0 (rows.map fun r => (r.1, r.2.guards)) 16
  let mst := ts.find? fun t => t.stream.isSome
  let t : Team := { t0 with
    state := .running, committed := true, tokens := toks, guards := gds, bars := bars,
    held := (ts.flatMap Team.held).foldl (fun acc h => insertHeld h acc) [], releasing := ts.flatMap Team.releasing,
    commitTurn := (ts.map Team.commitTurn).foldl max 0, jobs := ts.flatMap Team.jobs,
    stream := mst.bind fun t => t.stream.map fun m => { m with waiting := none, passed := 0 },
    tiles := (match mst with
      | some m => m.tiles
      | none => t0.tiles), chain := some c.cid }
  let old := ts.map Team.tid
  let s := s.each old State.dropLease
  let s := s.each live fun s x => s.putGroup (x.2.moveTo tid core slot)
  let s := s.rehome old (fun _ => tid) tid
  let s : State := { s with teams := s.teams.filter (fun x => !old.contains x.tid) ++ [t] }
  ((s.putLaunch l0).rotate core).putChain { c with
    stages := c.stages.map (fun st => match live.find? (fun x => x.2.gid == st.gid) with
      | some x => { st with block := st.carry x.2 }
      | none => { st with ended := true }),
    links := c.links.map (fun k => { k with entries := k.entries.map fun e => { e with readyAt := 0 } }),
    movingTo := some true, moveEnd := s.clk + c.moveTime }

/-- The team of a stage that a folded team gives way to, with the items that it takes. -/
def unfoldTeam (t : Team) (l : Launch) (k tid core : Nat) (alive : Bool) (bars : List Barrier) (toks : List Token)
    (gds : List Nat) : Team :=
  let t0 := l.newTeam k tid core core
  { t0 with
    linear := 0, state := .running, committed := true, tokens := toks, guards := gds,
    bars := bars.map fun b => if b.isSet || alive then b else { b with expect := 0 },
    commitTurn := t.commitTurn,
    stream := if t0.stream.isSome then t.stream.map (fun m => { m with waiting := none, passed := 0 }) else none,
    tiles := t.tiles, chain := t.chain }

/-- The team of stage k of a folded chain, for one of its groups. -/
def State.splitTeam (s : State) (c : Chain) (t : Team) (l : Launch) (k : Nat) (g : Group) (tid core : Nat) : Team × State :=
  let (bars, s) := s.splitAll c 0 k (Barrier.fresh 1) t.bars 16
  let (toks, s) := s.splitAll c 1 k Token.fresh t.tokens 8
  let (gds, s) := s.splitAll c 2 k 0 t.guards 16
  let n := unfoldTeam t l k tid core (!g.ended) bars toks gds
  ({ n with held := t.held.filter (fun h => h.gid == g.gid), releasing := t.releasing,
            jobs := t.jobs.filter fun j => match s.job? j with
              | some x => x.gid == g.gid
              | none => false }, s)

/-- A folded chain's state moved into a sheaf of stage teams on cores (R265). (Log entry 57 DESIGN CHOICE.) -/
def State.unfold (s : State) (c : Chain) (l : Launch) (t : Team) (places : List (Nat × Nat)) : State :=
  let live := s.liveStages c
  let l0 : Launch := { l with more := l.more + (live.length - 1) }
  let l := l.inForm false
  let s := (s.each (live.map fun x => x.2.gid) fun s g => s.release g s.nextId 3).withdrawPops t.tid
  let t := (s.team? t.tid).getD t
  let first := s.nextId
  let s : State := { s with nextId := s.nextId + live.length }
  let live := live.filterMap fun x => (s.group? x.2.gid).map fun g => (x.1, g)
  let rows := (live.zip places).zipIdx.map fun y => (y.1.1.1, y.1.1.2, y.1.2.1, y.1.2.2, first + y.2)
  let (new, s) := rows.foldl (fun (x : List Team × State) r =>
    let y := x.2.splitTeam c t l r.1 r.2.1 r.2.2.2.2 r.2.2.1
    (x.1 ++ [y.1], y.2)) ([], s)
  let toTeam := fun (gid : Nat) => match rows.find? (fun r => r.2.1.gid == gid) with
    | some r => r.2.2.2.2
    | none => first
  let s := s.dropLease t.tid
  let s := s.each rows fun s r => s.putGroup (r.2.1.moveTo r.2.2.2.2 r.2.2.1 r.2.2.2.1)
  let s := s.rehome [t.tid] toTeam first
  let s : State := { s with teams := s.teams.filter (fun x => x.tid != t.tid) ++ new }
  ((s.putLaunch l0).each (places.map Prod.fst) State.rotate).putChain { c with
    stages := c.stages.map (fun st => match live.find? (fun x => x.2.gid == st.gid) with
      | some x => { st with block := if st.block = .outside then st.carry x.2 else .none }
      | none => { st with ended := true }),
    movingTo := some false, moveEnd := s.clk + c.moveTime }

/-- The slots of stage teams on cores, each of one group, taken one after another, each placement with its turn of the
core's rotation (R201); the stage with the matrix stream needs a matrix context of its core, and the scratchpad holds what
the stages before it take there, links too (R200, R258). -/
def State.sheafSlots (s : State) (ctx : Nat) (l : Launch) (taken : List (Nat × Nat)) :
    List (Group × Nat × Nat) → Option (List Nat)
  | [] => some []
  | (g, k, core) :: r =>
    let role := { Role.none with budget := g.v.length }
    let ts := s.holders.filter fun x => x.home == core
    let stream := (l.rolesOf k).any fun r => r.mst.isSome
    let used := sumNat (ts.map s.scratchUse) + sumNat ((taken.filter fun x => x.1 == core).map Prod.snd)
    if 0x400000 < used + l.scratchNeed k then none
    else if stream ∧ 4 ≤ (ts.filter fun x => x.stream.isSome).length then none
    else match s.coreTakes ctx core [(0, role)] false with
      | some [slot] =>
        let s := ((s.putGroup { g with gid := s.nextId, die := core / 40, core := core % 40, slot := slot }).newId.2).rotate core
        (match s.sheafSlots ctx l ((core, l.scratchNeed k) :: taken) r with
         | some x => some (slot :: x)
         | none => none)
      | _ => none

/-- CHAIN_MOVE of chain `a` (R265): at an equivalence point its state moves to the form asked for, on the cores of
`pairs`: one for a folded team, one for each stage of a sheaf. (Log entry 57 DESIGN CHOICE.) -/
def execChainMove (s : State) : Answer :=
  hw s fun s =>
    match s.chain? s.arg.a with
    | none => none
    | some c => match c.request, s.launch? c.launch with
      | some form, some l =>
        let ts := s.chainTeams c
        let cores := s.arg.pairs.map Prod.fst
        if form = c.folded ∨ c.movingTo.isSome ∨ ts = [] ∨ ts.all (fun t => t.state == .running) = false
            ∨ s.equivalence c = false then none
        else if form then
          (match cores with
           | [core] =>
             let ms := c.stages.map fun st => (0, { Role.none with budget := st.win })
             let streams := (s.holders.filter fun x => x.home == core && x.stream.isSome).length
             if c.foldable = false ∨ (c.mst.isSome && decide (4 ≤ streams)) = true then none
             else match s.coreTakes l.ctx core ms true with
               | some (slot :: _) => some (s.fold c l core slot)
               | _ => none
           | _ => none)
        else match ts with
          | [t] =>
            let live := s.liveStages c
            let l' := l.inForm false
            if cores.length ≠ live.length ∨ cores.all (fun x => some (x / 4) == (cores.head?).map (· / 4)) = false then none
            else match s.sheafSlots l.ctx l' [] (((live.zip cores)).map fun x => (x.1.2, x.1.1, x.2)) with
              | some slots => some (s.unfold c l t (cores.zip slots))
              | none => none
          | _ => none
      | _, _ => none

/-- A chain runs in its new form (R265, R266). A folded chain resumes the lowest runnable stage, and outside pops are
posted again. -/
def State.endMove (s : State) (c : Chain) (form : Bool) : State :=
  let s : State := { s with opStep := s.opStep + 1 }
  let s := s.each ((s.liveStages c).map Prod.snd) fun s g =>
    let g : Group := { g with acc := g.pendPops, pendPops := [], mark := s.opStep, readyAt := s.clk }
    (s.putGroup g).postPops g
  let c : Chain := { c with folded := form, movingTo := none, request := c.next.filter (· ≠ form), next := none, running := 0 }
  let s := s.putChain c
  let s := s.each (s.chainTeams c) fun s t => s.pumpJobs t.tid (t.jobs.length + 1)
  if form then
    match (List.range c.stages.length).find? (s.stageRunnable c) with
    | some k => s.putChain { (c.blockStage k .none) with running := k, switchAt := s.clk + 8 }
    | none => s
  else s

/-- CHAIN_MOVE_DONE of chain `a` (R265, R266): it runs in its new form. -/
def execChainMoveDone (s : State) : Answer :=
  hw s fun s =>
    match s.chain? s.arg.a with
    | none => none
    | some c => c.movingTo.map (s.endMove c)

/-- Whether a chain is a record's and a switch of its form is under way (R382). -/
def Chain.switching (c : Chain) (slot : Nat) : Bool :=
  c.slot == some slot && (c.request.isSome || c.next.isSome || c.movingTo.isSome)

/-- A form asked for of a launch, for the chains that it has still to place. (Log entry 138 DEDUCED.) -/
def Launch.ask (l : Launch) (folded : Bool) : Launch :=
  match l.chain with
  | none => l
  | some c => if (c.foldable || !folded) && l.open_ then { l with form := if c.folded = folded then none else some folded } else l

/-- A form asked for of every chain of a record that does not run in it, but for those whose stages have all ended (R267,
R382): a chain that is still to be placed is asked for it as it starts. One asked for while a switch is under way takes
effect once that switch has completed (R266). (Log entries 110 DEDUCED, 138 DEDUCED.) -/
def State.requestForm (s : State) (slot : Nat) (folded : Bool) : State :=
  { s with
    chains := s.chains.map fun c =>
      if c.slot = some slot && (c.foldable || !folded) && !c.stages.all Stage.ended then
        (if c.request.isSome || c.movingTo.isSome then { c with next := some folded }
         else { c with request := if c.folded = folded then none else some folded })
      else c
    launches := s.launches.map fun l => if l.prog == some slot then l.ask folded else l }

/-- Whether a switch that a record has asked for is under way, or a launch of its program has still chains to start that are
then switched: while it has, the chain does not run in the form last asked for (R266, R382).
(Log entries 110 DEDUCED, 138 DEDUCED.) -/
def State.switches (s : State) (r : Rec) : Bool :=
  (s.chains.any fun c => c.switching r.slot && !c.stages.all Stage.ended)
    || s.launches.any fun l => l.form.isSome && l.open_ && l.isOf r

/-- FORM_POLICY_CHOICE for the record in slot `a` (R267): under POLICY firmware asks for a form, `flag` for folded.
(Log entry 51 DESIGN CHOICE.) -/
def execFormPolicyChoice (s : State) : Answer :=
  hw s fun s =>
    let r := s.record s.arg.a
    if r.live && r.kind == 4 && !r.deleting && r.everConverged && bits (w32 r.launchBody 8) 16 2 == 2
        && (s.chains.any (fun c => c.slot == some r.slot) || s.launches.any (·.isOf r)) then
      some (s.requestForm r.slot s.arg.flag)
    else none

end Sys2Proof.Machine
end

