-- ==== Sys2Proof/Machine/Records.lean ====
section
/-!
DEFINITION. The records of the Harrow: their formats (R275 to R278, R295, R300, R330, R336, R344, R350), the capture of
an edit (R279 to R284), dependencies (R287), and the order of steps (R288 to R291).
-/

namespace Sys2Proof.Machine

/-! ### Formats -/

/-- Whether a number is a multiple of another. -/
def mult (n k : Nat) : Bool := n % k == 0

/-- Body of a CONTEXT record (Table C.12). -/
def contextBodyOk (b : List Byte) : Bool :=
  let d := fun n => w64 b n
  let conf := (w32 b 0x30).testBit 4
  mult (d 0) 2 && mult (d 8) 0x200000 && mult (d 0x10) 0x200000 && ((w32 b 0x30).testBit 3 || d 0x10 == 0)
  && mult (d 0x18) 0x10000 && decide (d 0x20 < 2 ^ 40) && d 0x20 != 0 && decide (1 ≤ w32 b 0x2C)
  && bits (w32 b 0x30) 24 8 == 0 && bits (w32 b 0x30) 5 3 == 0 && w32 b 0x3C == 0 && (conf || w32 b 0x38 == 0)

/-- Fields of a MAPPING body (Table C.13). -/
def mapVa (b : List Byte) : Nat := w64 b 0
def mapPages (b : List Byte) : Nat := w32 b 8
def mapCtl (b : List Byte) : Nat := w32 b 0xC
def mapSize (b : List Byte) : Nat := pageBytes (bits (mapCtl b) 0 2)
def mapPerm (b : List Byte) : BitVec 3 := BitVec.ofNat 3 (bits (mapCtl b) 4 3)
def mapBack (b : List Byte) : Nat := bits (mapCtl b) 8 2
def mapPolicy (b : List Byte) : Nat := bits (mapCtl b) 10 2
def mapPa (b : List Byte) : Nat := w64 b 0x10
def mapLink (b : List Byte) : Nat := w32 b 0x18
def mapLock (b : List Byte) : Nat := w64 b 0x20
def mapInit (b : List Byte) : Bool := (mapCtl b).testBit 15
def mapHostVis (b : List Byte) : Bool := (mapCtl b).testBit 14

/-- Body of a MAPPING record (Table C.13, R300). -/
def mappingBodyOk (b : List Byte) : Bool :=
  let c := mapCtl b
  let mig := mapPolicy b == 2
  let ext := decide (2 ≤ mapBack b)
  bits c 16 16 == 0 && bits c 12 1 == 0 && bits c 7 1 == 0 && bits c 2 2 == 0 && bits c 0 2 != 3 && mapPolicy b != 3
  && mult (mapVa b) (mapSize b) && decide (1 ≤ mapPages b) && decide (mapPages b ≤ 2 ^ 24)
  && decide (mapVa b + mapPages b * mapSize b ≤ 2 ^ 52)
  && !(mapPolicy b == 1 && (bits c 0 2 != 0 || mapBack b != 0))
  && !(mig && (bits c 0 2 != 0 || ext || mapPa b == 0))
  && !(mapHostVis b && mapBack b != 1) && (mig || (!mapInit b && mapLock b == 0)) && mult (mapLock b) 8
  && (ext || mig || mapPa b == 0) && (mapBack b == 3 || mapLink b == 0) && w32 b 0x1C == 0 && w64 b 0x28 == 0

/-- Bodies of QUEUE records (Tables C.5, C.24, C.25, C.33). -/
def msgBodyOk (b : List Byte) : Bool :=
  decide (1 ≤ w32 b 0) && decide (w32 b 0 ≤ 4096) && bits (w32 b 4) 3 29 == 0 && bits (w32 b 4) 0 2 != 3

def expertBodyOk (b : List Byte) : Bool :=
  decide (1 ≤ w32 b 4) && decide (w32 b 4 ≤ 16384) && mult (w64 b 8) 64 && decide (w32 b 0x10 ≤ 2 ^ 24)
  && (w32 b 0x10 != 0 || w64 b 8 == 0) && decide (1 ≤ w16 b 0x16) && decide (w16 b 0x16 ≤ 512)
  && decide (1 ≤ w16 b 0x14) && decide (w16 b 0x14 ≤ 4096) && decide (1 ≤ w32 b 0x18) && decide (w32 b 0x18 ≤ 64000)
  && bits (w32 b 0x1C) 4 28 == 0 && w32 b 0x24 == 0

def reorderBodyOk (b : List Byte) : Bool :=
  decide (1 ≤ w32 b 0) && decide (w32 b 0 ≤ 16384) && decide (1 ≤ w32 b 4) && decide (w32 b 4 ≤ 65536)
  && mult (w64 b 8) 8

/-- Bytes of a video line's payload: 4:2:2 10-bit is 5 bytes for 2 pixels, 4:4:4 12-bit is 9. -/
def linePayload (samp width : Nat) : Nat := if samp = 0 then (5 * width + 1) / 2 else (9 * width + 1) / 2

/-- The least payload of a stream's unit (R348, R350): a video line; an audio packet of 125 µs, six samples of 3 bytes a
channel; an ancillary packet's 8-byte header. -/
def unitPayload (ess samp width : Nat) : Nat :=
  if ess = 0 then linePayload samp width else if ess = 1 then 18 * width else 8

/-- Whether the device supports a stream's format (R348). (Log entry 151 DEDUCED.) -/
def streamHeld (b : List Byte) : Bool :=
  let width := bits (w64 b 8) 32 16
  match bits (w64 b 8) 24 2 with
  | 0 => decide (width ≤ 3840) && decide (bits (w64 b 8) 48 16 ≤ 2160)
  | 1 => decide (1 ≤ width) && decide (width ≤ 8)
  | _ => true

def streamBodyOk (b : List Byte) : Bool :=
  let d := w64 b 8
  let ess := bits d 24 2
  let samp := bits d 26 2
  bits d 28 4 == 0 && bits d 21 3 == 0 && ess != 3 && (if ess = 0 then decide (samp ≤ 1) else samp == 0)
  && decide (1 ≤ w32 b 0x14) && decide (w32 b 0x14 ≤ 100000) && mult (w64 b 0x18) 0x10000
  && bits (w64 b 0x20) 40 24 == 0 && decide (1 ≤ bits (w64 b 0x20) 32 8)
  && mult (w32 b 0x20) 64 && (ess != 2 || bits d 32 16 == 0) && decide (unitPayload ess samp (bits d 32 16) ≤ w32 b 0x20)
  && decide (1 ≤ w32 b 0x2C) && decide (w32 b 0x2C ≤ 4096) && mult (w32 b 0x28) 0x10000
  && decide (w32 b 0x20 * bits d 48 16 ≤ w32 b 0x28)

/-- Body of a PROGRAM record (Table C.4). -/
def programBodyOk (b : List Byte) : Bool :=
  bits (w32 b 8) 19 13 == 0 && bits (w32 b 8) 16 2 != 3 && decide (w32 b 0xC < 8) && w16 b 0x16 == 0
  && w16 b 0x10 != 0 && w16 b 0x12 != 0 && w16 b 0x14 != 0
  && (w32 b 0x18 == 0xFFFFFFFF || fmtOk (BitVec.ofNat 32 (w32 b 0x18))) && decide (w32 b 0x28 ≤ 65536) && w32 b 0x2C == 0

/-- Body of a LINK record (Table C.31). -/
def linkBodyOk (b : List Byte) : Bool :=
  w32 b 4 == 0 && bits (w64 b 8) 30 34 == 0 && bits (w64 b 8) 17 7 == 0 && bits (w64 b 8) 0 8 != 0
  && mult (w64 b 0x10) 0x10000 && mult (w64 b 0x18) 0x10000 && mult (w64 b 0x20) 8 && w64 b 0x28 == 0

/-- The body length of a kind, and whether a body passes its format; none for a kind that does not exist. -/
def bodyFormat (kind sub : Nat) (b : List Byte) : Option (Nat × Bool) :=
  match kind, sub with
  | 1, 0 => some (64, contextBodyOk b)
  | 2, 0 => some (48, mappingBodyOk b)
  | 3, 1 => some (16, msgBodyOk b)
  | 3, 2 => some (40, expertBodyOk b)
  | 3, 4 => some (16, reorderBodyOk b)
  | 3, 5 => some (48, streamBodyOk b)
  | 4, 0 => some (112, programBodyOk b)
  | 5, 0 => some (48, linkBodyOk b)
  | _, _ => none

/-- A body with the fields that an edit of a live record may change set to 0 (R278, R296, R301, R344). -/
def fixedPart (kind sub : Nat) (b : List Byte) : List Byte :=
  let zero := fun (l : List Byte) (o n : Nat) => l.mapIdx fun i x => if o ≤ i ∧ i < o + n then (0 : Byte) else x
  match kind, sub with
  | 1, _ => (zero (zero b 0x20 8) 0x31 1).mapIdx fun i x => if i = 0x30 then x &&& 0xF8 else x
  | 2, _ => b.mapIdx fun i x => if i = 0xC then x &&& 0x8F else x
  | 3, 1 => (zero b 0 4).mapIdx fun i x => if i = 4 then x &&& 0xFB else x
  | 3, _ => []
  | 4, _ => []
  | _, _ => b

/-! ### Live contexts and records -/

/-- Whether the last accepted version of a record has failed; a stale edit may have moved it to CONFLICT since. -/
def Rec.hasFailed (r : Rec) : Bool := r.phase == .failed || (r.phase == .conflict && !r.versionConverged)

/-- Whether the context that a CONTEXT record made has ended. -/
def State.ctxEnded (s : State) (r : Rec) : Bool :=
  match s.ctx? r.ctx with
  | some c => c.slot == r.slot && !c.live
  | none => false

/-- Whether a context is live (R276). -/
def State.ctxLive (s : State) (ctx : Nat) : Bool :=
  s.recs.any fun r => r.live && r.kind == 1 && r.ctx == ctx && !r.withdrawn && !r.hasFailed && !s.ctxEnded r

/-- Whether the context of a number is confidential, as its record asks. -/
def State.confidential (s : State) (ctx : Nat) : Bool :=
  s.recs.any fun r => r.live && r.kind == 1 && r.ctx == ctx && (w32 r.body 0x30).testBit 4

/-! ### Capture -/

/-- The header of a record as it stands in its slot (Table C.2). -/
structure Edit where
  slot : Nat
  kind : Nat
  sub : Nat
  ctx : Nat
  id : Nat
  base : Nat
  claim : Nat
  writer : Nat
  pause : Bool
  delete : Bool
  len : Nat
  crc : Nat
  body : List Byte
  /-- the reserved header fields are 0 -/
  clean : Bool
  deriving DecidableEq, Repr

/-- The 256 bytes of a slot. -/
def State.slotBytes (s : State) (i : Nat) : List Byte := cellsGetN s.dev (harrowBase + 0x100 * i) 256

/-- The edit in a slot (Table C.2). (Log entry 146 DESIGN CHOICE.) -/
def editOf (i : Nat) (b : List Byte) : Edit :=
  { slot := i, kind := bits (w64 b 0) 0 8, sub := bits (w64 b 0) 8 8, ctx := bits (w64 b 0) 16 6, id := w32 b 8,
    base := w64 b 0x18, claim := w32 b 0x20, writer := w32 b 0x28, pause := (w64 b 0x30).testBit 9,
    delete := (w64 b 0x30).testBit 8, len := bits (w64 b 0x30) 0 8, crc := w32 b 0x38,
    body := (b.drop 0x40).take (min (bits (w64 b 0x30) 0 8) 192),
    clean := bits (w64 b 0) 22 42 == 0 && w32 b 0xC == 0 && bits (w64 b 0x20) 32 31 == 0 && w32 b 0x2C == 0
      && bits (w64 b 0x30) 10 54 == 0 && w32 b 0x3C == 0 }

/-- BAD_FORMAT (Table C.6) of an edit against the live record of its slot.  A live LINK record is edited only to delete it,
or to connect it again once it has failed (R344, R347). (Log entries 69 DEDUCED, 147 DESIGN CHOICE.) -/
def State.badFormat (s : State) (e : Edit) (r : Rec) : Bool :=
  let same := r.live && r.kind == e.kind && r.sub == e.sub && r.ctx == e.ctx && r.id == e.id
  !e.clean || e.id == 0
  || (match bodyFormat e.kind e.sub e.body with
      | none => true
      | some f => f.1 != e.len || !f.2)
  || (same && !e.delete && (if e.kind = 5 then r.phase != .failed && !(r.phase == .conflict && !r.versionConverged)
      else fixedPart e.kind e.sub e.body != fixedPart e.kind e.sub r.body))
  || (e.kind == 2 && mapHostVis e.body && s.confidential e.ctx)
  || (e.kind == 5 && !(w64 e.body 8).testBit 16 && s.confidential e.ctx)

/-- The first check of Table C.6 that an edit fails; 0 when it passes them all. (Log entries 62 DEDUCED, 77 DEDUCED.) -/
def State.checkEdit (s : State) (e : Edit) (p : Publish) : Nat :=
  let r := s.record e.slot
  let first := firstCause
    [(e.writer != e.claim, 1),
     (s.anyPoison ⟨.dev, harrowBase + 0x100 * e.slot⟩ 256 || crc32c e.body != e.crc, 2),
     (s.badFormat e r, 3),
     (r.live && !(r.kind == e.kind && r.sub == e.sub && r.ctx == e.ctx && r.id == e.id), 4),
     (!p.host && (p.ctx != e.ctx || e.kind == 1 || e.kind == 5), 5),
     (s.recs.any (fun x => x.live && x.slot != e.slot && x.ctx == e.ctx && x.id == e.id), 6),
     (e.kind != 1 && !s.ctxLive e.ctx, 7),
     (decide (2 ^ 56 - 1 ≤ e.base), 8),
     (e.base != r.version, 9)]
  first.getD 0

/-- A notification of an edit refused (R284, R293). -/
def State.noteRefusal (s : State) (e : Edit) (code : Nat) : State :=
  let r := s.record e.slot
  s.notify { kind := if code = 9 then 3 else 4, fault := code, slot := e.slot, id := e.id, writer := e.writer,
             mark := r.mark, base := e.base, lastWriter := r.writer, cursor := r.cursor, seq := 0 }

/-- REFUSE_EDIT (R284). -/
def State.refuseEdit (s : State) (e : Edit) (code : Nat) : State :=
  let r := s.record e.slot
  let stale := code = 9
  let toConflict := stale ∧ (r.phase = .converged ∨ r.phase = .failed ∨ r.phase = .conflict)
  (s.setRecord { r with fault := code, conflicts := r.conflicts + (if stale then 1 else 0),
                        phase := if toConflict then .conflict else r.phase }).noteRefusal e code

/-- A queue with no entry and no pop pending (R359). (Log entry 71 DEDUCED.) -/
def State.queueDrained (s : State) (slot : Nat) : Bool :=
  match s.queue? slot with
  | none => true
  | some q => q.entries.isEmpty && q.tents.isEmpty
    && s.groups.all fun g => (g.acc ++ g.pendPops).all fun a => a.bind.handle != q.handle || a.returned
        || !(a.kind == .qget)

/-- Whether the event that a waiting step waits for has happened (R290). -/
def State.awaited (s : State) (r : Rec) : Bool :=
  match r.kind, r.goal with
  | 5, _ => r.presented.isSome
  | 3, _ =>
    if r.sub = 2 then (s.launches.all fun l => match l.origin with
        | .firing q _ => q != r.slot
        | _ => true) && (match s.queue? r.slot with
        | some q => q.entries.isEmpty
        | none => true)
    else s.queueDrained r.slot
  | 4, goal =>
    if goal = .delete ∨ r.undoing then
      s.teams.all fun t => t.state == .saved || t.state == .placed || (match s.launch? t.launch with
        | some l => !l.isOf r
        | none => true)
    else !s.switches r
  | _, _ => false

/-- Whether the wait of a record's step holds the Harrow's one step: a page's shoot-down, and a program's first deletion
step while its teams stop (R290). -/
def State.waitHolds (s : State) (r : Rec) : Bool := r.kind == 2 || (r.undoing && !s.awaited r)

/-- Whether a record's step in progress holds the Harrow's one step (R290): a page's shoot-down, a launch step that waits
for the grid's first team, and a program's first deletion step while its teams stop. (Log entry 59 DEDUCED.) -/
def State.holdsStep (s : State) (r : Rec) : Bool :=
  (r.waiting && s.waitHolds r)
    || (r.kind == 4 && r.starting && s.launches.any fun l => !l.started && l.origin == .program r.slot)

/-- Whether a step is in progress. -/
def State.harrowBusy (s : State) : Bool := s.recs.any s.holdsStep

/-- The body that a deletion acts on: the live record's, with the delete policy of the edit (R278, R335). -/
def deleteBody (r : Rec) (b : List Byte) : List Byte :=
  match r.kind, r.sub with
  | 3, 1 => r.body.mapIdx fun i x => if i = 4 then (x &&& 0xFB) ||| (b.getD 4 0 &&& 4) else x
  | 3, 2 => r.body.mapIdx fun i x => if i = 0x1C then (x &&& 0xF7) ||| (b.getD 0x1C 0 &&& 8) else x
  | _, _ => r.body

/-- An accepted edit (R282): a live record reconciles toward it; a free slot begins a new life (R161, R276, R291); a
DELETE of a free slot converges at once as a tombstone. (Log entry 160 DESIGN CHOICE.) -/
def State.acceptEdit (s : State) (e : Edit) : State :=
  let s := s.unitStore ⟨.dev, harrowBase + 0x100 * e.slot + 0x10⟩ (leBytes 8 (e.base + 1))
  let r := s.record e.slot
  let head : Rec := { r with version := e.base + 1, writer := e.writer, fault := 0, cursor := 0, phase := .pending,
                             versionConverged := false, pauseBit := e.pause, waiting := r.waiting && (r.kind == 2 || r.undoing),
                             withdrawn := e.kind == 1 && (e.delete || (r.withdrawn && !r.hasFailed)) }
  if r.live then
    let toggle := !e.delete && r.versionConverged && e.body == r.oldBody && e.pause != r.paused && r.kind != 5
    let goal := if e.delete then .delete else if toggle then (if e.pause then .pause else .unpause) else .create
    s.setRecord { head with goal := goal, deleting := e.delete, body := if e.delete then deleteBody r e.body else e.body }
  else if e.delete then
    (s.putRecord { head with kind := e.kind, sub := e.sub, ctx := e.ctx, id := e.id, deleted := true,
                             paused := false }).enter e.slot fun r => { r with phase := .converged, versionConverged := true }
  else
    let s : State := { s with ctxs := s.ctxs.filter fun c => c.live || c.slot != e.slot }
    s.setRecord { Rec.fresh e.slot with
      live := true, kind := e.kind, sub := e.sub, ctx := e.ctx, id := e.id, version := e.base + 1, writer := e.writer,
      phase := .pending, body := e.body, gen := (r.gen + 1) % 256, pauseBit := e.pause, conflicts := r.conflicts }

/-! ### Dependencies -/

/-- Whether a dependency counts as converged (R287). -/
def Rec.settled (r : Rec) : Bool :=
  !r.deleted && (r.phase == .converged || (r.phase == .conflict && r.versionConverged))

/-- A live MAPPING record's range. -/
def Rec.mapRange (r : Rec) : Nat × Nat := (mapVa r.body, mapVa r.body + mapPages r.body * mapSize r.body)

/-- Whether settled MAPPING records of a context cover [va, hi). -/
def State.covered (s : State) (ctx va hi : Nat) : Nat → Bool
  | 0 => false
  | n + 1 =>
    if hi ≤ va then true
    else match s.recs.find? (fun r => r.live && r.kind == 2 && r.ctx == ctx && decide (r.mapRange.1 ≤ va)
        && decide (va < r.mapRange.2)) with
      | some r => r.settled && s.covered ctx r.mapRange.2 hi n
      | none => false
def State.coversAll (s : State) (ctx : Nat) (l : List (Nat × Nat)) : Bool :=
  l.all fun x => s.covered ctx x.1 (x.1 + x.2) (s.recs.length + 1)

/-- The ranges that a record needs mapped (Table C.3): a queue's storage, a program's image and argument block. -/
def State.needs (s : State) (r : Rec) : List (Nat × Nat) :=
  let b := r.body
  match r.kind, r.sub with
  | 3, 1 => [(w64 b 8, w32 b 0 * 128 * 2 ^ bits (w32 b 4) 0 2)]
  | 3, 2 => [(w64 b 8, 16 * w32 b 0x10)]
  | 3, 4 => [(w64 b 8, 8 * w32 b 4)]
  | 3, 5 => [(w64 b 0x18, w32 b 0x28 * bits (w64 b 0x20) 32 8)]
  | 4, _ =>
    [(w64 b 0, match s.imgHeader r.ctx (w64 b 0) with
      | .ok i => i.extent
      | .error _ => 64),
     (w64 b 0x20, if w64 b 0x20 = 0 then 0 else w32 b 0x28)]
  | _, _ => []

/-- The queue handles that a PROGRAM record names. -/
def programHandles (b : List Byte) : List Nat := ((List.range 16).map fun k => w32 b (0x30 + 4 * k)).filter (· ≠ 0)

/-- The QUEUE record that a handle names (R161). -/
def State.handleRec (s : State) (h : Nat) : Option Rec :=
  s.recs.find? fun r => r.live && r.kind == 3 && r.slot == h % 2 ^ 20 && r.sub == h / 2 ^ 28 && r.gen == h / 2 ^ 20 % 256

/-- Whether every dependency of a record counts as converged (Table C.3, R287). -/
def State.depsMet (s : State) (r : Rec) : Bool :=
  r.kind == 1 ||
  ((s.recs.any fun c => c.live && c.kind == 1 && c.ctx == r.ctx && c.settled)
   && s.coversAll r.ctx ((s.needs r).filter fun x => x.2 ≠ 0)
   && (r.kind != 4 || (programHandles r.body).all fun h => match s.handleRec h with
        | some q => q.settled
        | none => false))

/-- Whether a live record depends on another (R287). -/
def State.dependsOn (s : State) (x r : Rec) : Bool :=
  x.live && x.slot != r.slot && x.ctx == r.ctx &&
  (match r.kind with
   | 1 => x.kind != 1
   | 2 => (s.needs x).any fun n => n.2 != 0 && decide (n.1 < r.mapRange.2) && decide (r.mapRange.1 < n.1 + n.2)
   | 3 => x.kind == 4 && (programHandles x.body).any fun h => match s.handleRec h with
       | some q => q.slot == r.slot
       | none => false
   | _ => false)

/-- Whether a record may take its steps. -/
def State.ready (s : State) (r : Rec) : Bool :=
  if r.goal = .delete then !s.recs.any fun x => s.dependsOn x r else s.depsMet r

/-! ### Whose turn it is -/

/-- Dependency class (Table C.3). -/
def Rec.cls (r : Rec) : Nat := if r.kind = 1 then 0 else if r.kind = 2 then 1 else if r.kind = 4 then 3 else 2

/-- Whether record x is taken before record y (R289). (Log entry 145 DESIGN CHOICE.) -/
def takenBefore (x y : Rec) : Bool :=
  let dx := x.goal == .delete
  let dy := y.goal == .delete
  if dx != dy then dy
  else if x.cls != y.cls then (if dx then decide (y.cls < x.cls) else decide (x.cls < y.cls))
  else if x.id != y.id then decide (x.id < y.id)
  else decide (x.slot < y.slot)

/-- Whether a record has a step to take. -/
def State.candidate (s : State) (r : Rec) : Bool :=
  (r.phase == .applying || ((r.phase == .pending || r.phase == .blocked) && s.ready r))
    && (!r.waiting || s.awaited r)

/-- The record whose turn it is (R289); none while a step is in progress, and first the one whose step in progress can now
complete. -/
def State.turn (s : State) : Option Rec :=
  if s.harrowBusy then none
  else match s.recs.find? (fun r => r.waiting && r.undoing) with
  | some r => some r
  | none => match s.recs.filter s.candidate with
    | [] => none
    | r :: rest => some (rest.foldl (fun m x => if takenBefore x m then x else m) r)

/-- PENDING records that wait for a dependency show BLOCKED (R286). -/
def State.showBlocked (s : State) : State :=
  s.each (s.recs.filter fun r => r.phase == .pending && !s.ready r) fun s r => s.setRecord { r with phase := .blocked }

/-! ### Ends of steps -/

/-- A record's queue, paused or not (R288): by itself or by its context. (Log entry 94 DEDUCED.) -/
def State.pauseQueue (s : State) (slot : Nat) : State :=
  match s.queue? slot with
  | none => s
  | some q =>
    let ctx := match s.ctx? q.ctx with
      | some c => c.paused
      | none => false
    s.putQueue { q with paused := (s.record slot).paused || ctx }

/-- The effect of a PAUSE bit that comes into force (R288). The running teams that it pauses are pre-empted from the
end of the clk on, as `State.wantsStop` has it. (Log entry 148 DEDUCED.) -/
def State.setPause (s : State) (slot : Nat) (on : Bool) : State :=
  let s := s.putRecord { s.record slot with paused := on }
  let r := s.record slot
  match r.kind with
  | 1 => (match s.ctx? r.ctx with
    | none => s
    | some c =>
      let s := s.putCtx { c with paused := on }
      s.each (s.queues.filter fun q => q.ctx == r.ctx) fun s q => s.pauseQueue q.slot)
  | 3 => s.pauseQueue slot
  | _ => s

/-- RESTART launches that a page of their image kept back are made once it no longer moves (R288, R311): RESTART has no
effect on an expert program (R331). (Log entry 158 DESIGN CHOICE.) -/
def State.launchHeld (s : State) : State :=
  s.each (s.recs.filter fun r => r.live && r.kind == 4 && r.unlaunched && !r.deleting
      && !s.imageMoves r.ctx (w64 r.launchBody 0)) fun s r =>
    let s := s.putRecord { r with unlaunched := false }
    if s.isExpertProgram r then s
    else match s.launchGrid r r.launchBody with
      | .ok s => s
      | .error _ => s

/-- Whether a record maps host pages. -/
def Rec.hostMapped (r : Rec) : Bool := r.kind == 2 && (mapBack r.body == 2 || mapPolicy r.body == 2)

/-- The host-absence clock stops once every host MAPPING record of the context has converged again (R355). -/
def State.stopAbsence (s : State) (ctx : Nat) : State :=
  if s.recs.all fun r => !(r.live && r.ctx == ctx && r.hostMapped) || r.settled then
    (match s.ctx? ctx with
     | some c => s.putCtx { c with absentSince := none }
     | none => s)
  else s

/-- A record converges at its last step (R286): its PAUSE bit comes into force. (Log entry 150 DESIGN CHOICE.) -/
def State.converge (s : State) (slot cursor : Nat) : State :=
  let r := s.record slot
  let s := if r.paused = r.pauseBit then s else s.setPause slot r.pauseBit
  let s := s.enter slot fun r => { r with phase := .converged, cursor := cursor, waiting := false, starting := false,
                                          everConverged := true, versionConverged := true, oldBody := r.body }
  if r.kind = 2 then s.stopAbsence r.ctx else s

/-- A converged DELETE edit: a tombstone (R291). -/
def State.entomb (s : State) (slot cursor : Nat) : State :=
  let old := s.record slot
  let s := s.enter slot fun r => { r with phase := .converged, cursor := cursor, waiting := false, starting := false,
                                          versionConverged := true, live := false, deleted := true, deleting := false,
                                          paused := false, handle := 0, made := 0 }
  if old.kind = 2 then s.stopAbsence old.ctx else s

/-- A step done out of n: CURSOR rises, and the last one makes the record converge. -/
def State.stepDone (s : State) (slot n : Nat) : State :=
  let r := s.record slot
  if r.cursor + 1 = n then (if r.goal = .delete then s.entomb slot n else s.converge slot n)
  else s.setRecord { r with phase := .applying, cursor := r.cursor + 1, waiting := false, starting := false }

/-- A launch step waits for the first team of its grid, and holds the Harrow's one step (R288, R290). -/
def State.stepStarts (s : State) (slot : Nat) : State :=
  s.setRecord { s.record slot with phase := .applying, starting := true }

/-- A step that waits on an event outside the Harrow has begun (R290). -/
def State.stepWaits (s : State) (slot : Nat) : State :=
  s.setRecord { s.record slot with phase := .applying, waiting := true, undoing := false }

/-- A step of the Harrow for the record of slot `a`, when it is that record's turn and the record's next step is this
one. -/
def harrowStep (s : State) (kind : Nat) (fits_ : Rec → Bool) (f : State → Rec → State) : Answer :=
  hw s fun s =>
    match s.turn with
    | none => none
    | some r =>
      if r.slot = s.arg.a ∧ r.kind = kind ∧ fits_ r = true then
        some (f (if r.phase = .applying then s else s.setRecord { r with phase := .applying })
          { r with phase := .applying }).showBlocked
      else none

/-- CAPTURE of the oldest publish (R282): accepted or refused, and the claim word returns to 0.
(Log entry 77 DEDUCED.) -/
def execCapture (s : State) : Answer :=
  hw s fun s =>
    match s.publishes with
    | [] => none
    | p :: rest =>
      let s : State := { s with publishes := rest }
      let e := editOf p.slot (s.slotBytes p.slot)
      let code := s.checkEdit e p
      let s := if code = 0 then s.acceptEdit e else s.refuseEdit e code
      some (s.unitStore ⟨.dev, harrowBase + 0x100 * p.slot + 0x20⟩ (leBytes 8 0)).showBlocked

end Sys2Proof.Machine
end

