-- ==== Sys2Proof/Machine/StepsHarrow.lean ====
section
/-!
DEFINITION. The Harrow's steps (Table C.3): contexts (R296 to R299), mappings (R301, R309), shoot-downs (R312), queues
(R161, R330, R335, R359), links (R344) and programs (R381, R399, R402, R404), and the undoing of each (R288).
-/

namespace Sys2Proof.Machine

/-! ### CONTEXT -/

/-- Bytes of a block of private memory, and blocks of a private pool (R299). -/
def privBytes (b : List Byte) : Nat := (bits (w32 b 0x30) 16 8 + 1) * 4096
def State.privCount (s : State) (b : List Byte) : Nat :=
  256 * ((List.range 160).filter fun c => s.enabled c && decide (c / 40 < s.dieCount) && (w64 b 0x20).testBit (c / 4)).length

/-- Bytes of near and of far memory that a context takes (R296, R321). -/
def poolBytes (b : List Byte) : Nat := 0x10000 * w32 b 0x28
def frBytes : Nat := 0x1400000
def launchBytes : Nat := 0x200000
def saveAreaBytes (b : List Byte) : Nat := 0x100000 * w32 b 0x2C

/-- Bytes of near (0) or far (1) memory that no frame takes. (Log entry 118 DESIGN CHOICE.) -/
def State.freeBytes (s : State) (far : Nat) : Nat :=
  let inFar := fun (f : Nat × Nat) => decide (farBase ≤ f.1)
  let used := sumNat ((s.frames.filter fun f => inFar f == (far == 1)).map Prod.snd)
  (if far = 1 then s.dieCount * farShare else s.dieCount * nearSize) - used

/-- Whether a cluster mask names only clusters that the device has (R3). -/
def State.hasClusters (s : State) (mask : Nat) : Bool :=
  (List.range 40).all fun c => !mask.testBit c || (List.range 4).any fun k =>
    s.enabled (4 * c + k) && decide (4 * c / 40 < s.dieCount)

/-- A context as admission makes it. -/
def newCtx (r : Rec) : Ctx :=
  let b := r.body
  { ctx := r.ctx, slot := r.slot, live := true, handler := w64 b 0, frarea := w64 b 8, winva := w64 b 0x10,
    portva := w64 b 0x18, clmask := w64 b 0x20, priv := bits (w32 b 0x30) 16 8, leaseq := bits (w32 b 0x30) 8 8,
    conf := (w32 b 0x30).testBit 4, edit := (w32 b 0x30).testBit 3, pceil := bits (w32 b 0x30) 0 3,
    fwait := w16 b 0x36, hostabs := w16 b 0x34, tdi := w16 b 0x3A, ide := w16 b 0x38, pool := 0, poolBase := 0,
    saveLeft := 0, areas := [], blocks := [], blockCount := 0, privFrame := 0, keys := [], ftReqs := [], ftStat := [],
    refusedKicks := [], absentSince := none, endCode := 0, endPc := 0, paused := false, cores := [] }

/-- CONTEXT_ADMIT (R296 step 1); an edit's CLMASK is checked as that of a new context (R2, R3). -/
def execContextAdmit (s : State) : Answer :=
  harrowStep s 1 (fun r => r.goal == .create && r.cursor == 0) fun s r =>
    let b := r.body
    let mine := match s.ctx? r.ctx with
      | some c => c.slot == r.slot && c.live
      | none => false
    if s.hasClusters (w64 b 0x20) = false then s.failRecord r.slot eCapacity
    else if mine then s.stepDone r.slot 3
    else if (s.ctx? r.ctx).isSome ∨ s.ctxLimit ≤ r.ctx
        ∨ s.freeBytes 0 < poolBytes b + frBytes + launchBytes
        ∨ s.freeBytes 1 < saveAreaBytes b + s.privCount b * privBytes b then s.failRecord r.slot eCapacity
    else (s.putCtx (newCtx r)).stepDone r.slot 3

/-- A frame for an area of the context's own, which carries no owner tag (R363). (Log entry 67 DEDUCED.) -/
def State.allocArea (s : State) (far n : Nat) : Option (Nat × State) :=
  if n = 0 then some (0, s)
  else match s.allocFrame far n 0 with
    | none => none
    | some x => some (x.1, { x.2 with tags := s.tags })

/-- A page of one of the context's own areas. -/
def areaPage (ctx va size frame : Nat) (sp : Space) (perm : BitVec 3) (sup : Bool) (kind : PageKind) : Page :=
  { ctx := ctx, va := va, size := size, sp := sp, frame := frame, perm := perm, sup := sup, kind := kind, slot := 0,
    rasPoison := false, hostVis := false, revoked := false, moving := false, movedAt := none }

/-- The pages of a context's own areas (R296, R297, R299, R306, R321).  The window carries the atomic right too, which
the claim of R280 takes. (Log entry 64 DEDUCED.) -/
def Ctx.areaPages (c : Ctx) (fr la pv : Nat) : List Page :=
  [areaPage c.ctx c.frarea frBytes fr .dev 3 true .frArea,
   areaPage c.ctx (c.frarea + frBytes) 0x100000 la .dev 3 false .launchArea,
   areaPage c.ctx (c.frarea + frBytes + 0x100000) 0x100000 0 (.kick c.ctx) 3 false .kickPage]
  ++ (if c.blockCount = 0 then []
      else [areaPage c.ctx (c.frarea + 0x2000000) (c.blockCount * ((c.priv + 1) * 4096)) pv .dev 7 false .privPool])
  ++ (if c.portva = 0 then [] else [areaPage c.ctx c.portva 0x10000 0 (.port c.ctx) 3 true .firstTouch])
  ++ (if c.edit then
        [areaPage c.ctx c.winva 0x400000 harrowBase .dev 7 false .window,
         areaPage c.ctx (c.winva + 0x400000) 0x400000 (harrowBase + 0x400000) .dev 1 false .standing]
      else [])

/-- CONTEXT_ALLOCATE (R296 step 2). -/
def execContextAllocate (s : State) : Answer :=
  harrowStep s 1 (fun r => r.goal == .create && r.cursor == 1) fun s r =>
    match s.ctx? r.ctx with
    | none => s.failRecord r.slot eCapacity
    | some c =>
      if c.areas ≠ [] then s.stepDone r.slot 3
      else
        let b := r.body
        let blocks := s.privCount b
        let pv := blocks * privBytes b
        match s.allocArea 0 (poolBytes b) with
        | none => s.failRecord r.slot eCapacity
        | some (pool, s1) => match s1.allocArea 0 frBytes with
          | none => s.failRecord r.slot eCapacity
          | some (fr, s2) => match s2.allocArea 0 launchBytes with
            | none => s.failRecord r.slot eCapacity
            | some (la, s3) => match s3.allocArea 1 (saveAreaBytes b) with
              | none => s.failRecord r.slot eCapacity
              | some (sv, s4) => match s4.allocArea 1 pv with
                | none => s.failRecord r.slot eCapacity
                | some (pf, s5) =>
                  let c : Ctx := { c with
                    pool := w32 b 0x28, poolBase := pool, saveLeft := saveAreaBytes b, blockCount := blocks, privFrame := pf,
                    areas := [(pool, poolBytes b), (fr, frBytes), (la, launchBytes), (sv, saveAreaBytes b), (pf, pv)] }
                  let s : State := { s5.putCtx c with pages := s5.pages ++ c.areaPages fr la pf }
                  s.stepDone r.slot 3

/-- CONTEXT_BIND (R296 step 3, R298).  CLMASK, PCEIL and LEASEQ of an edit come into force here.
(Log entry 68 DEDUCED.) -/
def execContextBind (s : State) : Answer :=
  harrowStep s 1 (fun r => r.goal == .create && r.cursor == 2) fun s r =>
    match s.ctx? r.ctx with
    | none => s.failRecord r.slot eApplyFault
    | some c =>
      let t := s.tdi c.tdi
      if c.conf ∧ (t.state ≠ 3 ∨ t.ide ≠ c.ide) then s.failRecord r.slot eApplyFault
      else
        let n := newCtx r
        (s.putCtx { c with clmask := n.clmask, pceil := n.pceil, leaseq := n.leaseq }).stepDone r.slot 3

/-- CONTEXT_DELETE (R319, R320): the first deletion step ends the context, and the further two end its allocation and
its admission. -/
def execContextDelete (s : State) : Answer :=
  harrowStep s 1 (fun r => r.goal == .delete) fun s r =>
    let s := if r.cursor = 0 then
        (match s.ctx? r.ctx with
         | some c => if c.slot = r.slot then s.endContext r.ctx 0x25 0 else s
         | none => s)
      else s
    s.stepDone r.slot 3

/-! ### Shoot-downs -/

/-- A group in a check phase whose lanes on a page are to be translated afresh (R313): the lanes that have not been
performed. -/
def State.shootLanes (s : State) (p : Page) (g : Group) : Group :=
  match g.checked with
  | none => g
  | some a =>
    let open_ := fun (l : LaneReq) =>
      if a.kind = .st then s.stores.any fun x => x.acc == a.id && x.lane == l.lane && x.reach == .none else !l.finished
    let hit := fun (l : LaneReq) => decide (l.va < p.va + p.size) && decide (p.va < l.va + max 1 a.width) && open_ l
    g.putAcc { a with lanes := a.lanes.map fun l => if hit l then { l with stale := true } else l }

/-- A shoot-down begins (R312): the context's translation registers whose run holds the page go STALE; a FILLING one
fills anew when its fill ends, and lanes in their check phase translate afresh (R313). -/
def State.shootDown (s : State) (release : Bool) (p : Page) : State :=
  let (i, s) := s.newId
  let hit := fun (b : TransReg) => b.state == .valid && decide (b.base.toNat < p.va + p.size)
    && decide (p.va < b.base.toNat + max 1 b.limit.toNat)
  let stale := fun (b : TransReg) => if hit b then ({ b with state := .stale } : TransReg) else b
  { s with
    groups := s.groups.map fun g => if g.ctx = p.ctx then s.shootLanes p { g with b := g.b.map stale } else g
    shoots := s.shoots ++ [{ sd := i, ctx := p.ctx, va := p.va, size := p.size, sp := p.sp, frame := p.frame, upTo := i,
                             release := release }] }

/-- A MAPPING step that completes with the shoot-down of its page (R301). -/
def State.shootStep (s : State) (slot : Nat) (release : Bool) (p : Page) : State :=
  let t := (s.shootDown release p).stepWaits slot
  t.putRecord { t.record slot with shoot := some s.nextId }

/-- Whether an address of a space lies in a shoot-down's frame. -/
def Shoot.has (x : Shoot) (p : PAddr) : Bool := p.sp == x.sp && decide (x.frame ≤ p.a) && decide (p.a < x.frame + x.size)

/-- Whether every access that took the old translation has been performed (R312): at DEVICE, and at SYSTEM for a host
or peer page. A lane to be translated afresh took none (R313), and a copy job's reads and writes each translate and
are performed in one step (R235). (Log entry 72 DEDUCED.) -/
def State.shootAcked (s : State) (x : Shoot) : Bool :=
  s.groups.all (fun g => g.ctx != x.ctx || g.acc.all fun a => !(decide (a.id < x.upTo)
      && a.lanes.any fun l => !l.finished && !l.stale && x.has l.loc))
  && s.stores.all (fun y => !(y.ctx == x.ctx && decide (y.sid < x.upTo) && !s.storeStale y && (match y.tgt with
      | .mem p => x.has p && decide (y.reach.num < 3)
      | .plane .. => false)))

/-! ### MAPPING -/

/-- Page p of a MAPPING record. -/
def Rec.pageVa (r : Rec) (p : Nat) : Nat := mapVa r.body + p * mapSize r.body
def State.recPage (s : State) (r : Rec) (p : Nat) : Option Page :=
  s.pages.find? fun x => x.ctx == r.ctx && x.kind == .mapping && x.slot == r.slot && x.va == r.pageVa p

/-- Whether a page meets a page of another live MAPPING record of the context, or the context's own areas (R299,
R301). (Log entries 63 DEDUCED, 162 DESIGN CHOICE.) -/
def State.overlaps (s : State) (r : Rec) (va size : Nat) : Bool :=
  s.recs.any (fun x => x.live && x.kind == 2 && x.ctx == r.ctx && x.slot != r.slot && decide (x.mapRange.1 < va + size)
    && decide (va < x.mapRange.2))
  || s.pages.any (fun p => p.ctx == r.ctx && p.kind != .mapping && decide (p.va < va + size) && decide (va < p.va + p.size))
  || (match s.ctx? r.ctx with
      | some c => decide (c.frarea < va + size)
          && decide (va < c.frarea + 0x2000000 + c.blockCount * ((c.priv + 1) * 4096))
      | none => false)

/-- The lock word of page p of a MIGRATE record: its location, and its number (R309). -/
def Rec.lockVa (r : Rec) (p : Nat) : Nat := mapLock r.body + 8 * p

/-- A translation installed for page p of a record; with the owner tag of its frame (R301, R363). -/
def Rec.page (r : Rec) (p : Nat) (sp : Space) (frame : Nat) : Page :=
  { ctx := r.ctx, va := r.pageVa p, size := mapSize r.body, sp := sp, frame := frame, perm := mapPerm r.body, sup := false,
    kind := .mapping, slot := r.slot, rasPoison := (mapCtl r.body).testBit 13, hostVis := mapHostVis r.body,
    revoked := false, moving := false, movedAt := none }

/-- What a page's application settles: the faults posted on it (R307) and the record's count. -/
def State.pageApplied (s : State) (r : Rec) (p : Nat) : State :=
  let va := r.pageVa p
  let n := mapSize r.body
  let s : State := { s with faults := s.faults.filter fun f =>
    !(f.ctx == r.ctx && decide (va ≤ f.va) && decide (f.va < va + n)) }
  let s := s.putRecord { s.record r.slot with made := max r.made (p + 1) }
  s.stepDone r.slot (mapPages r.body)

/-- MAPPING_PAGE_APPLY (R301): the page at the cursor.  One that is in place keeps its frame and gains added rights; a
revoked one is mapped again (R354). (Log entries 63 DEDUCED, 75 DEDUCED.) -/
def execMappingPageApply (s : State) : Answer :=
  harrowStep s 2 (fun r => r.goal == .create && !r.waiting) fun s r =>
    let p := r.cursor
    let b := r.body
    let va := r.pageVa p
    match s.recPage r p with
      | some g =>
        if g.perm &&& ~~~(mapPerm b) ≠ 0 then s
        else
          let s : State := { s with pages := s.pages.map fun x => if x = g then { x with perm := mapPerm b, revoked := false } else x }
          s.pageApplied r p
      | none =>
        if s.overlaps r va (mapSize b) then s.failRecord r.slot 0x16
        else if mapPolicy b = 1 then s.pageApplied r p
        else if mapBack b = 3 then
          (match s.recs.find? (fun l => l.live && l.kind == 5 && l.ctx == r.ctx && l.id == mapLink b) with
           | none => s.failRecord r.slot eApplyFault
           | some l => ({ s with pages := s.pages ++ [r.page p (.peer l.slot) (mapPa b + p * mapSize b)] } : State).pageApplied r p)
        else
          let lock := mapPolicy b = 2
          let s0 := s
          let put := fun (s : State) (sp : Space) (frame : Nat) =>
            let s : State := { s with pages := s.pages ++ [r.page p sp frame] }
            if lock = true ∧ s.movingIn r.ctx (r.lockVa p) 8 then s0 else
            let x := if lock then s.writeVa r.ctx (r.lockVa p) (leBytes 8 (if mapInit b then 2 ^ 62 else 0)) else (s, 0)
            if x.2 = 0 then x.1.pageApplied r p else s.failRecord r.slot eApplyFault
          if mapBack b = 2 ∨ (lock ∧ mapInit b = true) then put s .host (mapPa b + p * mapSize b)
          else match s.allocFrame (mapBack b) (mapSize b) r.ctx with
            | none => s.failRecord r.slot eCapacity
            | some x => put x.2 .dev x.1

/-- MAPPING_PERM_NARROW (R301): a right is removed from the page at the cursor, and the step completes with its
shoot-down.  A page in a move is waited for. -/
def execMappingPermNarrow (s : State) : Answer :=
  harrowStep s 2 (fun r => r.goal == .create && !r.waiting) fun s r =>
    match s.recPage r r.cursor with
    | none => s
    | some g =>
      if g.perm &&& ~~~(mapPerm r.body) = 0 ∨ g.moving = true then s
      else
        let s : State := { s with pages := s.pages.map fun x => if x = g then { x with perm := x.perm &&& mapPerm r.body } else x }
        s.shootStep r.slot false g

/-- A released page's frame goes back: to its context's pool for a first-touch page, else to free memory, zeroed
(R298, R301, R363). -/
def State.releaseFrame (s : State) (x : Shoot) : State :=
  match x.sp with
  | .dev =>
    let pool := match s.ctx? x.ctx with
      | some c => decide (c.poolBase ≤ x.frame) && decide (x.frame < c.poolBase + 0x10000 * c.pool)
      | none => false
    if pool then { s.zeroFrame x.frame x.size with tags := s.tags.filter fun t => t.1 ≠ x.frame } else s.freeFrame x.frame x.size
  | _ => s

/-- One more than the last page of a record that is still applied, with or without a frame, or that a first touch has
mapped (R301, R306). -/
def State.madeTop (s : State) (r : Rec) : Nat :=
  (s.pages.filter fun x => x.ctx == r.ctx && x.kind == .mapping && x.slot == r.slot).foldl
    (fun n x => max n ((x.va - mapVa r.body) / mapSize r.body + 1)) r.made

/-- Page n taken back in a deletion step. -/
def State.unmade (s : State) (r : Rec) (n : Nat) : State :=
  let r' := s.record r.slot
  let s := s.putRecord { r' with made := min r.made n }
  if s.madeTop (s.record r.slot) = 0 then s.entomb r.slot (r'.cursor + 1)
  else s.setRecord { s.record r.slot with phase := .applying, cursor := r'.cursor + 1, waiting := false }

/-- MAPPING_PAGE_RELEASE (R301): the last page still applied is released, and the step completes with its shoot-down.  A
page without a frame needs none. -/
def execMappingPageRelease (s : State) : Answer :=
  harrowStep s 2 (fun r => r.goal == .delete && !r.waiting) fun s r =>
    let n := s.madeTop r
    if n = 0 then s.entomb r.slot r.cursor
    else match s.recPage r (n - 1) with
      | none => s.unmade r (n - 1)
      | some g =>
        let s : State := { s with pages := s.pages.filter (fun x => x ≠ g), 
                                  moves := s.moves.filter (fun m => !(m.ctx == g.ctx && m.va == g.va)),
                                  holds := s.holds.filter (fun h => !(h.ctx == g.ctx && h.va == g.va)),
                                  migReqs := s.migReqs.filter (fun m => !(m.ctx == g.ctx && m.va == g.va)) }
        s.shootStep r.slot true g

/-- SHOOTDOWN_ACK of shoot-down `a` (R312): every core has acknowledged.  The frame of a released page goes back, and the
step that waits for this shoot-down completes: a page whose rights an edit narrows has its new rights, and is mapped again
where it was revoked (R354). -/
def execShootdownAck (s : State) : Answer :=
  hw s fun s =>
    match s.shoots.find? (fun x => x.sd == s.arg.a) with
    | none => none
    | some x =>
      if s.shootAcked x = false then none
      else
        let s : State := { s with shoots := s.shoots.filter fun y => y.sd ≠ x.sd }
        let s := if x.release then s.releaseFrame x else s
        match s.recs.find? (fun r => r.kind == 2 && r.waiting && r.shoot == some x.sd) with
        | none => some s
        | some r =>
          let n := (x.va - mapVa r.body) / mapSize r.body
          if x.release then
            (if r.phase = .applying ∧ r.goal = .delete then some (s.unmade r n).showBlocked
             else some (s.putRecord { r with waiting := false, made := min r.made n }).showBlocked)
          else
            let mapped := fun y : Page =>
              if s.recPage r n = some y then { y with perm := mapPerm r.body, revoked := false } else y
            let s : State := { s with pages := s.pages.map mapped }
            if r.phase = .applying ∧ r.goal = .create then some (s.stepDone r.slot (mapPages r.body)).showBlocked
            else some (s.putRecord { r with waiting := false }).showBlocked

/-! ### QUEUE -/

/-- Whether a port is one of the device's, and what mode the records that name it give it (R343): Ethernet for a STREAM
record, transport for a LINK record. -/
def State.portFree (s : State) (port : Nat) (ethernet : Bool) (but : Nat) : Bool :=
  decide (port < s.portCount) &&
  s.recs.all fun r => !(r.live && r.slot != but && r.made != 0 &&
    (if ethernet then r.kind == 5 && (bits (w64 r.body 8) 0 8).testBit port
     else r.kind == 3 && r.sub == 5 && bits (w64 r.body 8) 16 3 == port))

/-- Entries of queue SRAM that an EXPERT record holds: those of its queue, and those that an admission has reserved. -/
def State.expertCap (s : State) (r : Rec) : Nat :=
  max (match s.queue? r.slot with
    | some q => q.cap
    | none => 0) (if r.goal = .create ∧ (1 ≤ r.cursor ∨ r.phase = .converged) then w32 r.body 4 else 0)

/-- Live EXPERT records that admission has given a die, and the entries they take of its queue SRAM (R330). -/
def State.expertLoad (s : State) (die but : Nat) : Nat × Nat :=
  let rs := s.recs.filter fun r => r.live && r.kind == 3 && r.sub == 2 && r.die == some die && r.slot != but
  (rs.length, sumNat (rs.map s.expertCap))

/-- Whether a die can hold an EXPERT record's queue beside the others (R330, R1). (Log entry 66 DESIGN CHOICE.) -/
def State.expertFits (s : State) (r : Rec) (d : Nat) : Bool :=
  let x := s.expertLoad d r.slot
  decide (x.1 < 512) && decide (x.2 + w32 r.body 4 ≤ 65536)

/-- The die that firmware assigns to an EXPERT queue: the one it has, or the lowest that can hold it (R330).
(Log entry 66 DESIGN CHOICE.) -/
def State.expertDie (s : State) (r : Rec) : Option Nat :=
  match r.die with
  | some d => if s.expertFits r d then some d else none
  | none => (List.range s.dieCount).find? (s.expertFits r)

/-- QUEUE_ADMIT (R276, R330, R343, R348): an EXPERT queue's die and its room there are reserved.
(Log entry 151 DEDUCED.) -/
def execQueueAdmit (s : State) : Answer :=
  harrowStep s 3 (fun r => r.goal == .create && r.cursor == 0) fun s r =>
    let port := bits (w64 r.body 8) 16 3
    let die := if r.sub = 2 then s.expertDie r else none
    let ok := match r.sub with
      | 2 => die.isSome
      | 5 => s.portFree port true r.slot && streamHeld r.body
      | _ => true
    if ok = false then s.failRecord r.slot eCapacity
    else
      let s := if r.sub = 5 then s.putPort { s.port port with ethernet := true } else s
      (s.putRecord { s.record r.slot with made := max r.made 1, die := die }).stepDone r.slot 3

/-- Queue kind of a sub-kind (R161). -/
def subKind (sub : Nat) : QKind := if sub = 1 then .msg else if sub = 2 then .expert else if sub = 4 then .reorder else .stream

/-- A queue with the fields of a record's body (Tables C.5, C.24, C.25, C.33). -/
def Queue.withBody (q : Queue) (sub : Nat) (b : List Byte) : Queue :=
  match sub with
  | 1 => { q with cap := w32 b 0, drop := (w32 b 4).testBit 2, n2 := BitVec.ofNat 2 (bits (w32 b 4) 0 2) }
  | 2 => { q with prog := w32 b 0, cap := w32 b 4, spill := w32 b 0x10, batch := w16 b 0x16, fill := w16 b 0x14,
                  ageT := w32 b 0x18, ring := w64 b 8, drop := (w32 b 0x1C).testBit 3, pclass := bits (w32 b 0x1C) 0 3,
                  rdom := BitVec.ofNat 32 (w32 b 0x20), n2 := 2 }
  | 4 => { q with cap := w32 b 0, nseq := w32 b 4, seqVa := w64 b 8, n2 := 2 }
  | _ =>
    let d := w64 b 8
    { q with source := w32 b 4, group := w32 b 0, height := bits d 48 16, width := bits d 32 16, samp := bits d 26 2,
             ess := bits d 24 2, sub := bits d 19 2, port := bits d 16 3, udp := bits d 0 16, deadline := w32 b 0x14,
             slice := w32 b 0x10, bufVa := w64 b 0x18, nbuf := bits (w64 b 0x20) 32 8, stride := w32 b 0x20,
             cap := w32 b 0x2C, slotSz := w32 b 0x28, n2 := 0 }

/-- A queue before it is opened. -/
def newQueue (r : Rec) (handle : Word) (die : Nat) : Queue :=
  ({ slot := r.slot, ctx := r.ctx, kind := subKind r.sub, handle := handle, isOpen := false, closed := false, paused := false,
     n2 := 0, cap := 0, drop := false, die := die, entries := [], tents := [], pops := [], prog := 0, spill := 0, batch := 0,
     fill := 0, ageT := 0, pclass := 0, rdom := 0, ring := 0, ringHead := 0, spilled := [], nseq := 0, seqVa := 0, rtoks := [], rseqs := [],
     rfails := [], source := 0, group := 0,
     udp := 0, height := 0, width := 0, samp := 0, ess := 0, port := 0, sub := 0, deadline := 0, slice := 0, bufVa := 0,
     nbuf := 1, stride := 0, slotSz := 0, ref := none, frame := none, frames := 0, partials := 0, late := 0,
     droppedEntries := 0 } : Queue).withBody r.sub r.body

/-- HANDLE_PUBLISH (R161): the queue's storage is allocated and its handle published. -/
def execHandlePublish (s : State) : Answer :=
  harrowStep s 3 (fun r => r.goal == .create && r.cursor == 1) fun s r =>
    if r.handle ≠ 0 then s.stepDone r.slot 3
    else if r.sub = 2 ∧ r.die = none then s.failRecord r.slot eCapacity
    else
      let h : Word := BitVec.ofNat 32 (r.sub * 2 ^ 28 + r.gen % 256 * 2 ^ 20 + r.slot)
      let s := s.putQueue (newQueue r h (r.die.getD 0))
      (s.putRecord { s.record r.slot with handle := h, made := max r.made 2 }).stepDone r.slot 3

/-- An open queue takes up the fields of a body: spilled tokens of a ring that lies elsewhere are read back first (R334).
(Log entry 49 DESIGN CHOICE.) -/
def State.retake (s : State) (q : Queue) (sub : Nat) (b : List Byte) : State :=
  let q' := q.withBody sub b
  let (q, s) := if q'.ring = q.ring ∧ q'.spill = q.spill then (q, s) else s.unspill q q.spilled.length
  let (q, s) := s.refill { q.withBody sub b with isOpen := true, closed := false, ref := none }
  s.putQueue q

/-- QUEUE_OPEN (R276): pushes and pops are open, again where an edit ends a deletion's wait (R290), and the body's
fields come into force. (Log entry 92 DEDUCED.) -/
def execQueueOpen (s : State) : Answer :=
  harrowStep s 3 (fun r => r.goal == .create && r.cursor == 2) fun s r =>
    match s.queue? r.slot with
    | none => s.failRecord r.slot eCapacity
    | some q =>
      if s.ringMoves q q.ringHead q.spilled.length then s
      else
        let s := s.retake q r.sub r.body
        let s := s.putRecord { s.record r.slot with made := 3 }
        (s.stepDone r.slot 3).pauseQueue r.slot

/-- Pops that wait at an empty queue return at its close and write nothing (R359). -/
def State.returnPops (s : State) (slot : Nat) : State :=
  match s.queue? slot with
  | none => s
  | some q =>
    let waits := fun (a : Access) => a.kind == .qget && !a.returned && a.bind.handle == q.handle
    s.each (s.groups.flatMap fun g => (g.acc.filter waits).map Access.id) fun s id =>
      match s.access? id with
      | some (g, a) => (match s.queue? slot with
        | some q => if q.entries.isEmpty then s.endPop g a [] 0 else s
        | none => s)
      | none => s

/-- The entries left in a queue discarded and counted in DROPPED (R278). (Log entry 70 DEDUCED.) -/
def State.dropEntries (s : State) (slot : Nat) : State :=
  match s.queue? slot with
  | none => s
  | some q =>
    let r := s.record slot
    (s.putRecord { r with dropped := r.dropped + q.entries.length + q.rtoks.length + q.rfails.length }).putQueue
      { q with entries := [], rtoks := [], rseqs := [], rfails := [] }

/-- The queue of a record closed to pushes and pops (R168). -/
def State.closeQueue (s : State) (slot : Nat) : State :=
  match s.queue? slot with
  | none => s
  | some q => s.putQueue { q with closed := true }

/-- The queue's storage released and its handle withdrawn (R359). -/
def State.withdrawQueue (s : State) (slot : Nat) : State :=
  let s : State := { s with queues := s.queues.filter fun q => q.slot ≠ slot }
  s.putRecord { s.record slot with handle := 0 }

/-- QUEUE_CLOSE (R359, R278): the first deletion step of an MSG queue. -/
def execQueueClose (s : State) : Answer :=
  harrowStep s 3 (fun r => r.sub == 1 && r.goal == .delete && r.cursor == 0) fun s r =>
    let s := s.closeQueue r.slot
    let s := if (w32 r.body 4).testBit 2 then s.dropEntries r.slot else s
    (s.returnPops r.slot).stepDone r.slot 3

/-- QUEUE_RELEASE (R359): once the queue is empty with no pop pending; until then it waits (R290).
(Log entry 71 DEDUCED.) -/
def execQueueRelease (s : State) : Answer :=
  harrowStep s 3 (fun r => r.sub == 1 && r.goal == .delete && r.cursor == 1) fun s r =>
    if s.queueDrained r.slot then (s.withdrawQueue r.slot).stepDone r.slot 3 else s.stepWaits r.slot

/-- QUEUE_END_ADMISSION (R359): the record converges as a tombstone. -/
def execQueueEndAdmission (s : State) : Answer :=
  harrowStep s 3 (fun r => r.sub == 1 && r.goal == .delete && r.cursor == 2) fun s r => s.stepDone r.slot 3

/-- Every token left in an EXPERT queue, the spilled ones after those on chip, returned to its reorder queue as failed, in
arrival order (R335). -/
def State.returnTokens (s : State) (slot : Nat) : State :=
  match s.queue? slot with
  | none => s
  | some q =>
    let s := s.sawAge q
    let (q, s) := s.unspill q q.spilled.length
    let s := s.putQueue { q with entries := [] }
    s.each q.entries fun s e => s.takeFailed q.ctx q.rdom e.words

/-- Whether a queue's deletion drops its tokens. -/
def Rec.dropsTokens (r : Rec) : Bool := (w32 r.body 0x1C).testBit 3

/-- The firings of a queue that is gone run to completion (R335): they belong to no queue of the slot any more. -/
def State.keepFirings (s : State) (slot : Nat) : State :=
  { s with launches := s.launches.map fun l => match l.origin with
      | .firing q b => if q = slot then { l with origin := .firing 16384 b } else l
      | _ => l }

/-- EXPERT_QUEUE_DELETE (R335): the first step closes the queue, and under DROP returns its tokens as failed; the
second, which under DRAIN waits for the last firing to retire (R290), releases its storage; the third ends its
admission. -/
def execExpertQueueDelete (s : State) : Answer :=
  harrowStep s 3 (fun r => r.sub == 2 && r.goal == .delete) fun s r =>
    match r.cursor with
    | 0 =>
      match s.queue? r.slot with
      | none => s.stepDone r.slot 3
      | some q =>
        if r.dropsTokens ∧ s.ringMoves q q.ringHead q.spilled.length then s
        else
          let s := s.putQueue { q with closed := true, drop := r.dropsTokens }
          (if r.dropsTokens then s.returnTokens r.slot else s).stepDone r.slot 3
    | 1 =>
      if r.dropsTokens ∨ s.awaited r = true then ((s.withdrawQueue r.slot).keepFirings r.slot).stepDone r.slot 3
      else s.stepWaits r.slot
    | _ => s.stepDone r.slot 3

/-! ### LINK -/

/-- LINK_ADMIT (R344, R343). -/
def execLinkAdmit (s : State) : Answer :=
  harrowStep s 5 (fun r => r.goal == .create && r.cursor == 0) fun s r =>
    if (linkPorts r.body).all (fun p => s.portFree p false r.slot) then
      let s := s.each (linkPorts r.body) fun s p => s.putPort { s.port p with ethernet := false }
      (s.putRecord { s.record r.slot with made := max r.made 1 }).stepDone r.slot 2
    else s.failRecord r.slot eCapacity

/-- What the peer presented judged against the record (R344). (Log entry 69 DEDUCED.) -/
def State.judgeLink (s : State) (r : Rec) (names : Bool) (nats : List Nat) : State :=
  match nats with
  | [ctx, ports, crypt, expva, explen] =>
    let d := w64 r.body 8
    if names && ctx == r.ctx && ports == bits d 0 8 && crypt == bits d 16 1 then
      (s.putRecord { s.record r.slot with peerExp := [expva, explen], made := 2, presented := none }).stepDone r.slot 2
    else (s.putRecord { s.record r.slot with presented := none }).failRecord r.slot 0x1A
  | _ => s

/-- LINK_CONNECT (R344, R290) of the LINK record in slot `a`. From outside, with `nats`, the peer presents its record:
the device it names, its context, ports, CRYPT, EXPVA and EXPLEN, over ports that carry flits; `flag` says that it names
this device. As the Harrow's step it waits until that has happened, and at the record's next turn completes, or, for a record that does
not match, fails with PEER_REFUSED. (Log entry 69 DEDUCED.) -/
def execLinkConnect (s : State) : Answer :=
  if s.arg.nats.length = 5 then
    hw s fun s =>
      let r := s.record s.arg.a
      if r.live && r.kind == 5 && !s.portsDown (.peer r.slot) then
        some (s.putRecord { r with presented := some (s.arg.flag, s.arg.nats) })
      else none
  else
    harrowStep s 5 (fun r => r.goal == .create && r.cursor == 1) fun s r =>
      if r.peerExp ≠ [] then s.stepDone r.slot 2
      else match r.presented with
        | none => s.stepWaits r.slot
        | some x => s.judgeLink r x.1 x.2

/-! ### PROGRAM -/

/-- A PROGRAM step. -/
def programStep (s : State) (k : Nat) (f : State → Rec → State) : Answer :=
  harrowStep s 4 (fun r => r.goal == .create && r.cursor == k) f

/-- PROGRAM_ADMIT (R276, R329): what the device can never hold fails here; an expert program is checked as a firing
launches it (R328). -/
def execProgramAdmit (s : State) : Answer :=
  programStep s 0 fun s r =>
    let origin := if s.isExpertProgram r then .firing r.slot 0 else .program r.slot
    if s.imageMoves r.ctx (w64 r.body 0) then s
    else match s.programLaunch r r.body 0 0 origin with
      | .error e => if e = eCapacity then s.failRecord r.slot eCapacity else s.stepDone r.slot 5
      | .ok _ => s.stepDone r.slot 5

/-- SELECT_VARIANT (R381): it reads the variant table and checks nothing else of the image, whose checks are the load
step's (R402). -/
def execSelectVariant (s : State) : Answer :=
  programStep s 1 fun s r =>
    let va := w64 r.body 0
    if s.imageMoves r.ctx va then s
    else match s.readVa r.ctx va 64 with
    | .error e => s.failRecord r.slot e
    | .ok b =>
      match s.pickVariant r.ctx (imgOf va b) with
      | .error e => s.failRecord r.slot e
      | .ok v => (s.putRecord { s.record r.slot with variant := some v }).stepDone r.slot 5

/-- Whether the relocations of a context's image, whose code lies at `code`, have been applied: a live record has loaded it
in its life, or a grid or a firing of it runs (R399). (Log entry 74 DEDUCED.) -/
def State.isLoaded (s : State) (ctx va code : Nat) : Bool :=
  s.recs.any (fun x => x.live && x.kind == 4 && x.ctx == ctx && x.loaded.contains va)
    || s.launches.any fun l => l.ctx == ctx && l.codeBase == code && (match l.origin with
      | .kick .. => false
      | _ => true)

/-- LOAD_IMAGE (R399, R402, R267): the checks, and the relocations of an image that is not loaded yet.
(Log entry 74 DEDUCED.) -/
def execLoadImage (s : State) : Answer :=
  programStep s 2 fun s r =>
    let va := w64 r.body 0
    let n := bits (w32 r.body 8) 0 16
    let form := bits (w32 r.body 8) 16 2
    if s.imageMoves r.ctx va then s
    else match s.loadChecks r.ctx va with
    | .error e => s.failRecord r.slot e
    | .ok i =>
      if i.kernels ≤ n then s.failRecord r.slot eBadImage
      else match s.imgKernel r.ctx i n with
        | .error e => s.failRecord r.slot e
        | .ok k =>
          if k.isChain = false ∧ form ≠ 0 then s.failRecord r.slot eBadImage
          else if k.isChain = true ∧ form = 1 ∧ s.chainFoldable r.ctx i k = false then s.failRecord r.slot eNotFoldable
          else
            (match (if s.isLoaded r.ctx va (i.base + i.code) then .ok s else s.relocate r.ctx i) with
             | .error e => s.failRecord r.slot e
             | .ok s =>
               let s := s.addImage r.ctx (i.base + i.code) i.codeSize
               (s.putRecord { s.record r.slot with
                 loaded := if (s.record r.slot).loaded.contains va then (s.record r.slot).loaded
                   else (s.record r.slot).loaded ++ [va] }).stepDone r.slot 5)

/-- BIND_QUEUES (R276): every handle of the body names a queue. -/
def execBindQueues (s : State) : Answer :=
  programStep s 3 fun s r =>
    if (programHandles r.body).all (fun h => match s.queueOf (BitVec.ofNat 32 h) with
        | some q => q.ctx == r.ctx
        | none => false) then s.stepDone r.slot 5
    else s.failRecord r.slot eApplyFault

/-- Whether a record's grid is running: a launch of it that has not completed. -/
def State.gridRunning (s : State) (r : Rec) : Bool := s.launches.any fun l => l.origin == .program r.slot

/-- The code of the launch checks that an expert program's firings would fail, which fail its launch step (Table C.6);
none for another program, or where they pass. (Log entry 114 DESIGN CHOICE.) -/
def State.firingFault (s : State) (r : Rec) : Option Nat :=
  if s.isExpertProgram r then
    (match s.programLaunch { r with launchVariant := r.variant } r.body 0 0 (.firing r.slot 0) with
     | .error e => some e
     | .ok _ => none)
  else none

/-- PROGRAM_LAUNCH (R404, R288, R331, R382): a new grid, whose first team's start ends the step; for a running grid or an
expert program nothing is launched, a change of FORM switches its running chains, and the step waits for every switch.
The grid of a paused program, which starts no team, is launched too, and its step ends at once.
(Log entry 137 DESIGN CHOICE.) -/
def execProgramLaunch (s : State) : Answer :=
  programStep s 4 fun s r =>
    let paused := r.pauseBit || (match s.ctx? r.ctx with
      | some c => c.paused
      | none => true)
    let s0 := s.putRecord { s.record r.slot with launchBody := r.body, launchVariant := r.variant }
    if r.waiting then s.stepDone r.slot 5
    else if s.imageMoves r.ctx (w64 r.body 0) then s
    else if s.isExpertProgram r ∨ s.gridRunning r = true then
      match s.firingFault r with
      | some e => s.failRecord r.slot e
      | none =>
        let s := if r.launchBody ≠ [] ∧ bits (w32 r.launchBody 8) 16 2 ≠ bits (w32 r.body 8) 16 2 then
            s0.requestForm r.slot (s.wantsFolded r.slot r.body)
          else s0
        if s.awaited r then s.stepDone r.slot 5 else s.stepWaits r.slot
    else match s.launchGrid { r with launchVariant := r.variant } r.body with
      | .error e => s.failRecord r.slot e
      | .ok s => if paused then s.stepDone r.slot 5 else s.stepStarts r.slot

/-! ### PAUSE, DELETE -/

/-- PAUSE_STEP (R288). -/
def execPauseStep (s : State) : Answer :=
  hw s fun s =>
    match s.turn with
    | none => none
    | some r =>
      if r.slot = s.arg.a ∧ r.goal = .pause then some ((s.setRecord { r with phase := .applying }).converge r.slot 1).showBlocked
      else none

/-- UNPAUSE_STEP (R288): the record's work goes on, and programs held by the pause launch their grids. -/
def execUnpauseStep (s : State) : Answer :=
  hw s fun s =>
    match s.turn with
    | none => none
    | some r =>
      if r.slot = s.arg.a ∧ r.goal = .unpause then
        some ((s.setRecord { r with phase := .applying }).converge r.slot 1).showBlocked
      else none

/-- The launches of a deleted program: those with a saved team stay, and never run again (R37, R263); the others are
gone. (Log entry 60 DEDUCED.) -/
def State.orphan (s : State) (r : Rec) : State :=
  let kept := fun (l : Launch) => s.teams.any fun t => t.launch == l.lid
  let mine := fun (l : Launch) => l.origin == .program r.slot
  { s with launches := (s.launches.filter fun l => !mine l || kept l).map fun l =>
             if mine l then { l with origin := .program 16384, prog := none }
             else if l.isOf r then { l with prog := none } else l }

/-- The first deletion step of a PROGRAM record waits for its teams to stop (R288, R314). -/
def State.undoWaits (s : State) (slot : Nat) : State :=
  let s := s.stepWaits slot
  s.putRecord { s.record slot with undoing := true }

/-- The effect of a PROGRAM record's first deletion step, whose wait is over. -/
def State.undone (s : State) (r : Rec) : State :=
  let s := s.orphan r
  s.putRecord { s.record r.slot with waiting := false, undoing := false }

/-- The undoing of a PROGRAM record's creation steps: its running teams are pre-empted first (R288, R314).
(Log entry 59 DEDUCED.) -/
def State.undoProgram (s : State) (r : Rec) : State :=
  if r.cursor = 0 then
    if s.awaited r then (s.undone r).stepDone r.slot 5 else s.undoWaits r.slot
  else s.stepDone r.slot 5

/-- Jobs and accesses of a link that is gone (R347): started jobs over it end FAILED, token by token. -/
def State.cutLink (s : State) (link : Nat) : State :=
  let ps := s.pages.filter fun p => p.sp == .peer link
  let js := s.jobs.filter fun j => j.state == .running && ps.any fun p => p.ctx == j.ctx && j.uses p.va p.size
  s.each js fun s j => (s.failJob j).wakeTeam j.tid

/-- DELETION_STEP of a PROGRAM, LINK, REORDER or STREAM record (R288).  A PROGRAM's first one completes before the record
goes on to a version accepted meanwhile (R289). (Log entry 70 DEDUCED.) -/
def execDeletionStep (s : State) : Answer :=
  hw s fun s =>
    match s.turn with
    | none => none
    | some r =>
      if r.slot ≠ s.arg.a then none
      else if r.goal ≠ .delete then (if r.undoing && r.waiting then some (s.undone r).showBlocked else none)
      else
        let s := if r.phase = .applying then s else s.setRecord { r with phase := .applying }
        match r.kind, r.sub with
        | 4, _ => some (s.undoProgram r).showBlocked
        | 5, _ =>
          let s := if r.cursor = 0 then (s.cutLink r.slot).putRecord { (s.cutLink r.slot).record r.slot with peerExp := [] } else s
          some (s.stepDone r.slot 2).showBlocked
        | 3, 4 =>
          let s := if r.cursor = 0 then s.closeQueue r.slot
            else if r.cursor = 1 then (s.dropEntries r.slot).withdrawQueue r.slot else s
          some (s.stepDone r.slot 3).showBlocked
        | 3, 5 =>
          let s := if r.cursor = 0 then (s.closeQueue r.slot).returnPops r.slot
            else if r.cursor = 1 then (s.dropEntries r.slot).withdrawQueue r.slot else s
          some (s.stepDone r.slot 3).showBlocked
        | _, _ => none

end Sys2Proof.Machine
end

