-- ==== Sys2Proof/Machine/StepsMigrate.lean ====
section
/-!
DEFINITION. Hardware steps of page migration (R309 to R311): the arbiter's cycle, the end of a move, and the end of a
page's hold.
-/

namespace Sys2Proof.Machine

/-! ### Lock words (Table C.18) -/

/-- A lock word: its flags, its REQ field and its count of moves. -/
structure LockWord where
  moving : Bool
  loc : Bool
  req : Nat
  pinned : Bool
  remote : Bool
  moves : Nat
  deriving DecidableEq, Repr

/-- The fields of a lock word, and the word of them; the reserved field reads 0. -/
def lockOf (w : Nat) : LockWord :=
  { moving := w.testBit 63, loc := w.testBit 62, req := bits w 60 2, pinned := w.testBit 59, remote := w.testBit 58,
    moves := w % 2 ^ 32 }
def LockWord.num (l : LockWord) : Nat :=
  let bit := fun (b : Bool) (i : Nat) => if b then 2 ^ i else 0
  bit l.moving 63 + bit l.loc 62 + l.req % 4 * 2 ^ 60 + bit l.pinned 59 + bit l.remote 58 + l.moves % 2 ^ 32

/-- The lock word at a virtual address, and where it lies. -/
def State.lockAt (s : State) (ctx va : Nat) : Option (PAddr × LockWord) :=
  match s.translate ctx va with
  | .ok loc _ _ => some (loc, lockOf (leNat (s.bytesAt loc 8)))
  | _ => none

/-- The lock word changed by the arbiter, with a SYSTEM release. -/
def State.setLock (s : State) (ctx va : Nat) (f : LockWord → LockWord) : State :=
  match s.lockAt ctx va with
  | some (loc, l) => s.unitStore loc (leBytes 8 (f l).num)
  | none => s

/-- The lock word's address of a page of a MIGRATE record. -/
def State.pageLock (s : State) (p : Page) : Nat :=
  let r := s.record p.slot
  r.lockVa ((p.va - mapVa r.body) / mapSize r.body)

/-- Whether a page migrates: an applied page of a MIGRATE record (R309). -/
def State.migrates (s : State) (p : Page) : Bool :=
  p.kind == .mapping && mapPolicy (s.record p.slot).body == 2 && !p.revoked

/-! ### The arbiter (R310) -/

def State.pageHeld (s : State) (p : Page) : Bool := s.holds.any fun h => h.ctx == p.ctx && h.va == p.va
def State.deviceAsks (s : State) (p : Page) : Bool := s.migReqs.any fun r => r.ctx == p.ctx && r.va == p.va
def State.dropAsks (s : State) (p : Page) : State :=
  { s with migReqs := s.migReqs.filter fun r => !(r.ctx == p.ctx && r.va == p.va) }
def State.hostAsks (s : State) (p : Page) : Bool :=
  match s.lockAt p.ctx (s.pageLock p) with
  | some (_, l) => l.req == 2
  | none => false

/-- A page of a list replaced. -/
def State.putPage (s : State) (p q : Page) : State := { s with pages := s.pages.map fun x => if x = p then q else x }

/-- Steps 1 and 2 of a move (R311): MOVING is set, REQ cleared, and the page's device translation shot down. -/
def State.startMove (s : State) (p : Page) : State :=
  let lock := s.pageLock p
  let pin := match p.movedAt with
    | some t => decide (s.clk ≤ t + 188000)
    | none => false
  let s := s.setLock p.ctx lock fun l => { l with moving := true, req := 0 }
  let s := (s.putPage p { p with moving := true }).shootDown false p
  let (i, s) := s.newId
  { s with moves := s.moves ++ [{ mv := i, ctx := p.ctx, va := p.va, toHost := p.sp == .dev, lockVa := lock, pin := pin }] }

/-- A page held for 10 ms, REMOTE or PINNED (R310). -/
def State.holdPage (s : State) (p : Page) (lock : Nat) (remote : Bool) : State :=
  let s : State := { s with holds := s.holds.filter (fun h => !(h.ctx == p.ctx && h.va == p.va))
    ++ [{ remote := remote, ctx := p.ctx, va := p.va, lockVa := lock, expires := s.clk + 9400000 }] }
  s.writeStanding p.slot

/-- The requests for one page settled (R310): none is taken while the page is held; a host and a device request of one
cycle are settled for the host, and the device's side then maps the page remotely. (Log entry 79 DEDUCED.) -/
def State.settlePage (s : State) (p : Page) : State :=
  let lock := s.pageLock p
  let host := s.hostAsks p
  let dev := s.deviceAsks p
  let s := s.dropAsks p
  let clear := fun (s : State) => if host then s.setLock p.ctx lock fun l => { l with req := 0 } else s
  let remote := fun (s : State) => (s.setLock p.ctx lock fun l => { l with remote := true }).holdPage p lock true
  if s.pageHeld p then clear s
  else if host then
    let s := if p.sp = .dev then s.startMove p else clear s
    if dev then remote s else s
  else if dev ∧ p.sp = .host then s.startMove p
  else s

/-- Whether a running job reads or writes a page, its completion area among them (R177): no move of it starts (R357). -/
def State.jobUses (s : State) (p : Page) : Bool :=
  s.jobs.any fun j => j.state == .running && j.ctx == p.ctx &&
    let on := fun (a n : Nat) => decide (a < p.va + p.size) && decide (p.va < a + n)
    on (cardCmpl j.card) (cardArea j.card) || (List.range (cardRuns j.card)).any fun r => j.needs r
      && ((!cardSrcSpad j.card && !(runOffsets (cardLoops j.card) r).2.2 && on (runSrc j.card r) (cardRun j.card))
        || (!cardDstSpad j.card && (on (runDst j.card r) (cardOutBytes j.card)
          || (cardBlocks j.card != 0 && on (runHdr j.card r) (2 * cardBlocks j.card)))))

/-- Whether a request for a page can be settled: one is made, and the page is not in a move or a shoot-down and no running
job uses it (R310, R357). -/
def State.settles (s : State) (p : Page) : Bool :=
  s.migrates p && !p.moving && !s.jobUses p && !s.shoots.any (fun x => x.ctx == p.ctx && x.va == p.va)
    && (s.deviceAsks p || s.hostAsks p)

/-- MIGRATION_CYCLE of the arbiter of die `a`, which has the pages whose lock words its memory holds: the requests for
them are settled at a multiple of 1 µs. (Log entry 79 DEDUCED.) -/
def execMigrationCycle (s : State) : Answer :=
  hw s fun s =>
    let mine := s.pages.filter fun p => s.settles p && (match s.lockAt p.ctx (s.pageLock p) with
      | some (loc, _) => homeDie loc.a == s.arg.a
      | none => s.arg.a == 0)
    if mine = [] ∨ s.clk % 940 ≠ 0 then none else some (s.each mine State.settlePage)

/-! ### The end of a move (R311) -/

/-- The listed bytes of a memory from `a` on, as offsets. -/
def cellsIn (m : List Host.Cell) (a n : Nat) : List (Nat × Byte) :=
  (m.filter fun c => decide (a ≤ c.1) && decide (c.1 < a + n)).map fun c => (c.1 - a, c.2)

/-- A frame of n bytes copied from one place to another: the copy is the first store of its locations.
(Log entry 80 DEDUCED.) -/
def State.copyFrame (s : State) (from_ dest : PAddr) (n : Nat) : State :=
  let got := cellsIn (s.cells from_.sp) from_.a n
  let (i, s) := s.newId
  let m := got.foldl (fun m c => cellsPut m (dest.a + c.1) c.2) (cellsZero (s.cells dest.sp) dest.a n)
  let s := s.putCells dest.sp m
  let bad := ((s.poisonOf from_.sp).filter fun g => decide (from_.a ≤ g) && decide (g < from_.a + n)).map
    fun g => dest.a + (g - from_.a)
  let s := s.putPoison dest.sp (s.poisonOf dest.sp ++ bad)
  { s with co := s.co ++ got.map fun c => { loc := dest.plus c.1, sid := i, val := c.2, sys := true } }

/-- Steps 4 and 5 of a move: the new translation, LOC, MOVES, and MOVING cleared; a page that moved twice within 200 µs is
pinned (R310). -/
def State.landPage (s : State) (m : Move) (p : Page) (sp : Space) (frame : Nat) : State :=
  let s := s.putPage p { p with sp := sp, frame := frame, moving := false, movedAt := some s.clk }
  let s := s.putRecord { s.record p.slot with moves := (s.record p.slot).moves + 1 }
  let s := s.setLock m.ctx m.lockVa fun l =>
    { l with moving := false, loc := m.toHost, moves := l.moves + 1, pinned := l.pinned || m.pin }
  if m.pin then s.holdPage p m.lockVa false else s.writeStanding p.slot

/-- MOVE_DONE of move `a`: once its shoot-down is acknowledged the page is copied and lands.  A move for which device
memory has no frame ends where it began. (Log entries 79 DEDUCED, 166 DESIGN CHOICE.) -/
def execMoveDone (s : State) : Answer :=
  hw s fun s =>
    match s.moves.find? (fun m => m.mv == s.arg.a) with
    | none => none
    | some m =>
      if s.shoots.any (fun x => x.ctx == m.ctx && x.va == m.va) then none
      else
        let s : State := { s with moves := s.moves.filter fun x => x.mv ≠ m.mv }
        match s.pages.find? (fun p => p.ctx == m.ctx && p.va == m.va && p.moving) with
        | none => some s
        | some p =>
          let r := s.record p.slot
          if m.toHost then
            let pa := mapPa r.body + (p.va - mapVa r.body)
            let s := s.copyFrame ⟨p.sp, p.frame⟩ ⟨.host, pa⟩ p.size
            some ((s.landPage m p .host pa).freeFrame p.frame p.size)
          else match s.allocFrame (mapBack r.body) p.size p.ctx with
            | none =>
              some ((s.putPage p { p with moving := false }).setLock m.ctx m.lockVa fun l => { l with moving := false })
            | some (f, s) => some ((s.copyFrame ⟨p.sp, p.frame⟩ ⟨.dev, f⟩ p.size).landPage m p .dev f)

/-- LOCK_HOLD_EXPIRY of the page at `b` of context `a` (R310): its REMOTE or PINNED hold ends after 10 ms. -/
def execLockHoldExpiry (s : State) : Answer :=
  hw s fun s =>
    match s.holds.find? (fun h => h.ctx == s.arg.a && h.va == s.arg.b && decide (h.expires ≤ s.clk)) with
    | none => none
    | some h =>
      let s : State := { s with holds := s.holds.filter fun x => !(x.ctx == h.ctx && x.va == h.va) }
      let s := s.setLock h.ctx h.lockVa fun l => { l with pinned := false, remote := false }
      match s.page? h.ctx h.va with
      | some p => some (s.writeStanding p.slot)
      | none => some s

end Sys2Proof.Machine
end

