-- ==== Sys2Proof/Machine/StepsHost.lean ====
section
/-!
DEFINITION. Hardware steps of the host link: notifications and registers (R274, R293, R294, R308), host accesses (R239,
R339), warm restart (R353), keys and interfaces (R296, R340), debug (R342), firmware images and signatures (R378, R379).
-/

namespace Sys2Proof.Machine

/-! ### Registers that the host writes -/

/-- CONS of the notification ring (R293): held events are written as room allows. -/
def State.setCons (s : State) (v : Word) : State := State.flushNotes s.notes.length { s with cons := v }

/-- CONS of the fault ring (R308): held records are written as room allows. -/
def State.setFcons (s : State) (v : Word) : State := State.flushRing s.fheld.length { s with fcons := v }

/-- NCOUNT (Table C.9): a write of 0 stores 1. -/
def State.setNcount (s : State) (v : Nat) : State :=
  ({ s with ncount := if v % 4096 = 0 then 1 else v % 4096 } : State).coalesce

/-- NHOLD (Table C.9): a write of 0 stores 1, and one above 1,000 stores 1,000; it applies to the entries pending. -/
def State.setNhold (s : State) (v : Nat) : State :=
  ({ s with nhold := min 1000 (max 1 (v % 1024)) } : State).coalesce

/-- NOTIFY_HOLD_EXPIRY (R294): the oldest pending entry has been pending for NHOLD µs. -/
def execNotifyHoldExpiry (s : State) : Answer :=
  hw s fun s =>
    if s.pendingNotes.any (fun t => decide (t + 940 * s.nhold ≤ s.clk)) then some s.coalesce else none

/-- MSIX_UNMASK of vector `a` (R294): a held message issues, and the coalescer's own covers every entry pending then. -/
def execMsixUnmask (s : State) : Answer :=
  hw s fun s =>
    let v := s.arg.a
    if s.masked.contains v = false then none
    else
      let s : State := { s with masked := s.masked.filter fun x => x ≠ v }
      if s.heldMsix.contains v then
        let notes := s.noteHeld == some v
        some (({ s with heldMsix := s.heldMsix.filter (fun x => x ≠ v),
                        pendingNotes := if notes then [] else s.pendingNotes,
                        noteHeld := if notes then none else s.noteHeld } : State).emit (.msix v))
      else some s

/-- NOTIFY_CONS_WRITE of the value `a` (R293). -/
def execNotifyConsWrite (s : State) : Answer := hw s fun s => some (s.setCons (BitVec.ofNat 32 s.arg.a))
/-- FAULT_RING_CONS_WRITE of the value `a` (R308). -/
def execFaultRingConsWrite (s : State) : Answer := hw s fun s => some (s.setFcons (BitVec.ofNat 32 s.arg.a))
/-- NCOUNT_WRITE of the value `a` (R293). -/
def execNcountWrite (s : State) : Answer := hw s fun s => some (s.setNcount s.arg.a)
/-- NHOLD_WRITE of the value `a` (R294). -/
def execNholdWrite (s : State) : Answer := hw s fun s => some (s.setNhold s.arg.a)

/-- A cluster's CSLR from a word (Table A.62), as firmware policy sets it. -/
def cslrOf (c v : Nat) : Cslr :=
  { cluster := c, wave := bits v 0 6, space := bits v 8 8, policyWave := bits v 0 6, policySpace := bits v 8 8,
    droopAt := none }

/-- An island with the fields of an ISLV word (Table D.2). -/
def Island.write (i : Island) (v : Nat) : Island :=
  { i with barred := v.testBit 31, nt := v.testBit 30, hold := bits v 26 4, safe := bits v 10 10, vcur := bits v 0 10 }

/-- REGISTER_WRITE of the value `b` (R274): register `a` is 1 for the VECTOR of notifications and 2 for that of the fault
ring, which the host writes, 0x100 + c for the CSLR of cluster c and 0x1000 + i for the ISLV of island i, which the
management core writes, and 0x2000 + v for the mask bit of MSI-X vector v. (Log entry 84 DESIGN CHOICE.) -/
def execRegisterWrite (s : State) : Answer :=
  hw s fun s =>
    let r := s.arg.a
    let v := s.arg.b
    if r = 1 then some { s with nvector := v % 65536 }
    else if r = 2 then some { s with fvector := v % 65536 }
    else if 0x100 ≤ r ∧ r < 0x100 + 40 then some (s.putCslr (cslrOf (r - 0x100) v))
    else if 0x1000 ≤ r ∧ r < 0x1000 + 640 then some (s.putIsland ((s.island (r - 0x1000)).write v))
    else if 0x2000 ≤ r ∧ r < 0x2000 + 64 then
      let k := r - 0x2000
      if v % 2 = 1 ∧ s.masked.contains k = false then some { s with masked := s.masked ++ [k] } else none
    else none

/-! ### Control words (Tables C.9 and C.16) -/

/-- The control words of the notification page and of the fault ring, 32 bytes each. -/
def State.noteWords (s : State) : List Byte :=
  leBytes 8 s.prod.toNat ++ leBytes 8 s.cons.toNat ++ leBytes 4 s.ncount ++ leBytes 4 s.nhold ++ leBytes 4 s.overrun.toNat
    ++ leBytes 4 s.nvector
def State.ringWords (s : State) : List Byte :=
  leBytes 8 s.fprod.toNat ++ leBytes 8 s.fcons.toNat ++ leBytes 8 s.foverrun.toNat ++ leBytes 8 s.fvector

/-- The bytes of 32 control words with those of a write from HDM offset o laid over them, the page being at `base`. -/
def overlay (old : List Byte) (base o : Nat) (bytes : List Byte) : List Byte :=
  old.mapIdx fun i x => if o ≤ base + i ∧ base + i < o + bytes.length then bytes.getD (base + i - o) x else x

/-- Whether a write of n bytes from offset o covers any of the k bytes at an offset. -/
def covers (o n at_ k : Nat) : Bool := decide (o < at_ + k) && decide (at_ < o + n)

/-- The part of a host write that falls in the notification control page: only the bytes that the host may write. -/
def State.hostNote (s : State) (o : Nat) (bytes : List Byte) : State :=
  let base := 0xA00000
  let hit := fun (at_ k : Nat) => covers o bytes.length (base + at_) k
  let w := overlay s.noteWords base o bytes
  let s := if hit 0x10 4 then s.setNcount (w32 w 0x10) else s
  let s := if hit 0x14 4 then s.setNhold (w32 w 0x14) else s
  let s := if hit 0x1C 2 then { s with nvector := w16 w 0x1C } else s
  if hit 8 4 then s.setCons (BitVec.ofNat 32 (w32 w 8)) else s

/-- The part of a host write that falls in the control words of the fault ring. -/
def State.hostRing (s : State) (o : Nat) (bytes : List Byte) : State :=
  let base := 0x800000
  let hit := fun (at_ k : Nat) => covers o bytes.length (base + at_) k
  let w := overlay s.ringWords base o bytes
  let s := if hit 0x18 2 then { s with fvector := w16 w 0x18 } else s
  if hit 8 4 then s.setFcons (BitVec.ofNat 32 (w32 w 8)) else s

/-! ### Host accesses (R239, R339) -/

/-- Whether a far-memory address lies in a page that the host sees: one of a converged HOSTVIS mapping of a context that
is not confidential. (Log entry 82 DEDUCED.) -/
def State.hostPage (s : State) (a : Nat) : Bool :=
  s.pages.any fun p => p.hostVis && p.sp == .dev && decide (p.frame ≤ a) && decide (a < p.frame + p.size)
    && (s.record p.slot).settled && !s.confidential p.ctx

/-- The device memory at an HDM offset (Table C.30) that a host write reaches: record slots and host-visible far
pages. -/
def State.hdmWritable (s : State) (o : Nat) : Option Nat :=
  if o < 0x400000 then some (harrowBase + o)
  else if 0x40000000 ≤ o ∧ o < 0x40000000 + 4 * farShare then
    let a := farBase + (o - 0x40000000)
    if s.hostPage a then some a else none
  else none

/-- The device memory that a host read reaches. -/
def State.hdmReadable (s : State) (o : Nat) : Option Nat :=
  if o < 0xC00000 then some (harrowBase + o) else s.hdmWritable o

/-- How many of the first bytes of a write from an offset fall in writable memory. -/
def State.hdmRun (s : State) (o : Nat) : List Byte → Nat
  | [] => 0
  | _ :: r => if (s.hdmWritable o).isSome then s.hdmRun (o + 1) r + 1 else 0

/-- A host store: every run of its bytes that falls in writable memory joins the coherence order with reach SYSTEM; the
other bytes are discarded. -/
def State.hostRuns (s : State) (o : Nat) (bytes : List Byte) : Nat → State
  | 0 => s
  | n + 1 =>
    match bytes with
    | [] => s
    | _ :: r =>
      match s.hdmWritable o with
      | none => s.hostRuns (o + 1) r n
      | some a =>
        let k := s.hdmRun o bytes
        let (id, s) := s.newId
        (s.storeHome ⟨.dev, a⟩ (bytes.take k) id true true 0).hostRuns (o + k) (bytes.drop k) n

/-- A host write through the HDM range, byte by byte as R274 gives. (Log entry 83 DEDUCED.) -/
def State.hostWrite (s : State) (o : Nat) (bytes : List Byte) : State :=
  let s := s.hostRuns o bytes (bytes.length + 1)
  let s := if covers o bytes.length 0xA00000 0x20 then s.hostNote o bytes else s
  if covers o bytes.length 0x800000 0x20 then s.hostRing o bytes else s

/-- The byte at a location that a host read returns: the last store whose reach is SYSTEM, or the initial contents.
(Log entry 90 DEDUCED.) -/
def State.systemByte (s : State) (p : PAddr) : Byte :=
  let l := s.co.filter fun e => decide (e.loc = p)
  match (l.filter CoEntry.sys).getLast? with
  | some e => e.val
  | none => if l.isEmpty then s.byteAt p else unlisted

/-- One byte of a host read, and whether it comes back with the poison indication. (Log entry 83 DEDUCED.) -/
def State.hostByte (s : State) (o : Nat) : Byte × Bool :=
  if 0x800000 ≤ o ∧ o < 0x801000 then (s.ringWords.getD (o - 0x800000) 0, false)
  else if 0xA00000 ≤ o ∧ o < 0xA10000 then (s.noteWords.getD (o - 0xA00000) 0, false)
  else if 0xC00000 ≤ o ∧ o < 0x1000000 then (cellsGet s.crash (o - 0xC00000), false)
  else match s.hdmReadable o with
    | some a => if s.poisonedAt ⟨.dev, a⟩ then (0xFF, true) else (s.systemByte ⟨.dev, a⟩, false)
    | none => (0xFF, true)

/-- HOST_WRITE of `bytes` at HDM offset `a` (R239), or, with `flag`, at address `a` of the host's own memory.  With a
number in `nats` it is a compare-and-swap, which writes only where memory holds that number, and returns what it
found. -/
def execHostWrite (s : State) : Answer :=
  hw s fun s =>
    let o := s.arg.a
    let n := s.arg.bytes.length
    let old := if s.arg.flag then s.bytesAt ⟨.host, o⟩ n else (List.range n).map fun i => (s.hostByte (o + i)).1
    let write := fun (s : State) =>
      if s.arg.flag then
        let (id, s) := s.newId
        s.storeHome ⟨.host, o⟩ s.arg.bytes id true true 0
      else s.hostWrite o s.arg.bytes
    match s.arg.nats with
    | [] => some (write s)
    | x :: _ =>
      let s := s.emit (.hostData o old false)
      some (if leNat old = x then write s else s)

/-- HOST_READ of `b` bytes at HDM offset `a` (R239, R339), or, with `flag`, at an address of the host's own memory.  A
read of offset 0 of the crash record lets a later boot overwrite it (R377). (Log entry 90 DEDUCED.) -/
def execHostRead (s : State) : Answer :=
  hw s fun s =>
    let o := s.arg.a
    if s.arg.flag then some (s.emit (.hostData o (s.bytesAt ⟨.host, o⟩ s.arg.b) false))
    else
      let bs := (List.range s.arg.b).map fun i => s.hostByte (o + i)
      let s := s.emit (.hostData o (bs.map Prod.fst) (bs.any Prod.snd))
      some (if covers o s.arg.b 0xC01000 1 then { s with crashRead := some (s.crashRead.getD s.boots) } else s)

/-! ### Warm restart (R353) -/

/-- Step 1: every translation to host memory is revoked with its shoot-down, and its MAPPING record fails; the
host-absence clocks run (R355). -/
def State.revokeHost (s : State) : State :=
  let ps := s.pages.filter fun p => p.kind == .mapping && p.sp == .host && !p.revoked
  let s : State := { s with pages := s.pages.map fun p => if ps.contains p then { p with revoked := true } else p }
  let s := s.each ps (State.shootDown · false ·)
  let s := s.each (s.recs.filter fun r => r.live && r.kind == 2 && ps.any fun p => p.slot == r.slot) fun s r =>
    s.failRecord r.slot 0x1B
  { s with
    migReqs := s.migReqs.filter (fun r => !ps.any fun p => p.ctx == r.ctx && p.va == r.va)
    ctxs := s.ctxs.map fun c =>
      if c.live && c.absentSince.isNone && ps.any (fun p => p.ctx == c.ctx) then { c with absentSince := some s.clk } else c }

/-- Step 2: INTAKE jobs end FAILED, and each store on its way to host memory has reached it or not.
(Log entry 81 DEDUCED.) -/
def State.cutHost (s : State) : State :=
  let s := s.each (s.jobs.filter fun j => j.state != .ended && cardKind j.card == 1) fun s j =>
    (s.failJob j).wakeTeam j.tid
  s.each (s.stores.filter Store.toHost) fun s x =>
    match x.tgt with
    | .mem p =>
      let (v, s) := s.free
      ((if v.getLsbD 0 then s.goHome x p else s.dropStore x.sid).follow x.gid)
    | .plane .. => s

/-- HOST_WARM_RESTART (R353). (Log entry 81 DEDUCED.) -/
def execHostWarmRestart (s : State) : Answer :=
  hw s fun s =>
    let s := s.revokeHost.cutHost
    let s : State := { s with tdisp := s.tdisp.map fun t => { t with state := 0 } }
    let s := s.each (s.ctxs.filter fun c => c.live && c.conf) fun s c => s.endContext c.ctx 0x26 0
    some { s with masked := List.range 64 }

/-! ### Interfaces and keys -/

/-- The selective IDE streams that interfaces other than one use; the device has 8 (R340). (Log entry 116 DEDUCED.) -/
def State.ideStreams (s : State) (but : Nat) : List Nat :=
  dedup ((s.tdisp.filter fun t => t.tdi != but && t.state != 0).map Tdisp.ide)

/-- TDISP_REQUEST (R296): interface `a`, from 1 to 64, enters state `b` (0 unlocked, 3 RUN) on IDE stream `c`, owned
by `d`. A ninth IDE stream is refused (R340). (Log entry 116 DEDUCED.) -/
def execTdispRequest (s : State) : Answer :=
  hw s fun s =>
    let used := s.ideStreams s.arg.a
    if 1 ≤ s.arg.a ∧ s.arg.a ≤ 64 then
      (if s.arg.b = 0 ∨ used.contains s.arg.c = true ∨ used.length < 8 then
        some (s.putTdi { tdi := s.arg.a, state := s.arg.b, ide := s.arg.c, owner := s.arg.d })
      else some (s.emit (.refused 2)))
    else none

/-- KEYSET (R340): the party `d`, through interface `a`, loads key slot `c` of context `b` with the 32 bytes given;
`flag` says that the message comes in its secure session. Only the owner of the interface that the confidential
context is bound to may, in the RUN state and in that session. -/
def execKeyset (s : State) : Answer :=
  hw s fun s =>
    let t := s.tdi s.arg.a
    match s.ctx? s.arg.b with
    | none => some (s.emit (.refused 2))
    | some c =>
      if s.arg.flag && c.live && c.conf && c.tdi == s.arg.a && t.state == 3 && t.owner == s.arg.d && decide (s.arg.c < 256)
          && s.arg.bytes.length == 32 then
        some (s.putCtx { c with keys := putKey Prod.fst (s.arg.c, s.arg.bytes) c.keys })
      else some (s.emit (.refused 2))

/-! ### Debug (R342) -/

/-- A DBGCTL request refused. (Log entry 84 DESIGN CHOICE.) -/
def State.dbgRefuse (s : State) : Option State := some (s.emit (.refused 1))

/-- The core that a request names by die `a` and core `b`. -/
def State.dbgCore (s : State) : Nat := coreOf s.arg.a s.arg.b

/-- DBG_HALT of die `a`, core `b`; `flag` says that the request comes in an authenticated session.  Results under way
land. -/
def execDbgHalt (s : State) : Answer :=
  hw s fun s =>
    let k := s.dbgCore
    let gs := s.groupsOn k
    let conf := gs.any fun g => match s.ctx? g.ctx with
      | some c => c.conf
      | none => false
    if s.arg.flag && s.enabled k && decide (s.arg.a < s.dieCount) && decide (s.arg.b < 40) && !conf then
      let s : State := { s with groups := s.groups.map fun g => if gs.any (fun x => x.gid == g.gid) then g.settle else g }
      some (s.putCore { s.core k with halted := true, stepSlot := none })
    else s.dbgRefuse

/-- The folded chain whose group a group's stage belongs to (R259). -/
def State.foldedOf (s : State) (g : Group) : Option Chain :=
  (((s.team? g.tid).bind Team.chain).bind s.chain?).filter Chain.folded

/-- The group that a READ, WRITE or STEP names by its slot `c` on a halted core; the stages of a folded chain are one
group, which runs one of them (R259). -/
def State.dbgGroup (s : State) : Option Group :=
  let k := s.dbgCore
  if s.arg.flag && (s.core k).halted then
    (match (s.groupsOn k).find? fun g => g.slot == s.arg.c && !g.ended with
     | none => none
     | some g => match s.foldedOf g with
       | none => some g
       | some c => ((c.stages[c.running]?).bind fun st => s.group? st.gid).or (some g))
  else none

/-- Where a vector or scalar register of a group lies: in a folded group, in the window of one of its stages (R259); a
scalar register that is in no window is kept with stage 0. (Log entry 84 DESIGN CHOICE.) -/
def State.dbgPlace (s : State) (g : Group) (item i : Nat) : Option (Group × Nat) :=
  match s.foldedOf g with
  | none => some (g, i)
  | some c =>
    let stage := fun (k j : Nat) => ((c.stages[k]?).bind fun st => s.group? st.gid).map fun g => (g, j)
    match item with
    | 0 => (match (List.range c.stages.length).find? (fun k => decide (i < sumNat ((c.stages.take (k + 1)).map Stage.win))) with
      | some k => stage k (i - sumNat ((c.stages.take k).map Stage.win))
      | none => none)
    | 1 => if i % 16 ≠ 0 ∧ i / 16 < c.stages.length then stage (i / 16) (i % 16) else stage 0 i
    | _ => some (g, i)

/-- Item `d` with index `e` of a group: 0 a vector register, 1 a scalar register, 2 exec, 3 fmt, 4 pc, 5 a path stack
entry, 6 a loop stack entry, 7 U, 8 the call depth, 9 a special register other than CLK, CLKH and TIMEUS.
(Log entry 84 DESIGN CHOICE.) -/
def State.dbgItem (s : State) (g : Group) (item i : Nat) : Option (List Nat) :=
  match item with
  | 0 => if i < g.v.length then some ((g.vreg i).map BitVec.toNat) else none
  | 1 => if i < 64 then some [(g.sreg i).toNat] else none
  | 2 => some [g.exec.toNat]
  | 3 => some [g.fmt.toNat]
  | 4 => some [g.pc.toNat]
  | 5 => (g.path[i]?).map fun e => [if e.rejoin then 1 else 0, e.pc.toNat, e.mask.toNat, e.fmt.toNat, e.depth]
  | 6 => (g.loops[i]?).map fun e => [e.start.toNat, e.stop.toNat, e.count.toNat]
  | 7 => some [g.u]
  | 8 => some [g.depth]
  | 9 => if srListed i && !(decide (0x10 ≤ i) && decide (i ≤ 0x12)) then some [(s.special g i).toNat] else none
  | _ => none

/-- DBG_READ (R342). -/
def execDbgRead (s : State) : Answer :=
  hw s fun s =>
    match s.dbgGroup with
    | none => s.dbgRefuse
    | some g => match (s.dbgPlace g s.arg.d s.arg.e).bind fun x => s.dbgItem x.1 s.arg.d x.2 with
      | none => s.dbgRefuse
      | some v => some (s.emit (.dbg v))

/-- The group with an item written, where the write is not refused: an odd code address is, for a program counter is
always even (R43). (Log entry 84 DESIGN CHOICE.) -/
def State.dbgPut (s : State) (g : Group) (item i : Nat) (v : List Nat) : Option Group :=
  let w := fun (k : Nat) => BitVec.ofNat 32 (v.getD k 0)
  match item with
  | 0 => if i < g.v.length then some { g with v := g.v.set i (vmk w) } else none
  | 1 => if i < 64 then some (g.setS i (w 0)) else none
  | 2 => some { g with exec := w 0 }
  | 3 => if fmtOk (w 0) then some { g with fmt := w 0 } else none
  | 4 => if (w 0).getLsbD 0 then none else some { g with pc := w 0 }
  | 5 =>
    if i < g.path.length ∧ (w 1).getLsbD 0 = false then
      some { g with path := g.path.set i { rejoin := v.getD 0 0 % 2 == 1, pc := w 1, mask := w 2, fmt := w 3, depth := v.getD 4 0 % 256 } }
    else none
  | 6 =>
    if i < g.loops.length ∧ ((w 0).getLsbD 0 || (w 1).getLsbD 0) = false then
      some { g with loops := g.loops.set i { start := w 0, stop := w 1, count := w 2 } }
    else none
  | 7 => some { g with u := v.getD 0 0 % 256 }
  | 8 => some { g with depth := v.getD 0 0 % 256 }
  | 9 => if srWritable i && !srRefuses i (w 0) then some (s.setSpecial g i (w 0)) else none
  | _ => none

/-- DBG_WRITE (R342) of the value `nats`. -/
def execDbgWrite (s : State) : Answer :=
  hw s fun s =>
    match s.dbgGroup with
    | none => s.dbgRefuse
    | some g => match (s.dbgPlace g s.arg.d s.arg.e).bind fun x => s.dbgPut x.1 s.arg.d x.2 s.arg.nats with
      | none => s.dbgRefuse
      | some g => some (s.putGroup g)

/-- DBG_STEP (R342): the group's next issue is let through, and the core stays halted after it. -/
def execDbgStep (s : State) : Answer :=
  hw s fun s =>
    match s.dbgGroup with
    | none => s.dbgRefuse
    | some g => some (s.putCore { s.core s.dbgCore with stepSlot := some (g.slot, g.lastIssue) })

/-- DBG_RESUME (R342). -/
def execDbgResume (s : State) : Answer :=
  hw s fun s =>
    if s.arg.flag && (s.core s.dbgCore).halted then
      some (s.putCore { s.core s.dbgCore with halted := false, stepSlot := none })
    else s.dbgRefuse

/-! ### Firmware and identity -/

/-- Whether the boot ROM runs an image (R378): its signature holds, and its version is at least the fused minimum.
(Log entry 135 DEDUCED.) -/
def State.bootable (s : State) (image : List Byte) : Bool :=
  firmwareVerify image && decide (s.fwMin ≤ Config.firmwareVersion image)

/-- FWSTAGE (R378): a chunk of at most 4 KiB of a new image joins the inactive bank, in an SPDM session (`flag`); with the
last one (`flag2`) the image is verified whole, and an event is written. (Log entry 135 DEDUCED.) -/
def execFwstage (s : State) : Answer :=
  hw s fun s =>
    if !s.arg.flag || decide (4096 < s.arg.bytes.length) then some (s.emit (.refused 4))
    else
      let image := (if s.fwReady then [] else s.fwStaged) ++ s.arg.bytes
      if s.arg.flag2 = false then some { s with fwStaged := image, fwReady := false }
      else
        let good := s.bootable image
        some (({ s with fwStaged := if good then image else [], fwReady := good } : State).logEvent 9 0 0xFF 0 0xFF 0xFF 0 0 0)

/-- SPDM_SIGN of `bytes` (R379): the leaf index advances before the signature is released; once the three levels' 2^30
one-time keys are used the request is refused. -/
def execSpdmSign (s : State) : Answer :=
  hw s fun s =>
    if 2 ^ 30 ≤ s.leafIndex then some (s.emit (.refused 3))
    else
      let k := s.leafIndex
      some (({ s with leafIndex := k + 1 } : State).emit (.signature (identitySign k s.arg.bytes)))

end Sys2Proof.Machine
end

