-- ==== Sys2Proof/Machine/StepsPorts.lean ====
section
/-!
DEFINITION. Hardware steps of the Mbaux and stream ports: loss of lock and its ends (R343, R347), inbound jobs and accesses
(R345, R346), and ST 2110 streams (R348 to R352).
-/

namespace Sys2Proof.Machine

/-! ### Ports -/

/-- PORT_LOSS_OF_LOCK of port `a` (R343). -/
def execPortLossOfLock (s : State) : Answer :=
  hw s fun s =>
    let p := s.port s.arg.a
    if p.up && decide (s.arg.a < s.portCount) then some (s.putPort { p with up := false, lostAt := some s.clk }) else none

/-- Whether a record is a link that runs: it has converged, and a stale edit's CONFLICT leaves it running (R284, R287). -/
def Rec.isLink (r : Rec) : Bool := r.live && r.kind == 5 && r.settled

/-- The links that run over a port. -/
def State.linksOn (s : State) (port : Nat) : List Rec := s.recs.filter fun r => r.isLink && (linkPorts r.body).contains port

/-- Whether a port has been down for more than 1 ms (R347). -/
def MPort.isLost (p : MPort) (clk : Nat) : Bool :=
  !p.up && (match p.lostAt with
    | some t => decide (t + msClk < clk)
    | none => false)

/-- RETRAINING_DONE of port `a` (R343): it carries flits again.  A port whose links have gone down first leaves them to
LINK_DOWN. (Log entry 91 DEDUCED.) -/
def execRetrainingDone (s : State) : Answer :=
  hw s fun s =>
    let p := s.port s.arg.a
    if !p.up && !(p.isLost s.clk && s.linksOn s.arg.a != []) then some (s.putPort { p with up := true, lostAt := none })
    else none

/-- Whether a store is on its way to the peer of a link. -/
def Store.toPeer (x : Store) (link : Nat) : Bool :=
  match x.tgt with
  | .mem p => p.sp == .peer link
  | .plane .. => false

/-- The lanes of an access on their way to the peer of a link that went down raise PAGE_FAULT at their wait (R347). -/
def State.loseLanes (s : State) (g : Group) (link : Nat) (a : Access) : Access :=
  let hit := fun (l : LaneReq) => l.loc.sp == .peer link
    && (!l.finished || s.stores.any fun x => x.acc == a.id && x.lane == l.lane && x.toPeer link)
  { a with lanes := a.lanes.map fun l =>
      if hit l then { l with finished := true, lost := some (s.faultClass g.ctx l.va cPageFault).2.2 } else l }

/-- Everything in flight over a link that went down (R347). -/
def State.loseLink (s : State) (link : Nat) : State :=
  let s := s.cutLink link
  let s : State := { s with groups := s.groups.map fun g => { g with acc := g.acc.map (s.loseLanes g link) } }
  let s : State := { s with stores := s.stores.filter fun x => !x.toPeer link }
  let s := s.each (s.groups.map Group.gid) State.follow
  s.putRecord { s.record link with peerExp := [], presented := none, refusedJobs := [] }

/-- LINK_DOWN of port `a` (R347). (Log entry 91 DEDUCED.) -/
def execLinkDown (s : State) : Answer :=
  hw s fun s =>
    let rs := s.linksOn s.arg.a
    if (s.port s.arg.a).isLost s.clk && rs != [] then
      some (s.each rs fun s r => (s.loseLink r.slot).failRecord r.slot 0x19)
    else none

/-! ### Inbound traffic -/

/-- A link that runs, and whose ports carry flits. -/
def State.linkUp (s : State) (link : Nat) : Option Rec :=
  let r := s.record link
  if r.isLink && !s.portsDown (.peer link) then some r else none

/-- Whether a run of bytes lies inside the exported window of a LINK record (R345). -/
def Rec.exports (r : Rec) (va n : Nat) : Bool :=
  decide (w64 r.body 0x10 ≤ va) && decide (va + n ≤ w64 r.body 0x10 + w64 r.body 0x18)

/-- The pieces of a window's run, where every byte of it translates. -/
def State.inboundPieces (s : State) (ctx va n : Nat) : Option (List (PAddr × Nat)) :=
  let ps := (pagePieces va n).map fun p => match s.translate ctx p.1 with
    | .ok loc _ _ => some (loc, p.2)
    | _ => none
  if ps.all Option.isSome then some (ps.filterMap id) else none

/-- Bytes of an inbound job written to its pieces, or added to them. -/
def State.landInbound (s : State) (add : Bool) (fint : Nat) : List (PAddr × Nat) → List Byte → State
  | [], _ => s
  | p :: r, bs =>
    let here := bs.take p.2
    let s := if add then s.addWords fint p.1 here else s.unitStore p.1 here
    s.landInbound add fint r (bs.drop p.2)

/-- The 64-bit arrival word counts a whole payload (R346). (Log entries 159 DESIGN CHOICE, 165 DESIGN CHOICE.) -/
def State.arrival (s : State) (r : Rec) : State :=
  match s.translate r.ctx (w64 r.body 0x20) with
  | .ok loc _ _ => s.unitStore loc (leBytes 8 (leNat (s.bytesAt loc 8) + 1))
  | _ => s

/-- A piece of job `n` of a link's peer, which ends its payload unless `more` is not 0: the job's payload is whole, and
counts, when none of its pieces has been refused (R345, R346). (Log entry 89 DEDUCED.) -/
def State.endPiece (s : State) (link n more : Nat) (refused : Bool) : State :=
  let r := s.record link
  let bad := refused || r.refusedJobs.contains n
  let others := r.refusedJobs.filter (· ≠ n)
  let s := s.putRecord { r with refusedJobs := if bad ∧ more ≠ 0 then n :: others else others }
  if more = 0 ∧ bad = false then s.arrival r else s

/-- INBOUND_REMOTE_JOB over link `a` (R346): `bytes` of the peer's job `d` for virtual address `b`, added where `flag`
says so, as INT32 where `flag2` does.  They end the job's payload unless `c` is not 0.  A run outside the exported window
is refused (R345), and one that meets a page that moves is not taken (R311). (Log entry 89 DEDUCED.) -/
def execInboundRemoteJob (s : State) : Answer :=
  hw s fun s =>
    match s.linkUp s.arg.a with
    | none => none
    | some r =>
      let n := s.arg.bytes.length
      if s.movingIn r.ctx (w64 r.body 0x20) 8 then none
      else if r.exports s.arg.b n = false then some ((s.emit (.peerRefused r.slot)).endPiece r.slot s.arg.d s.arg.c true)
      else if s.movingIn r.ctx s.arg.b n then none
      else match s.inboundPieces r.ctx s.arg.b n with
        | none => some ((s.emit (.peerRefused r.slot)).endPiece r.slot s.arg.d s.arg.c true)
        | some ps =>
          some ((s.landInbound s.arg.flag (if s.arg.flag2 then 1 else 0) ps s.arg.bytes).endPiece r.slot s.arg.d s.arg.c false)

/-- INBOUND_ACCESS over link `a` (R345) at virtual address `c`: `b` is 0 for a load of `e` bytes, 1 for a store of
`bytes`, and 2 for an atomic, whose operation (Table A.58) is `d` and whose operands are the words of `bytes`. One
that meets a page that moves is not taken (R311). (Log entry 90 DEDUCED.) -/
def execInboundAccess (s : State) : Answer :=
  hw s fun s =>
    match s.linkUp s.arg.a with
    | none => none
    | some r =>
      let n := if s.arg.b = 0 then s.arg.e else if s.arg.b = 1 then s.arg.bytes.length else 4
      let refuse := some (s.emit (.peerRefused r.slot))
      if r.exports s.arg.c n = false then refuse
      else if s.movingIn r.ctx s.arg.c n then none
      else match s.inboundPieces r.ctx s.arg.c n with
        | none => refuse
        | some ps =>
          if s.arg.b = 0 then
            some (s.emit (.peerData r.slot (ps.flatMap fun p => (List.range p.2).map fun i => s.systemByte (p.1.plus i))))
          else if s.arg.b = 1 then some (s.landInbound false 0 ps s.arg.bytes)
          else match ps with
            | p :: _ =>
              let old := s.wordAt p.1
              let new := atomNew s.arg.d old (BitVec.ofNat 32 (w32 s.arg.bytes 0)) (BitVec.ofNat 32 (w32 s.arg.bytes 4))
              let s := s.emit (.peerData r.slot (leBytes 4 old.toNat))
              some (if s.arg.d = 9 ∧ old ≠ BitVec.ofNat 32 (w32 s.arg.bytes 0) then s
                else s.unitStore p.1 (leBytes 4 new.toNat))
            | [] => refuse

/-! ### ST 2110 streams -/

/-- Bytes of one whole line of a video stream; for the other kinds the unit is a packet (R350). -/
def Queue.lineBytes (q : Queue) : Nat := linePayload q.samp q.width

/-- Whether a line has arrived whole. -/
def Queue.lineWhole (q : Queue) (f : Frame) (line : Nat) : Bool :=
  let ps := f.got.filter fun p => p.1 == line
  if q.ess = 0 then
    (List.range q.lineBytes).all fun i => ps.any fun p => decide (p.2.1 ≤ i) && decide (i < p.2.1 + p.2.2)
  else !ps.isEmpty

/-- Ranges of missing lines among `n` lines from `first` on: ascending, disjoint and merged (R352). -/
def missingRanges (whole : Nat → Bool) : Nat → Nat → Option Nat → List (Nat × Nat)
  | first, 0, some a => [(a, first - 1)]
  | _, 0, none => []
  | first, n + 1, open_ =>
    if whole first then
      (match open_ with
       | some a => (a, first - 1) :: missingRanges whole (first + 1) n none
       | none => missingRanges whole (first + 1) n none)
    else missingRanges whole (first + 1) n (some (open_.getD first))

/-- The ranges that an entry's lanes 10 to 31 hold: the first eleven, the eleventh running to the last missing line where
there are more. -/
def shownRanges (rs : List (Nat × Nat)) : List (Nat × Nat) :=
  if rs.length ≤ 11 then rs
  else
    let last := match rs.getLast? with
      | some r => r.2
      | none => 0
    rs.take 10 ++ [((rs.getD 10 (0, 0)).1, last)]

/-- The register of a STREAM entry over lines `first` to `last` (Table C.34). (Log entry 86 DEDUCED.) -/
def Queue.streamEntry (q : Queue) (f : Frame) (unlocked : Bool) (first last : Nat) : Vec :=
  let rs := missingRanges (q.lineWhole f) first (last + 1 - first) none
  let sh := shownRanges rs
  let sec := f.stamp / 1000000000
  vmk fun l =>
    if l = 0 then BitVec.ofNat 32 f.index
    else if l = 1 then BitVec.ofNat 32 ((if rs.isEmpty then 0 else 1) + (if unlocked then 2 else 0))
    else if l = 2 then BitVec.ofNat 32 first
    else if l = 3 then BitVec.ofNat 32 last
    else if l = 4 then BitVec.ofNat 32 sec
    else if l = 5 then BitVec.ofNat 32 (sec / 2 ^ 32 % 2 ^ 16)
    else if l = 6 then BitVec.ofNat 32 (f.stamp % 1000000000)
    else if l = 7 then f.ts
    else if l = 8 then BitVec.ofNat 32 (f.index % max q.nbuf 1)
    else if l = 9 then BitVec.ofNat 32 rs.length
    else
      let r := sh.getD ((l - 10) / 2) (0, 0)
      BitVec.ofNat 32 (if l % 2 = 0 then r.1 else r.2)

/-- An entry pushed, or dropped and counted where the queue is full (R352). (Log entry 94 DEDUCED.) -/
def State.pushStream (s : State) (q : Queue) (v : Vec) : State :=
  if q.cap ≤ q.entries.length then s.putQueue { q with droppedEntries := q.droppedEntries + 1 }
  else s.enqueue q [v] []

/-- The entry over some lines pushed for the open frame of the queue in a slot. (Log entry 86 DEDUCED.) -/
def State.pushLines (s : State) (slot first last : Nat) : State :=
  match s.queue? slot with
  | none => s
  | some q => match q.frame with
    | none => s
    | some f => s.pushStream q (q.streamEntry f (!s.ptpLocked) first last)

/-- First and last line of each slice of a frame, by its number; none where SLICE is 0. -/
def Queue.slices (q : Queue) : List (Nat × Nat × Nat) :=
  if q.slice = 0 then []
  else (List.range ((q.height + q.slice - 1) / q.slice)).map fun k => (k, k * q.slice, min ((k + 1) * q.slice) q.height - 1)

/-- FRAME_CLOSE (R352): the slices not yet reported are pushed in ascending order, then the frame entry. -/
def State.closeFrame (s : State) (slot : Nat) (partial_ : Bool) : State :=
  match s.queue? slot with
  | none => s
  | some q => match q.frame with
    | none => s
    | some f =>
      let s := s.each (q.slices.filter fun x => !f.slicesDone.contains x.1) fun s x => s.pushLines slot x.2.1 x.2.2
      let s := s.pushLines slot 0 (q.height - 1)
      match s.queue? slot with
      | none => s
      | some q => (s.putQueue { q with frame := none, partials := if partial_ then q.partials + 1 else q.partials }).writeStanding slot

/-- FRAME_OPEN (R351) at a newer packet. -/
def State.openFrame (s : State) (q : Queue) (ts : Word) (stamp seq : Nat) : State :=
  let f : Frame := { index := q.frames, ts := ts, stamp := stamp, opened := s.clk, firstSeq := seq, got := [], slicesDone := [] }
  (s.putQueue { q with frame := some f, frames := q.frames + 1, ref := some ts }).writeStanding q.slot

/-- A packet's bytes written into the open frame's slot (R351); what lies beyond a line's stride or the frame's last line
is discarded. (Log entry 93 DEDUCED.) -/
def State.landLine (s : State) (q : Queue) (f : Frame) (line off : Nat) (bytes : List Byte) : State :=
  let bs := bytes.take (q.stride - off)
  if q.height ≤ line ∨ bs = [] then s
  else
    let r := s.writeVa q.ctx (q.bufVa + q.slotSz * (f.index % max q.nbuf 1) + q.stride * line + off) bs
    if r.2 = 0 then r.1.putQueue { q with frame := some { f with got := f.got ++ [(line, off, bs.length)] } } else r.1

/-- SLICE_ENTRY (R352): every slice whose lines have all arrived whole is reported. -/
def State.pushSlices (s : State) (slot : Nat) : State :=
  match s.queue? slot with
  | none => s
  | some q => match q.frame with
    | none => s
    | some f =>
      let done := q.slices.filter fun x => !f.slicesDone.contains x.1
        && (List.range (x.2.2 + 1 - x.2.1)).all fun i => q.lineWhole f (x.2.1 + i)
      let s := s.each done fun s x => s.pushLines slot x.2.1 x.2.2
      match s.queue? slot with
      | none => s
      | some q => s.putQueue { q with frame := some { f with slicesDone := f.slicesDone ++ done.map Prod.fst } }

/-- Whether every line of the open frame has arrived whole. -/
def Queue.frameWhole (q : Queue) : Bool :=
  match q.frame with
  | none => false
  | some f => (List.range q.height).all (q.lineWhole f)

/-- A packet of the open frame: its bytes land, and slices and the frame that they complete are reported. -/
def State.takeLine (s : State) (slot line off : Nat) (bytes : List Byte) : State :=
  match s.queue? slot with
  | none => s
  | some q => match q.frame with
    | none => s
    | some f =>
      let s := (s.landLine q f line off bytes).pushSlices slot
      match s.queue? slot with
      | none => s
      | some q => if q.frameWhole then s.closeFrame slot false else s

/-- How a packet's timestamp stands to the reference (R351): 0 newer, 1 equal, 2 older. (Log entry 92 DEDUCED.) -/
def Queue.age (q : Queue) (ts : Word) : Nat :=
  match q.ref with
  | none => 0
  | some r => if ts = r then 1 else if (ts - r).toNat < 2 ^ 31 then 0 else 2

/-- A packet judged against the reference (R351). -/
def State.takePacket (s : State) (slot : Nat) (ts : Word) (seq stamp line off : Nat) (bytes : List Byte) : State :=
  let s := match s.queue? slot with
    | some q => (match q.frame with
      | some f => if f.stamp + 1000 * q.deadline < stamp then s.closeFrame slot true else s
      | none => s)
    | none => s
  match s.queue? slot with
  | none => s
  | some q =>
    let age := q.age ts
    if age = 2 ∨ (age = 1 ∧ q.frame = none) then (s.putQueue { q with late := q.late + 1 }).writeStanding slot
    else
      let s := if age = 0 then
          (let s := if q.frame.isSome then s.closeFrame slot true else s
           match s.queue? slot with
           | some q => s.openFrame q ts stamp seq
           | none => s)
        else s
      match s.queue? slot with
      | none => s
      | some q =>
        let first := match q.frame with
          | some f => f.firstSeq
          | none => seq
        let line := if q.ess = 0 then line else (seq + 2 ^ 16 - first % 2 ^ 16) % 2 ^ 16
        s.takeLine slot line (if q.ess = 0 then off else 0) bytes

/-- The PTP clock's time in ns (R349): it runs on from when it was last set, at 940 clk a microsecond.
(Log entry 153 DEDUCED.) -/
def State.ptpNow (s : State) : Nat := s.ptpNs + (s.clk - s.ptpSet) * 1000 / 940

/-- STREAM_PACKET for the queue in slot `a` (R351): RTP timestamp `b`, sequence number `c`, and `bytes` for line `e` from
its byte `f` on; its arrival stamp is the PTP clock's time (R349). `nats` holds the packet's source address, multicast group, UDP
port, port and sub-port, which must be those of the queue's record (R350). None is taken while a page of the stream's
buffers moves (R311). -/
def execStreamPacket (s : State) : Answer :=
  hw s fun s =>
    match s.queue? s.arg.a with
    | none => none
    | some q =>
      match s.arg.nats with
      | [source, group, udp, port, sub] =>
        if q.kind == .stream && q.isOpen && !q.closed && (q.source == 0 || q.source == source) && q.group == group
            && q.udp == udp && q.port == port && q.sub == sub && (s.port port).up
            && !s.movingIn q.ctx q.bufVa (q.slotSz * max q.nbuf 1) then
          some (s.takePacket q.slot (BitVec.ofNat 32 s.arg.b) s.arg.c s.ptpNow s.arg.e s.arg.f s.arg.bytes)
        else none
      | _ => none

/-- STREAM_DEADLINE of the queue in slot `a` (R351): DEADLINE µs after the stamp of the open frame's first packet. -/
def execStreamDeadline (s : State) : Answer :=
  hw s fun s =>
    match s.queue? s.arg.a with
    | none => none
    | some q => match q.frame with
      | none => none
      | some f => if f.opened + 940 * q.deadline ≤ s.clk then some (s.closeFrame q.slot true) else none

/-- PTP_LOCK (R349): the clock locks to sub-port `b` of port `a`, which firmware has chosen, in domain `d`, and takes the
time `c` in ns. (Log entry 153 DEDUCED.) -/
def execPtpLock (s : State) : Answer :=
  hw s fun s => some { s with
    ptpLocked := true, ptpNs := s.arg.c, ptpSet := s.clk, ptpPort := s.arg.a, ptpSub := s.arg.b, ptpDomain := s.arg.d }

/-- PTP_LOCK_LOSS (R349): the clock runs on freely. -/
def execPtpLockLoss (s : State) : Answer := hw s fun s => some { s with ptpLocked := false }

end Sys2Proof.Machine
end

