-- ==== Sys2Proof/Machine/Ready.lean ====
section
/-!
DEFINITION. When a group is ready (R205) and what readiness looks at: the registers that an instruction writes and names,
its counter, the next instruction and its fetch (R211), the banks of the register file (R221), and folded chains (R260).
-/

namespace Sys2Proof.Machine

/-! ### What an instruction touches -/

/-- The word that an EXT pair executes. -/
def extCore (i : Instr) : Instr :=
  match i with
  | .ext _ w => (match decode32 w.toNat with
    | .ok j => j
    | .error _ => i)
  | _ => i

/-- Vector registers that an instruction writes, under a format (R49). -/
def vDstOf (fmt : Word) (i : Instr) : List Nat :=
  match i with
  | .vaddI d _ _ => [d.toNat]
  | .vsubI d _ _ => [d.toNat]
  | .vmullo d _ _ => [d.toNat]
  | .vmulhiS d _ _ => [d.toNat]
  | .vmulhiZ d _ _ => [d.toNat]
  | .vand d _ _ => [d.toNat]
  | .vor d _ _ => [d.toNat]
  | .vxor d _ _ => [d.toNat]
  | .vshl d _ _ => [d.toNat]
  | .vshrz d _ _ => [d.toNat]
  | .vshrs d _ _ => [d.toNat]
  | .vminS d _ _ => [d.toNat]
  | .vmaxS d _ _ => [d.toNat]
  | .vminZ d _ _ => [d.toNat]
  | .vmaxZ d _ _ => [d.toNat]
  | .vrotl d _ _ => [d.toNat]
  | .vaddF d _ _ => [d.toNat]
  | .vsubF d _ _ => [d.toNat]
  | .vmulF d _ _ => [d.toNat]
  | .vfmaF d _ _ => [d.toNat]
  | .vfnmaF d _ _ => [d.toNat]
  | .vminF d _ _ => [d.toNat]
  | .vmaxF d _ _ => [d.toNat]
  | .vcpsgn d _ _ => [d.toNat]
  | .vaddH d _ _ => [d.toNat]
  | .vmulH d _ _ => [d.toNat]
  | .vfmaH d _ _ => [d.toNat]
  | .vdot2H d _ _ => [d.toNat]
  | .vaddBf d _ _ => [d.toNat]
  | .vmulBf d _ _ => [d.toNat]
  | .vfmaBf d _ _ => [d.toNat]
  | .vdot2Bf d _ _ => [d.toNat]
  | .vaddi d _ _ => [d.toNat]
  | .vandi d _ _ => [d.toNat]
  | .vori d _ _ => [d.toNat]
  | .vxori d _ _ => [d.toNat]
  | .vshli d _ _ => [d.toNat]
  | .vshrzi d _ _ => [d.toNat]
  | .vshrsi d _ _ => [d.toNat]
  | .vmuli d _ _ => [d.toNat]
  | .vcvtfS d _ => [d.toNat]
  | .vcvtsF d _ => [d.toNat]
  | .vcvtfZ d _ => [d.toNat]
  | .vcvtzF d _ => [d.toNat]
  | .vpkf8 d _ => [d.toNat]
  | .vrcp d _ => [d.toNat]
  | .vrsq d _ => [d.toNat]
  | .vsqrt d _ => [d.toNat]
  | .vexp2 d _ => [d.toNat]
  | .vlog2 d _ => [d.toNat]
  | .vsinpi d _ => [d.toNat]
  | .vcospi d _ => [d.toNat]
  | .vtanh d _ => [d.toNat]
  | .vabsF d _ => [d.toNat]
  | .vnegF d _ => [d.toNat]
  | .vfloor d _ => [d.toNat]
  | .vfract d _ => [d.toNat]
  | .vabsI d _ => [d.toNat]
  | .vnegI d _ => [d.toNat]
  | .vnot d _ => [d.toNat]
  | .vpopc d _ => [d.toNat]
  | .vclz d _ => [d.toNat]
  | .vbrev d _ => [d.toNat]
  | .vshfl d _ _ => [d.toNat]
  | .vshflx d _ _ => [d.toNat]
  | .vshflup d _ _ => [d.toNat]
  | .vshfldn d _ _ => [d.toNat]
  | .vbcast d _ _ => [d.toNat]
  | .vraddF d _ => [d.toNat]
  | .vrmaxF d _ => [d.toNat]
  | .vscanF d _ => [d.toNat]
  | .vbcs d _ => [d.toNat]
  | .vlaneid d => [d.toNat]
  | .vsetl d _ _ => [d.toNat]
  | .vmov d _ => [d.toNat]
  | .vaddI16 d _ => [d.toNat]
  | .vsubI16 d _ => [d.toNat]
  | .vand16 d _ => [d.toNat]
  | .vor16 d _ => [d.toNat]
  | .vxor16 d _ => [d.toNat]
  | .vshl16 d _ => [d.toNat]
  | .vshrz16 d _ => [d.toNat]
  | .vaddF16 d _ => [d.toNat]
  | .vsubF16 d _ => [d.toNat]
  | .vmulF16 d _ => [d.toNat]
  | .vmaxF16 d _ => [d.toNat]
  | .vminF16 d _ => [d.toNat]
  | .vmullo16 d _ => [d.toNat]
  | .vshrs16 d _ => [d.toNat]
  | .vnot16 d _ => [d.toNat]
  | .vcvt d _ => regsFrom d.toNat (cvtWrites fmt)
  | .vpkbx8 d _ => [d.toNat, d.toNat + 1]
  | .vpkbx4 d _ => [d.toNat, d.toNat + 1]
  | .vupbx8 d _ => regsFrom d.toNat 4
  | .vupbx4 d _ => regsFrom d.toNat 8
  | .vupf8 d _ => regsFrom d.toNat 4
  | .ld d _ _ w _ _ => regsFrom d.toNat (accRegs w)
  | .atomAdd d _ _ _ => [d.toNat]
  | .atomMinS d _ _ _ => [d.toNat]
  | .atomMaxS d _ _ _ => [d.toNat]
  | .atomMinZ d _ _ _ => [d.toNat]
  | .atomMaxZ d _ _ _ => [d.toNat]
  | .atomAnd d _ _ _ => [d.toNat]
  | .atomOr d _ _ _ => [d.toNat]
  | .atomXor d _ _ _ => [d.toNat]
  | .atomXchg d _ _ _ => [d.toNat]
  | .atomCas d _ _ _ => [d.toNat]
  | .atomAddF d _ _ _ => [d.toNat]
  | .atomMaxF d _ _ _ => [d.toNat]
  | .atomMinF d _ _ _ => [d.toNat]
  | .spld d _ _ => [d.toNat]
  | .vtaglk d _ _ => [d.toNat]
  | .tagclr d _ _ => [d.toNat]
  | .spatadd d _ _ => [d.toNat]
  | .spataddF d _ _ => [d.toNat]
  | .spldq d _ _ => regsFrom d.toNat 4
  | .qget _ r n => regsFrom r.toNat (n2Regs n)
  | .qtry _ r n _ => regsFrom r.toNat (n2Regs n)
  | .qtryp _ r n _ => regsFrom r.toNat (n2Regs n)
  | .pld _ v _ => [v.toNat]
  | .pqry _ v _ => [v.toNat, v.toNat + 1]
  | .accrd _ v _ => [v.toNat]
  | .accrdc _ v _ => if accBx (fmtCF fmt) then [v.toNat, v.toNat + 1] else [v.toNat]
  | _ => []

/-- Scalar registers that an instruction writes. -/
def sDstOf (i : Instr) : List Nat :=
  match i with
  | .vcmpEqF d _ _ => [d.toNat]
  | .vcmpNeF d _ _ => [d.toNat]
  | .vcmpLtF d _ _ => [d.toNat]
  | .vcmpLeF d _ _ => [d.toNat]
  | .vcmpGtF d _ _ => [d.toNat]
  | .vcmpGeF d _ _ => [d.toNat]
  | .vcmpUnF d _ _ => [d.toNat]
  | .vcmpOrF d _ _ => [d.toNat]
  | .vcmpEqI d _ _ => [d.toNat]
  | .vcmpNeI d _ _ => [d.toNat]
  | .vcmpLtS d _ _ => [d.toNat]
  | .vcmpLeS d _ _ => [d.toNat]
  | .vcmpLtZ d _ _ => [d.toNat]
  | .vcmpLeZ d _ _ => [d.toNat]
  | .vcmpTst d _ _ => [d.toNat]
  | .vcmpNtst d _ _ => [d.toNat]
  | .vmovsl _ s _ => [s.toNat]
  | .sadd d _ _ => [d.toNat]
  | .ssub d _ _ => [d.toNat]
  | .smul d _ _ => [d.toNat]
  | .smulhs d _ _ => [d.toNat]
  | .smulhz d _ _ => [d.toNat]
  | .sand d _ _ => [d.toNat]
  | .sor d _ _ => [d.toNat]
  | .sxor d _ _ => [d.toNat]
  | .sandn d _ _ => [d.toNat]
  | .sshl d _ _ => [d.toNat]
  | .sshrz d _ _ => [d.toNat]
  | .sshrs d _ _ => [d.toNat]
  | .smins d _ _ => [d.toNat]
  | .smaxs d _ _ => [d.toNat]
  | .sminz d _ _ => [d.toNat]
  | .smaxz d _ _ => [d.toNat]
  | .sslts d _ _ => [d.toNat]
  | .ssltz d _ _ => [d.toNat]
  | .sseq d _ _ => [d.toNat]
  | .spopc d _ => [d.toNat]
  | .sctz d _ => [d.toNat]
  | .sclz d _ => [d.toNat]
  | .sbfe d _ _ => [d.toNat]
  | .sbfi d _ _ => [d.toNat]
  | .ssel d _ _ => [d.toNat]
  | .saddi d _ _ => [d.toNat]
  | .sandi d _ _ => [d.toNat]
  | .sori d _ _ => [d.toNat]
  | .sxori d _ _ => [d.toNat]
  | .slui d _ => [d.toNat]
  | .srd d _ => [d.toNat]
  | .sgetexec d => [d.toNat]
  | .sld d _ _ => [d.toNat]
  | .satadd d _ _ => [d.toNat]
  | .satcas d _ _ => [d.toNat]
  | .spollne d _ _ => [d.toNat]
  | .sldacq d _ _ => [d.toNat]
  | .sadd64 d _ _ => pairRegs d.toNat
  | .ssub64 d _ _ => pairRegs d.toNat
  | .sshl64 d _ _ => pairRegs d.toNat
  | .sshrz64 d _ _ => pairRegs d.toNat
  | .sld64 d _ _ => pairRegs d.toNat
  | .fmtget d => [d.toNat]
  | .qtry _ _ _ d => [d.toNat]
  | .qtryp _ _ _ d => [d.toNat]
  | .qstat _ d => [d.toNat]
  | .kstat _ a => [a.toNat]
  | .kbytes _ a => pairRegs a.toNat
  | .call _ => [61]
  | .callr _ => [61]
  | _ => []

/-- Vector registers that an instruction reads, under a format. -/
def vSrcOf (fmt : Word) (i : Instr) : List Nat :=
  match i with
  | .vaddI _ a b => [a.toNat, b.toNat]
  | .vsubI _ a b => [a.toNat, b.toNat]
  | .vmullo _ a b => [a.toNat, b.toNat]
  | .vmulhiS _ a b => [a.toNat, b.toNat]
  | .vmulhiZ _ a b => [a.toNat, b.toNat]
  | .vand _ a b => [a.toNat, b.toNat]
  | .vor _ a b => [a.toNat, b.toNat]
  | .vxor _ a b => [a.toNat, b.toNat]
  | .vshl _ a b => [a.toNat, b.toNat]
  | .vshrz _ a b => [a.toNat, b.toNat]
  | .vshrs _ a b => [a.toNat, b.toNat]
  | .vminS _ a b => [a.toNat, b.toNat]
  | .vmaxS _ a b => [a.toNat, b.toNat]
  | .vminZ _ a b => [a.toNat, b.toNat]
  | .vmaxZ _ a b => [a.toNat, b.toNat]
  | .vrotl _ a b => [a.toNat, b.toNat]
  | .vaddF _ a b => [a.toNat, b.toNat]
  | .vsubF _ a b => [a.toNat, b.toNat]
  | .vmulF _ a b => [a.toNat, b.toNat]
  | .vfmaF _ a b => [a.toNat, b.toNat]
  | .vfnmaF _ a b => [a.toNat, b.toNat]
  | .vminF _ a b => [a.toNat, b.toNat]
  | .vmaxF _ a b => [a.toNat, b.toNat]
  | .vcpsgn _ a b => [a.toNat, b.toNat]
  | .vaddH _ a b => [a.toNat, b.toNat]
  | .vmulH _ a b => [a.toNat, b.toNat]
  | .vfmaH _ a b => [a.toNat, b.toNat]
  | .vdot2H _ a b => [a.toNat, b.toNat]
  | .vaddBf _ a b => [a.toNat, b.toNat]
  | .vmulBf _ a b => [a.toNat, b.toNat]
  | .vfmaBf _ a b => [a.toNat, b.toNat]
  | .vdot2Bf _ a b => [a.toNat, b.toNat]
  | .vcmpEqF _ a b => [a.toNat, b.toNat]
  | .vcmpNeF _ a b => [a.toNat, b.toNat]
  | .vcmpLtF _ a b => [a.toNat, b.toNat]
  | .vcmpLeF _ a b => [a.toNat, b.toNat]
  | .vcmpGtF _ a b => [a.toNat, b.toNat]
  | .vcmpGeF _ a b => [a.toNat, b.toNat]
  | .vcmpUnF _ a b => [a.toNat, b.toNat]
  | .vcmpOrF _ a b => [a.toNat, b.toNat]
  | .vcmpEqI _ a b => [a.toNat, b.toNat]
  | .vcmpNeI _ a b => [a.toNat, b.toNat]
  | .vcmpLtS _ a b => [a.toNat, b.toNat]
  | .vcmpLeS _ a b => [a.toNat, b.toNat]
  | .vcmpLtZ _ a b => [a.toNat, b.toNat]
  | .vcmpLeZ _ a b => [a.toNat, b.toNat]
  | .vcmpTst _ a b => [a.toNat, b.toNat]
  | .vcmpNtst _ a b => [a.toNat, b.toNat]
  | .vaddi _ a _ => [a.toNat]
  | .vandi _ a _ => [a.toNat]
  | .vori _ a _ => [a.toNat]
  | .vxori _ a _ => [a.toNat]
  | .vshli _ a _ => [a.toNat]
  | .vshrzi _ a _ => [a.toNat]
  | .vshrsi _ a _ => [a.toNat]
  | .vmuli _ a _ => [a.toNat]
  | .vcvt _ a => regsFrom a.toNat (cvtReads fmt)
  | .vcvtfS _ a => [a.toNat]
  | .vcvtsF _ a => [a.toNat]
  | .vcvtfZ _ a => [a.toNat]
  | .vcvtzF _ a => [a.toNat]
  | .vpkbx8 _ a => regsFrom a.toNat 4
  | .vupbx8 _ a => [a.toNat, a.toNat + 1]
  | .vpkbx4 _ a => regsFrom a.toNat 8
  | .vupbx4 _ a => [a.toNat, a.toNat + 1]
  | .vpkf8 _ a => regsFrom a.toNat 4
  | .vupf8 _ a => [a.toNat]
  | .vrcp _ a => [a.toNat]
  | .vrsq _ a => [a.toNat]
  | .vsqrt _ a => [a.toNat]
  | .vexp2 _ a => [a.toNat]
  | .vlog2 _ a => [a.toNat]
  | .vsinpi _ a => [a.toNat]
  | .vcospi _ a => [a.toNat]
  | .vtanh _ a => [a.toNat]
  | .vabsF _ a => [a.toNat]
  | .vnegF _ a => [a.toNat]
  | .vfloor _ a => [a.toNat]
  | .vfract _ a => [a.toNat]
  | .vabsI _ a => [a.toNat]
  | .vnegI _ a => [a.toNat]
  | .vnot _ a => [a.toNat]
  | .vpopc _ a => [a.toNat]
  | .vclz _ a => [a.toNat]
  | .vbrev _ a => [a.toNat]
  | .vshfl _ a b => [a.toNat, b.toNat]
  | .vshflx _ a _ => [a.toNat]
  | .vshflup _ a _ => [a.toNat]
  | .vshfldn _ a _ => [a.toNat]
  | .vbcast _ a _ => [a.toNat]
  | .vraddF _ a => [a.toNat]
  | .vrmaxF _ a => [a.toNat]
  | .vscanF _ a => [a.toNat]
  | .vmovsl a _ _ => [a.toNat]
  | .ld _ _ o _ _ _ => [o.toNat]
  | .st d _ o w _ => o.toNat :: regsFrom d.toNat (accRegs w)
  | .atomAdd d _ o _ => [d.toNat, o.toNat]
  | .atomMinS d _ o _ => [d.toNat, o.toNat]
  | .atomMaxS d _ o _ => [d.toNat, o.toNat]
  | .atomMinZ d _ o _ => [d.toNat, o.toNat]
  | .atomMaxZ d _ o _ => [d.toNat, o.toNat]
  | .atomAnd d _ o _ => [d.toNat, o.toNat]
  | .atomOr d _ o _ => [d.toNat, o.toNat]
  | .atomXor d _ o _ => [d.toNat, o.toNat]
  | .atomXchg d _ o _ => [d.toNat, o.toNat]
  | .atomCas d _ o _ => [d.toNat, d.toNat + 1, o.toNat]
  | .atomAddF d _ o _ => [d.toNat, o.toNat]
  | .atomMaxF d _ o _ => [d.toNat, o.toNat]
  | .atomMinF d _ o _ => [d.toNat, o.toNat]
  | .spld _ a _ => [a.toNat]
  | .spldq _ a _ => [a.toNat]
  | .spst d a _ => [d.toNat, a.toNat]
  | .spstq d a _ => a.toNat :: regsFrom d.toNat 4
  | .vtaglk _ a _ => [a.toNat]
  | .tagset d a _ => [d.toNat, a.toNat]
  | .tagclr _ a _ => [a.toNat]
  | .spatadd d a _ => [d.toNat, a.toNat]
  | .spataddF d a _ => [d.toNat, a.toNat]
  | .qput _ r n => regsFrom r.toNat (n2Regs n)
  | .pld _ _ o => [o.toNat]
  | .pst _ v o => [v.toNat, o.toNat]
  | .pqry _ _ o => [o.toNat]
  | .accwr _ v _ => [v.toNat]
  | .vmov _ a => [a.toNat]
  | .vaddI16 _ a => [a.toNat]
  | .vsubI16 _ a => [a.toNat]
  | .vand16 _ a => [a.toNat]
  | .vor16 _ a => [a.toNat]
  | .vxor16 _ a => [a.toNat]
  | .vshl16 _ a => [a.toNat]
  | .vshrz16 _ a => [a.toNat]
  | .vaddF16 _ a => [a.toNat]
  | .vsubF16 _ a => [a.toNat]
  | .vmulF16 _ a => [a.toNat]
  | .vmaxF16 _ a => [a.toNat]
  | .vminF16 _ a => [a.toNat]
  | .vmullo16 _ a => [a.toNat]
  | .vshrs16 _ a => [a.toNat]
  | .vnot16 _ a => [a.toNat]
  | _ => []

/-- The counter that an instruction raises (Table A.7). -/
def pathOf (i : Instr) : Option Nat :=
  match i with
  | .ld _ _ _ _ _ _ => some 0
  | .sld _ _ _ => some 0
  | .sld64 _ _ _ => some 0
  | .sldacq _ _ _ => some 0
  | .spollne _ _ _ => some 0
  | .xlate _ _ => some 0
  | .st _ _ _ _ _ => some 1
  | .sst _ _ _ => some 1
  | .sst64 _ _ _ => some 1
  | .spld _ _ _ => some 2
  | .spldq _ _ _ => some 2
  | .spst _ _ _ => some 2
  | .spstq _ _ _ => some 2
  | .vtaglk _ _ _ => some 2
  | .tagset _ _ _ => some 2
  | .tagclr _ _ _ => some 2
  | .spatadd _ _ _ => some 2
  | .spataddF _ _ _ => some 2
  | .pld _ _ _ => some 2
  | .pst _ _ _ => some 2
  | .atomAdd _ _ _ _ => some 3
  | .atomMinS _ _ _ _ => some 3
  | .atomMaxS _ _ _ _ => some 3
  | .atomMinZ _ _ _ _ => some 3
  | .atomMaxZ _ _ _ _ => some 3
  | .atomAnd _ _ _ _ => some 3
  | .atomOr _ _ _ _ => some 3
  | .atomXor _ _ _ _ => some 3
  | .atomXchg _ _ _ _ => some 3
  | .atomCas _ _ _ _ => some 3
  | .atomAddF _ _ _ _ => some 3
  | .atomMaxF _ _ _ _ => some 3
  | .atomMinF _ _ _ _ => some 3
  | .satadd _ _ _ => some 3
  | .satcas _ _ _ => some 3
  | .qget _ _ _ => some 4
  | .qtry _ _ _ _ => some 4
  | .qtryp _ _ _ _ => some 4
  | _ => none

/-- Memory, scratchpad, queue, copy and plane instructions, which an acquire holds back (R229). -/
def reachesOf (i : Instr) : Bool :=
  match i with
  | .qbind _ _ _ => true
  | .qput _ _ _ => true
  | .qstat _ _ => true
  | .qunbind _ => true
  | .cpy _ _ _ _ _ => true
  | .kstat _ _ => true
  | .kbytes _ _ => true
  | .kclr _ => true
  | .kreplay _ => true
  | .pstep .. => true
  | .pqry _ _ _ => true
  | j => (pathOf j).isSome

/-- The translation register through which an instruction reaches memory (R26); a CPY whose card lies in the window reads
none. -/
def fillReg (g : Group) (i : Instr) : Option Nat :=
  match i with
  | .ld _ b _ _ _ _ => some b.toNat
  | .st _ b _ _ _ => some b.toNat
  | .atomAdd _ b _ _ => some b.toNat
  | .atomMinS _ b _ _ => some b.toNat
  | .atomMaxS _ b _ _ => some b.toNat
  | .atomMinZ _ b _ _ => some b.toNat
  | .atomMaxZ _ b _ _ => some b.toNat
  | .atomAnd _ b _ _ => some b.toNat
  | .atomOr _ b _ _ => some b.toNat
  | .atomXor _ b _ _ => some b.toNat
  | .atomXchg _ b _ _ => some b.toNat
  | .atomCas _ b _ _ => some b.toNat
  | .atomAddF _ b _ _ => some b.toNat
  | .atomMaxF _ b _ _ => some b.toNat
  | .atomMinF _ b _ _ => some b.toNat
  | .sld _ b _ => some b.toNat
  | .sld64 _ b _ => some b.toNat
  | .sst _ b _ => some b.toNat
  | .sst64 _ b _ => some b.toNat
  | .satadd _ b _ => some b.toNat
  | .satcas _ b _ => some b.toNat
  | .spollne _ b _ => some b.toNat
  | .sldacq _ b _ => some b.toNat
  | .cpy _ b a _ _ => if (g.sreg a.toNat).msb then none else some b.toNat
  | _ => none

/-- The tile that an ACC instruction names (R194). -/
def accTile (i : Instr) : Option Nat :=
  match i with
  | .accrd t _ _ => some t.toNat
  | .accwr t _ _ => some t.toNat
  | .accrdc t _ _ => some t.toNat
  | _ => none

/-- The team barriers (0), copy tokens (1) and guards (2) that an instruction uses, by kind and number (R257). -/
def usedItems (i : Instr) : List (Nat × Nat) :=
  match i with
  | .bara b => [(0, b.toNat)]
  | .barw b => [(0, b.toNat)]
  | .bars b => [(0, b.toNat)]
  | .bari b _ => [(0, b.toNat)]
  | .mwaitb b => [(0, b.toNat)]
  | .msigb b => [(0, b.toNat)]
  | .cpy k _ _ g v => (1, k.toNat) :: (if v = 1 then [(2, g.toNat)] else [])
  | .kstat k _ => [(1, k.toNat)]
  | .kbytes k _ => [(1, k.toNat)]
  | .kclr k => [(1, k.toNat)]
  | .kreplay k => [(1, k.toNat)]
  | .waitk k => [(1, k.toNat)]
  | .gset g _ => [(2, g.toNat)]
  | .gclr g => [(2, g.toNat)]
  | _ => []

/-- Instructions of the vector pipe (R219). -/
def isVectorOf (i : Instr) : Bool :=
  match i with
  | .vaddI _ _ _ => true
  | .vsubI _ _ _ => true
  | .vmullo _ _ _ => true
  | .vmulhiS _ _ _ => true
  | .vmulhiZ _ _ _ => true
  | .vand _ _ _ => true
  | .vor _ _ _ => true
  | .vxor _ _ _ => true
  | .vshl _ _ _ => true
  | .vshrz _ _ _ => true
  | .vshrs _ _ _ => true
  | .vminS _ _ _ => true
  | .vmaxS _ _ _ => true
  | .vminZ _ _ _ => true
  | .vmaxZ _ _ _ => true
  | .vrotl _ _ _ => true
  | .vaddF _ _ _ => true
  | .vsubF _ _ _ => true
  | .vmulF _ _ _ => true
  | .vfmaF _ _ _ => true
  | .vfnmaF _ _ _ => true
  | .vminF _ _ _ => true
  | .vmaxF _ _ _ => true
  | .vcpsgn _ _ _ => true
  | .vaddH _ _ _ => true
  | .vmulH _ _ _ => true
  | .vfmaH _ _ _ => true
  | .vdot2H _ _ _ => true
  | .vaddBf _ _ _ => true
  | .vmulBf _ _ _ => true
  | .vfmaBf _ _ _ => true
  | .vdot2Bf _ _ _ => true
  | .vcmpEqF _ _ _ => true
  | .vcmpNeF _ _ _ => true
  | .vcmpLtF _ _ _ => true
  | .vcmpLeF _ _ _ => true
  | .vcmpGtF _ _ _ => true
  | .vcmpGeF _ _ _ => true
  | .vcmpUnF _ _ _ => true
  | .vcmpOrF _ _ _ => true
  | .vcmpEqI _ _ _ => true
  | .vcmpNeI _ _ _ => true
  | .vcmpLtS _ _ _ => true
  | .vcmpLeS _ _ _ => true
  | .vcmpLtZ _ _ _ => true
  | .vcmpLeZ _ _ _ => true
  | .vcmpTst _ _ _ => true
  | .vcmpNtst _ _ _ => true
  | .vaddi _ _ _ => true
  | .vandi _ _ _ => true
  | .vori _ _ _ => true
  | .vxori _ _ _ => true
  | .vshli _ _ _ => true
  | .vshrzi _ _ _ => true
  | .vshrsi _ _ _ => true
  | .vmuli _ _ _ => true
  | .vcvt _ _ => true
  | .vcvtfS _ _ => true
  | .vcvtsF _ _ => true
  | .vcvtfZ _ _ => true
  | .vcvtzF _ _ => true
  | .vpkbx8 _ _ => true
  | .vupbx8 _ _ => true
  | .vpkbx4 _ _ => true
  | .vupbx4 _ _ => true
  | .vpkf8 _ _ => true
  | .vupf8 _ _ => true
  | .vrcp _ _ => true
  | .vrsq _ _ => true
  | .vsqrt _ _ => true
  | .vexp2 _ _ => true
  | .vlog2 _ _ => true
  | .vsinpi _ _ => true
  | .vcospi _ _ => true
  | .vtanh _ _ => true
  | .vabsF _ _ => true
  | .vnegF _ _ => true
  | .vfloor _ _ => true
  | .vfract _ _ => true
  | .vabsI _ _ => true
  | .vnegI _ _ => true
  | .vnot _ _ => true
  | .vpopc _ _ => true
  | .vclz _ _ => true
  | .vbrev _ _ => true
  | .vshfl _ _ _ => true
  | .vshflx _ _ _ => true
  | .vshflup _ _ _ => true
  | .vshfldn _ _ _ => true
  | .vbcast _ _ _ => true
  | .vraddF _ _ => true
  | .vrmaxF _ _ => true
  | .vscanF _ _ => true
  | .vbcs _ _ => true
  | .vmovsl _ _ _ => true
  | .vlaneid _ => true
  | .vsetl _ _ _ => true
  | .vmov _ _ => true
  | .vaddI16 _ _ => true
  | .vsubI16 _ _ => true
  | .vand16 _ _ => true
  | .vor16 _ _ => true
  | .vxor16 _ _ => true
  | .vshl16 _ _ => true
  | .vshrz16 _ _ => true
  | .vaddF16 _ _ => true
  | .vsubF16 _ _ => true
  | .vmulF16 _ _ => true
  | .vmaxF16 _ _ => true
  | .vminF16 _ _ => true
  | .vmullo16 _ _ => true
  | .vshrs16 _ _ => true
  | .vnot16 _ _ => true
  | _ => false

/-! ### The next instruction -/

/-- What a program counter has next. -/
inductive Upcoming where
  | word (i : Instr) (len sc : Nat)
  | illegal (len sc : Nat)
  | fault (cause : Nat)
  deriving DecidableEq, Repr

/-- The instruction that fetched bytes spell, with its length and its stall count. -/
def upcoming (bs : Except Nat (List Byte)) : Upcoming :=
  match bs with
  | .error c => .fault c
  | .ok bs =>
    let len := if 4 < bs.length then 8 else bs.length
    match decodeBytes bs with
    | .ok i _ => .word i len (wordSc (leNat bs))
    | .no _ => .illegal len (wordSc (leNat bs))

/-- A group's next instruction. -/
def State.nextOf (s : State) (g : Group) : Upcoming := upcoming (s.groupBytes g g.pc)

/-- A stream's next word. -/
def State.streamNext (s : State) (t : Team) (m : Stream) : Upcoming :=
  upcoming (s.fetchBytes t.ctx t.codeBase (some t.codeSize) m.pc)

/-- Bytes of a next instruction. -/
def Upcoming.bytes : Upcoming → Nat
  | .word _ n _ => n
  | .illegal n _ => n
  | .fault _ => 2

/-- The instruction-cache line that holds a code address and is not in a core's cache, with the address (R211); code on a page that moves
waits for it, and an address that does not translate has no line. -/
inductive Line where
  | present
  | away (line va : Nat)
  | moving
  deriving DecidableEq, Repr

/-- The number of a 128-byte line of memory in an instruction cache: those of device memory, of the host and of each
peer are apart. -/
def lineNo (p : PAddr) : Nat := p.a / 128 + (match p.sp with
  | .host => 2 ^ 46
  | .peer k => (k + 2) * 2 ^ 46
  | _ => 0)

/-- (Log entry 99 DEDUCED.) -/
def State.lineAt (s : State) (core ctx va : Nat) : Line :=
  match s.translate ctx va with
  | .ok loc _ _ => if (s.core core).icache.contains (lineNo loc) then .present else .away (lineNo loc) va
  | .moving => .moving
  | .fail _ => .present

/-- The first missing line of n bytes of code. -/
def State.missing (s : State) (core ctx va n : Nat) : Line :=
  match s.lineAt core ctx va with
  | .present => s.lineAt core ctx (va + n - 1)
  | x => x

/-- The line a fetch misses.  A fetch any of whose parcels lies on a page that moves waits for the page (R311).
(Log entry 99 DEDUCED.) -/
def State.fetchLine (s : State) (core ctx va : Nat) (u : Upcoming) : Line :=
  if u = .fault cMoving then .moving else s.missing core ctx va u.bytes

/-- The line a group's fetch misses. -/
def State.groupLine (s : State) (g : Group) (u : Upcoming) : Line :=
  s.fetchLine (coreOf g.die g.core) g.ctx ((s.codeOf g).1 + g.pc.toNat) u

/-- The line a stream's fetch misses. -/
def State.streamLine (s : State) (t : Team) (m : Stream) (u : Upcoming) : Line :=
  s.fetchLine t.home t.ctx (t.codeBase + m.pc.toNat) u

/-! ### Register banks (R221) -/

/-- Pool registers of a core before those of a group: groups take them in the order they were placed.
(Log entry 85 DESIGN CHOICE.) -/
def poolBefore (core gid : Nat) : List Group → Nat
  | [] => 0
  | g :: r => if g.gid = gid then 0 else (if coreOf g.die g.core = core then g.v.length else 0) + poolBefore core gid r

/-- The bank that holds a register of a group: 384 pool registers each. (Log entry 85 DESIGN CHOICE.) -/
def State.bankOf (s : State) (g : Group) (r : Nat) : Nat :=
  (poolBefore (coreOf g.die g.core) g.gid (s.groupsOn (coreOf g.die g.core)) + r) / 384

/-- Whether a group waits on an in-flight counter, or on SPOLLNE: at a WAITCNT, at an instruction that would raise a full
counter (R34), or at one that its acquire holds back. -/
def State.waitsOnCounter (s : State) (g : Group) : Bool :=
  match g.wait with
  | .waitcnt .. => true
  | .none => (match s.nextOf g with
    | .word i _ _ =>
      (reachesOf (extCore i) && g.acc.any (fun a => a.kind == .spollne && a.pendingRead))
        || (match pathOf (extCore i) with
            | some p => decide (63 ≤ g.count p)
            | none => false)
    | _ => false)
  | _ => false

/-- Whether a group has a register in a bank. -/
def State.usesBank (s : State) (g : Group) (bank : Nat) : Bool :=
  decide (0 < g.v.length) && decide (s.bankOf g 0 ≤ bank) && decide (bank ≤ s.bankOf g (g.v.length - 1))

/-- Groups that have registers in a bank of a core: those of a saved team have released theirs (Table B.1). -/
def State.bankGroups (s : State) (core bank : Nat) : List Group :=
  (s.groupsOn core).filter fun g => s.usesBank g bank

/-- Whether the banks of some registers of a group are awake. -/
def State.banksAwake (s : State) (g : Group) (rs : List Nat) : Bool :=
  let c := s.core (coreOf g.die g.core)
  rs.all fun r => !c.drowsy.contains (s.bankOf g r) && !c.waking.any fun w => w.1 == s.bankOf g r

/-! ### Ready groups (R205) -/

/-- Whether a chain lets a stage issue: in the folded form only the running stage, from the end of its switch on, and
in neither form one that its link holds back (R258 to R261). -/
def State.chainLets (s : State) (g : Group) : Bool :=
  match s.chainOf g with
  | none => true
  | some c =>
    let k := c.stageOf g.gid
    let block := match c.stages[k]? with
      | some st => st.block
      | none => .none
    c.movingTo.isNone &&
      (if c.folded then c.running == k && block == .none && decide (c.switchAt ≤ s.clk)
       else block != .qput || decide ((c.link k).entries.length < c.room) || c.stageEnded (k + 1))

/-- Whether a group's core and team let it issue: a team that runs, and a core that is not halted but for a step
(R342). -/
def State.coreLets (s : State) (g : Group) : Bool :=
  let c := s.core (coreOf g.die g.core)
  (!c.halted || c.stepSlot == some (g.slot, g.lastIssue)) && (match s.team? g.tid with
    | some t => t.state == .running
    | none => false)

/-- The conditions of R205 that do not look at the next instruction: items 1 to 4. -/
def State.groupFree (s : State) (g : Group) : Bool :=
  !g.ended && g.park.isNone && g.wait == .none && decide (g.readyAt ≤ s.clk) && s.coreLets g && s.chainLets g

/-- The translation register that an instruction writes: one whose fill is under way still awaits its write (R49, R147). -/
def bDstOf (i : Instr) : List Nat :=
  match i with
  | .xlate b _ => [b.toNat]
  | .xinv b => [b.toNat]
  | _ => []

/-- What holds an instruction at issue (R49, R34, R229, R26). -/
def Group.interlock (g : Group) (i : Instr) : Bool :=
  (vDstOf g.fmt i).any g.busyV || (sDstOf i).any g.busyS || (bDstOf i).any (fun b => (g.breg b).state == .filling)
    || (match pathOf i with
        | some p => decide (63 ≤ g.count p)
        | none => false)
    || (reachesOf i && g.acc.any fun a => a.acq.isSome && a.pendingRead)

/-- Whether an instruction waits for the fill of the translation register that it reads (R26). -/
def Group.fills (g : Group) (i : Instr) : Bool :=
  match fillReg g i with
  | some b => (g.breg b).state == .filling
  | none => false

/-- Whether the tile interlock holds an instruction (R194). -/
def State.tileHolds (s : State) (g : Group) (i : Instr) : Bool :=
  match accTile i with
  | some t => s.tileBusy g t
  | none => false

/-- Whether a group is ready with a given next instruction, but for the tile interlock and for the power states of
R220 and R221. -/
def State.readyButTile (s : State) (g : Group) (u : Upcoming) : Bool :=
  s.groupFree g && s.groupLine g u == .present && (match u with
    | .word i _ _ => !(s.duePend g).isNone || !(g.interlock (extCore i) || g.fills (extCore i))
    | _ => true)

/-- Whether a group is ready with a given next instruction, but for the power states of R220 and R221. -/
def State.readyWith (s : State) (g : Group) (u : Upcoming) : Bool :=
  s.readyButTile g u && (match u with
    | .word i _ _ => !(s.duePend g).isNone || !s.tileHolds g (extCore i)
    | _ => true)

/-- Whether the banks of an instruction's registers are awake (R221). -/
def State.banksLet (s : State) (g : Group) (u : Upcoming) : Bool :=
  match u with
  | .word i _ _ => s.banksAwake g (vDstOf g.fmt (extCore i) ++ vSrcOf g.fmt (extCore i))
  | _ => true

/-- Whether a group's island lets an instruction issue: near-threshold mode and the exit from it hold a vector
instruction (R220). -/
def State.islandLets (s : State) (g : Group) (u : Upcoming) : Bool :=
  match u with
  | .word i _ _ =>
    let isl := s.island g.island
    !isVectorOf (extCore i) || (!isl.nt && (match isl.exitAt with
      | some t => decide (t + 188 ≤ s.clk)
      | none => true))
  | _ => true

/-- Whether the power states of its island and its banks let an instruction issue (R220, R221). -/
def State.powered (s : State) (g : Group) (u : Upcoming) : Bool := s.islandLets g u && s.banksLet g u

/-- Whether a group is ready by the list of R205.  Near-threshold mode is not in it: a group that it holds is ready, and its
wait lengthens the interval of R207. -/
def State.isReady (s : State) (g : Group) : Bool :=
  s.groupFree g && (let u := s.nextOf g; s.readyWith g u && s.banksLet g u)

/-- Whether a ready group's island lets its next instruction issue (R220). -/
def State.mayIssue (s : State) (g : Group) : Bool := s.isReady g && s.islandLets g (s.nextOf g)

/-- The effective priority of a group (R41). -/
def Group.effPrio (g : Group) : Nat := g.prio - g.lower

/-- Whether a die's throttle lets it issue in this clk (R209). -/
def State.throttleLets (s : State) (die : Nat) : Bool := decide (s.clk % 16 < (s.dieMgmt die).throttle)

/-- Whether slot F holds issue slot 0 (R208): one beat of every 64. (Log entries 21 DESIGN CHOICE, 97 DESIGN CHOICE.) -/
def State.slotF (s : State) : Bool := s.clk / 4 % 64 == 63

end Sys2Proof.Machine
end

