-- ==== Sys2Proof/Machine/Mgmt.lean ====
section
/-!
DEFINITION. The management core (R373): the scalar subset of its firmware, executed on its own registers, and its traps.
-/

namespace Sys2Proof.Machine

/-! ### A machine of the core's own -/

/-- Where the firmware's code lies in it. -/
def mgmtVa : Nat := 0x10000

/-- The firmware's code as the machine's one context: its page, and the handler at an offset of the code.
(Log entry 156 DESIGN CHOICE.) -/
def mgmtCtx (handler : Nat) : Ctx := { newCtx (Rec.fresh 0) with handler := mgmtVa + handler, pceil := 7 }
def mgmtPage : Page := areaPage 0 mgmtVa (2 ^ 32) mgmtVa .dev 7 false .mapping

/-- The core as the one group of that machine, with the firmware's code placed. (Log entry 156 DESIGN CHOICE.) -/
def State.mgmtView (s : State) (code : List Byte) (handler : Nat) : State :=
  { State.reset with
    clk := s.clk, nextId := s.nextId, freeCount := s.freeCount, dev := cellsPutAll [] mgmtVa code
    ctxs := [mgmtCtx handler], pages := [mgmtPage]
    groups := [{ s.mgmt.landDue s.clk with
      gid := 0, ctx := 0, tid := 0, codeBase := mgmtVa, codeSize := code.length, wait := .none, pend := [] }] }

/-- Whether the core issues: its stall count and its delay have run out (R47, R98), and its program has not ended. -/
def State.mgmtReady (s : State) : Bool :=
  !s.mgmt.ended && decide (s.mgmt.readyAt ≤ s.clk) && (match s.mgmt.wait with
    | .dly t => decide (t ≤ s.clk)
    | _ => true)

/-! ### The subset -/

/-- Whether a word is of the scalar subset that the management core executes (R373): the majors named there, and the
functions of SSYS and SYNC that name no vector register, token, barrier, queue or plane; an EXT pair is, where R56 takes
it, if the word it widens is. (Log entry 136 DEDUCED.) -/
def mgmtRuns (w : Nat) : Bool :=
  let ext := fld w 3 5 == 0x1E
  let u := if ext then w / 2 ^ 32 else w
  let listed := [0x09, 0x0A, 0x0B, 0x0C, 0x0D, 0x0F, 0x10, 0x14].contains (fld u 3 5)
    || (fld u 3 5 == 0x16 && [0, 5, 7, 8].contains (fld u 8 5))
  u % 2 == 1 && w % 2 == 1 && listed && !(ext && fld w 1 2 != 0) && (match decode32 (u % 2 ^ 32) with
    | .ok j => !ext || takesExt j
    | .error _ => false)

/-- An SMEM function that returns a value: the spec does not say which memory the core's accesses reach, and the value is
free. (Log entry 156 DESIGN CHOICE.) -/
def mgmtLoad (even wide reads : Bool) (d : BitVec 6) (s : State) : Answer :=
  let regs := if even then pairRegs d.toNat else [d.toNat]
  instr s { vN := [], sN := regs, vR := [], sR := if reads then regs else [] }
    (fun _ _ => firstCause [(even && decide (d.toNat % 2 = 1), cIllegalOperand)]) fun i g =>
      let x := s.free
      let g := if wide then g.setPair d.toNat x.1 else g.setS d.toNat (x.1.extractLsb' 0 32)
      x.2.putGroup ((g.stamp s.clk i.sc).advance i.len)

/-- SST and SST64 there. (Log entry 156 DESIGN CHOICE.) -/
def mgmtStore (even : Bool) (d : BitVec 6) (s : State) : Answer :=
  plain s (usesS [] (if even then pairRegs d.toNat else [d.toNat]))
    (fun _ _ => firstCause [(even && decide (d.toNat % 2 = 1), cIllegalOperand)]) fun _ g => g

/-- XLATE there: its checks, and the base it writes. (Log entry 156 DESIGN CHOICE.) -/
def mgmtXlate (b : BitVec 3) (a : BitVec 6) (s : State) : Answer :=
  plain s (usesS [] (pairRegs a.toNat))
    (fun _ g => firstCause [(decide (a.toNat % 2 = 1) || decide (2 ^ 52 ≤ (g.pair a.toNat).toNat), cIllegalOperand)])
    fun _ g =>
      let r : TransReg := { g.breg b.toNat with base := BitVec.ofNat 52 (g.pair a.toNat).toNat, state := .invalid }
      { g with b := g.b.set b.toNat r }

/-- A word of the subset on the core (R373), with its meaning for a group; a memory function acts as said above. -/
def mgmtWord (i : Instr) (s : State) : Answer :=
  match i with
  | .sadd d a b => execSadd d a b s
  | .ssub d a b => execSsub d a b s
  | .smul d a b => execSmul d a b s
  | .smulhs d a b => execSmulhs d a b s
  | .smulhz d a b => execSmulhz d a b s
  | .sand d a b => execSand d a b s
  | .sor d a b => execSor d a b s
  | .sxor d a b => execSxor d a b s
  | .sandn d a b => execSandn d a b s
  | .sshl d a b => execSshl d a b s
  | .sshrz d a b => execSshrz d a b s
  | .sshrs d a b => execSshrs d a b s
  | .smins d a b => execSmins d a b s
  | .smaxs d a b => execSmaxs d a b s
  | .sminz d a b => execSminz d a b s
  | .smaxz d a b => execSmaxz d a b s
  | .sslts d a b => execSslts d a b s
  | .ssltz d a b => execSsltz d a b s
  | .sseq d a b => execSseq d a b s
  | .spopc d a => execSpopc d a s
  | .sctz d a => execSctz d a s
  | .sclz d a => execSclz d a s
  | .sbfe d a b => execSbfe d a b s
  | .sbfi d a b => execSbfi d a b s
  | .sadd64 d a b => execSadd64 d a b s
  | .ssub64 d a b => execSsub64 d a b s
  | .sshl64 d a b => execSshl64 d a b s
  | .sshrz64 d a b => execSshrz64 d a b s
  | .ssel d a b => execSsel d a b s
  | .saddi d a imm => execSaddi d a imm s
  | .sandi d a imm => execSandi d a imm s
  | .sori d a imm => execSori d a imm s
  | .sxori d a imm => execSxori d a imm s
  | .slui d imm => execSlui d imm s
  | .dly a imm => execDly a imm s
  | .srd d x => execSrd d x s
  | .swr a x => execSwr a x s
  | .sexec a => execSexec a s
  | .sexecand a => execSexecand a s
  | .sexecandn a => execSexecandn a s
  | .sgetexec d => execSgetexec d s
  | .fmtset a => execFmtset a s
  | .fmtget d => execFmtget d s
  | .jmpr a => execJmpr a s
  | .callr a => execCallr a s
  | .trap imm => execTrap imm s
  | .brk imm => execBrk imm s
  | .launch a b => execLaunch a b s
  | .gset g v => execGset g v s
  | .gclr g => execGclr g s
  | .nop => execNop s
  | .join => execJoin s
  | .ret => execRet s
  | .endI => execEndI s
  | .commit => execCommit s
  | .eret => execEret s
  | .yield => execYield s
  | .backoff => execBackoff s
  | .fpost => execFpost s
  | .brAlways o => execBrAlways o s
  | .brSz a o => execBrSz a o s
  | .brSnz a o => execBrSnz a o s
  | .brSneg a o => execBrSneg a o s
  | .brSnneg a o => execBrSnneg a o s
  | .brExecz o => execBrExecz o s
  | .brExecnz o => execBrExecnz o s
  | .brExecall o => execBrExecall o s
  | .call o => execCall o s
  | .loop a imm e => execLoop a imm e s
  | .fence sc k => execFence sc k s
  | .waitcnt p a => execWaitcnt p a s
  | .xinv b => execXinv b s
  | .xlate b a => mgmtXlate b a s
  | .sld d _ _ => mgmtLoad false false false d s
  | .sld64 d _ _ => mgmtLoad true true false d s
  | .sst d _ _ => mgmtStore false d s
  | .sst64 d _ _ => mgmtStore true d s
  | .satadd d _ _ => mgmtLoad false false true d s
  | .satcas d _ _ => mgmtLoad true false true d s
  | .spollne d _ _ => mgmtLoad false false true d s
  | .sldacq d _ _ => mgmtLoad false false false d s
  | _ => extRefused s

/-- An EXT pair widens a memory function's offset, which no longer matters, and the others as it does for a group. -/
def mgmtExec (i : Instr) (s : State) : Answer :=
  match i, s.issue with
  | .ext x w, some k =>
    (match decode32 w.toNat with
     | .ok j =>
       if fld w.toNat 3 5 = 0x14 then mgmtWord j { s with issue := some { k with ext := some x, len := 8, sc := wordSc w.toNat } }
       else execExt x w s
     | .error _ => extRefused s)
  | _, _ => mgmtWord i s

/-! ### One instruction -/

/-- What is left of a wait on a core with no access, no store and no team: a delay; END ends the program.
(Log entry 156 DESIGN CHOICE.) -/
def Group.mgmtWaits (g : Group) (len : Nat) : Group :=
  let g : Group := { g with park := none }
  match g.wait with
  | .dly _ => g
  | .commit _ true => { g with ended := true, wait := .none }
  | .commit _ false => g.advance len
  | _ => { g with wait := .none }

/-- A word executed in the core's machine. -/
def State.mgmtIssue (v : State) (g : Group) (u : Upcoming) (word : Nat) : State :=
  let v : State := { v with groups := [g] }
  let run := fun (len sc : Nat) (k : State → Answer) =>
    (match k { v with issue := some { who := .group g.gid, sc := sc, len := len, ext := none } } with
     | .next v' => { v' with groups := v'.groups.map fun g => g.mgmtWaits len }
     | _ => v)
  match u with
  | .word i len sc => run len sc (if mgmtRuns word then mgmtExec i else extRefused)
  | .illegal len sc => run len sc extRefused
  | .fault c => v.trap g c

/-- The core after an instruction, the counters it drew from, and the trap that the instruction took into the core's own
handler, with its cause and EPC.  A trap inside the handler enters it afresh. (Log entry 156 DESIGN CHOICE.) -/
def State.mgmtStep (s : State) (code : List Byte) (handler : Nat) : State × Option (Nat × Nat) :=
  let v := s.mgmtView code handler
  match v.groups with
  | [] => (s, none)
  | g :: _ =>
    let u := v.nextOf g
    let word := match v.groupBytes g g.pc with
      | .ok bs => leNat bs
      | .error _ => 0
    let out := v.mgmtIssue g u word
    let died := out.ctxs.all fun c => !c.live
    let from_ : Group := if died then { g with handler := none, codeBase := mgmtVa + handler, codeSize := 2 ^ 32 } else g
    let out := if died then v.mgmtIssue from_ u word else out
    match out.groups with
    | [] => (s, none)
    | h :: _ =>
      ({ s with mgmt := h, nextId := out.nextId, freeCount := out.freeCount },
       if h.inHandler && !from_.inHandler then some ((h.ecause.extractLsb' 0 8).toNat, h.epc.toNat) else none)

end Sys2Proof.Machine
end

