-- ==== Sys2Proof/Machine/StepsService.lean ====
section
/-!
DEFINITION. Hardware steps of the management core and of long-lived state: the Gleaner (R364, R365), voltage islands (R370 to
R372, R220), register banks (R221), temperatures, throttling and droop (R374, R375), the crash region and resets (R274, R376
to R380).
-/

namespace Sys2Proof.Machine

/-! ### The Gleaner -/

/-- GLEANER_SCRUB of the granule at device address `a`, in which `b` bits are flipped (R364): one is corrected; more
poison the granule, and the policy of its owner applies at once (R365). -/
def execGleanerScrub (s : State) : Answer :=
  hw s fun s =>
    let a := s.arg.a
    if s.arg.b = 0 then none
    else if s.arg.b = 1 then some (s.correctLine a)
    else
      let policy := s.linePolicy a
      let owner := s.ownerOf a
      let s := s.poisonLine a
      match owner with
      | some c => some (if policy = 1 then s.endContext c 0x24 0 else s)
      | none => some (s.rewriteLine a)

/-! ### Voltage islands -/

/-- Groups bound to an island: each keeps its group slot until its team retires, and a saved team holds none (R201). -/
def State.bound (s : State) (isl : Nat) : List Group :=
  s.groups.filter fun g => g.island == isl && s.holders.any fun t => t.tid == g.tid

/-- Whether an island's groups ask for near-threshold mode (R372): at least 90% of them have waited 2 µs, which is 1,880
clk, on a counter or on SPOLLNE. -/
def State.asksNear (s : State) (isl : Nat) : Bool :=
  let gs := s.bound isl
  let ws := gs.filter fun g => s.waitsOnCounter g && (match g.waitFrom with
    | some t => decide (t + 1880 ≤ s.clk)
    | none => false)
  !gs.isEmpty && decide (9 * gs.length ≤ 10 * ws.length)

/-- window_end(i) of R370. (Log entry 96 DEDUCED.) -/
def Island.windowEnd (i : Island) : Island :=
  if i.barred ∨ 0 < i.hold then { i with hold := i.hold - 1 }
  else if i.corrected ≤ 3 ∧ 645 ≤ i.vcur then { i with safe := i.vcur, vcur := i.vcur - 5 }
  else if 3 < i.corrected then
    let v := min (i.vcur + 5) 750
    { i with vcur := v, safe := v, hold := 15 }
  else i

/-- Clk of a window of 250 ms. -/
def windowClk : Nat := 250 * msClk

/-- Whether a group of an island is ready with a vector instruction (R220). -/
def State.wantsVector (s : State) (isl : Nat) : Bool :=
  (s.bound isl).any fun g =>
    let u := s.nextOf g
    !g.ended && s.readyWith g u && (match u with
      | .word w _ _ => isVectorOf (extCore w)
      | _ => false)

/-- Whether an island in normal mode enters near-threshold mode now (R372): it does so when its groups begin to ask for it,
and, having left it (R220) while they still ask, when none is ready with a vector instruction.
(Log entry 95 DEDUCED.) -/
def State.entersNear (s : State) (i : Island) : Bool :=
  !i.nt && s.asksNear i.isl && (!i.asked || !s.wantsVector i.isl)

/-- TRIM_WINDOW_END of island `a` (R370); entry to near-threshold mode in the same clk comes first (R372). -/
def execTrimWindowEnd (s : State) : Answer :=
  hw s fun s =>
    let i := s.island s.arg.a
    if i.nt = false ∧ i.windowAt + windowClk ≤ s.clk ∧ s.entersNear i = false ∧ s.arg.a < 640 then
      let j := i.windowEnd
      let step := decide (j.vcur < i.vcur)
      some (s.putIsland { j with trimmed := if step then some s.clk else j.trimmed, corrected := 0, windowAt := s.clk })
    else none

/-- BAREND_EXPIRY of island `a` (R371): SAFE is kept, and the window that the bar cut short is discarded (R370).
(Log entry 96 DEDUCED.) -/
def execBarendExpiry (s : State) : Answer :=
  hw s fun s =>
    let i := s.island s.arg.a
    if i.barred ∧ 940 * i.barEnd ≤ s.clk then
      some (s.putIsland { i with barred := false, corrected := 0, windowAt := s.clk })
    else none

/-- NEAR_THRESHOLD_ENTRY of island `a` (R372): the running window is discarded. (Log entry 95 DEDUCED.) -/
def execNearThresholdEntry (s : State) : Answer :=
  hw s fun s =>
    let i := s.island s.arg.a
    if s.entersNear i then
      some (s.putIsland { i with nt := true, corrected := 0, windowAt := s.clk, asked := true })
    else none

/-- NEAR_THRESHOLD_EXIT of island `a` (R220, R372): a group of it is ready with a vector instruction.  A new window
starts. -/
def execNearThresholdExit (s : State) : Answer :=
  hw s fun s =>
    let i := s.island s.arg.a
    if i.nt ∧ s.wantsVector i.isl then
      some (s.putIsland { i with nt := false, exitAt := some s.clk, corrected := 0, windowAt := s.clk })
    else none

/-! ### Register banks -/

/-- BANK_DROWSY of bank `b` of core `a` (R221): every group that has registers in it waits on a counter or on SPOLLNE, or
none has. (Log entry 98 DEDUCED.) -/
def execBankDrowsy (s : State) : Answer :=
  hw s fun s =>
    let c := s.core s.arg.a
    if s.enabled s.arg.a && decide (s.arg.b < 16) && !c.drowsy.contains s.arg.b && !c.waking.any (fun w => w.1 == s.arg.b)
        && (s.bankGroups s.arg.a s.arg.b).all s.waitsOnCounter then
      some (s.putCore { c with drowsy := c.drowsy ++ [s.arg.b] })
    else none

/-- A drowsy bank begins its wake of 8 clk: at the first return to one of its groups, or when one becomes ready by
every other condition. (Log entry 131 DEDUCED.) -/
def State.beginWakes (s : State) : State :=
  let s := s.each s.cores fun s k =>
    if k.drowsy = [] then s
    else
      let back := k.drowsy.filter fun b => (s.bankGroups k.core b).any Group.back
      let up := k.drowsy.filter fun b => !back.contains b && (s.bankGroups k.core b).any fun g => s.readyWith g (s.nextOf g)
      let c := s.core k.core
      if back = [] ∧ up = [] then s
      else s.putCore { c with
        drowsy := c.drowsy.filter (fun b => !up.contains b && !back.contains b)
        waking := c.waking ++ back.map (fun b => (b, s.clk + 7)) ++ up.map fun b => (b, s.clk + 8) }
  { s with groups := s.groups.map fun g => { g with back := false } }

/-- BANK_WAKE of bank `b` of core `a` (R221): its wake completes. -/
def execBankWake (s : State) : Answer :=
  hw s fun s =>
    let c := s.core s.arg.a
    match c.waking.find? (fun w => w.1 == s.arg.b) with
    | some w => if w.2 ≤ s.clk then some (s.putCore { c with waking := c.waking.filter fun w => w.1 ≠ s.arg.b }) else none
    | none => none

/-! ### The crash region -/

/-- What Table D.3 gives of the device itself, from 0x0000 to 0x004F. -/
def State.crashHeader (s : State) : State :=
  (s.crashPut 0 (leBytes 8 s.boots ++ leBytes 8 s.fwVersion ++ leBytes 8 s.fwBuild
    ++ leBytes 1 (if s.bankB then 1 else 0) ++ List.replicate 7 0 ++ s.defectBytes ++ leBytes 8 s.defectSignature
    ++ leBytes 8 s.events))

/-- Whether a crash record may be written (R377): none is there, or the host has read it and a further boot has
completed. -/
def State.recordFree (s : State) : Bool :=
  w32 (cellsGetN s.crash 0x1000 4) 0 != 0x43524153 || (match s.crashRead with
    | some b => decide (b < s.boots)
    | none => false)

/-- The crash record (R377). (Log entry 101 DEDUCED.) -/
def State.crashRecord (s : State) (cause epc : Nat) : State :=
  if s.recordFree then
    let r := leBytes 8 0x43524153 ++ leBytes 8 s.boots ++ leBytes 8 cause ++ leBytes 8 epc
      ++ (List.range 64).flatMap (fun r => leBytes 4 (s.mgmt.sreg r).toNat) ++ leBytes 8 (s.events - 1)
    ({ s with crashRead := none } : State).crashPut 0x1000 (padTo 4096 r)
  else s

/-- FIRMWARE_EXCEPTION.  With `flag`, the management core executes the next instruction of its firmware (R373), whose code
is `bytes` with the handler at its byte `b`; one that traps into that handler writes the crash record (R377).  Otherwise
firmware raises an exception of cause `a` at `b`. (Log entry 101 DEDUCED.) -/
def execFirmwareException (s : State) : Answer :=
  hw s fun s =>
    if s.arg.flag then
      if s.mgmtReady then
        let x := s.mgmtStep s.arg.bytes s.arg.b
        some (match x.2 with
          | some t => x.1.crashRecord t.1 t.2
          | none => x.1)
      else none
    else some (s.crashRecord s.arg.a s.arg.b)

/-! ### Temperatures, throttling and droop -/

/-- A thermal trip (R374): the crash record, then the reset that holds the device. (Log entry 102 DEDUCED.) -/
def State.thermalTrip (s : State) (die cluster : Nat) : State :=
  let s := s.logEvent 8 0 0xFF die cluster 0xFF 0 0 0
  let s := s.crashRecord 0x100 0
  { s with inReset := true }

/-- SENSOR_SAMPLE of die `a` (R374): a temperature for each cluster in `nats`, in °C, and its power `b` in W. -/
def execSensorSample (s : State) : Answer :=
  hw s fun s =>
    if s.dieCount ≤ s.arg.a ∨ s.arg.nats.length ≠ 10 then none
    else
      let s' := s.putDie { s.dieMgmt s.arg.a with temps := s.arg.nats, watts := s.arg.b }
      match s.arg.nats.findIdx? (fun t => decide (115 ≤ t)) with
      | some c => some (if s.inReset then s' else s'.thermalTrip s.arg.a c)
      | none => some s'

/-- The package's power. -/
def State.watts (s : State) : Nat := sumNat ((List.range s.dieCount).map fun d => (s.dieMgmt d).watts)

/-- THROTTLE_STEP of die `a` (R374): the new m takes effect at the next multiple of 16 clk (R209).
(Log entry 104 DEDUCED.) -/
def execThrottleStep (s : State) : Answer :=
  hw s fun s =>
    let d := s.dieMgmt s.arg.a
    let top := Config.designPower s.code
    let m := d.nextThrottle
    let put := fun (m : Nat) =>
      some ((s.putDie { d with nextThrottle := m, lastStep := s.clk }).logEvent 6 0 0xFF d.die 0xFF 0xFF m 0 0)
    if s.dieCount ≤ s.arg.a then none
    else if d.temps.any (fun t => decide (100 ≤ t)) ∨ top < s.watts then
      (if 4 < m ∧ d.lastStep + msClk ≤ s.clk then put (m - 1) else none)
    else if d.temps.all (fun t => decide (t ≤ 95)) ∧ 100 * s.watts ≤ 95 * top then
      (if m < 16 ∧ d.lastStep + 10 * msClk ≤ s.clk then put (m + 1) else none)
    else none

/-- The clusters of a die. -/
def dieClusters (die : Nat) : List Nat := (List.range 10).map (10 * die + ·)

/-- DROOP_ALARM of die `a` (R375). -/
def execDroopAlarm (s : State) : Answer :=
  hw s fun s =>
    let die := s.arg.a
    if s.dieCount ≤ die then none
    else
      let s := s.each (dieClusters die) fun s c => s.putCslr { s.cslr c with wave := 7, space := 32, droopAt := some s.clk }
      some (s.logEvent 7 0 0xFF die 0xFF 0xFF 0 0 0)

/-- DROOP_RESTORE of die `a` (R375): one millisecond after the last alarm. -/
def execDroopRestore (s : State) : Answer :=
  hw s fun s =>
    let due := (dieClusters s.arg.a).filter fun c => match (s.cslr c).droopAt with
      | some t => decide (t + msClk ≤ s.clk)
      | none => false
    if due = [] then none
    else some (s.each due fun s c =>
      let k := s.cslr c
      s.putCslr { k with wave := k.policyWave, space := k.policySpace, droopAt := none })

/-! ### Resets -/

/-- Enabled cores in a die's part of a defect map. -/
def coresIn (m : Nat) : Nat := ((List.range 40).filter m.testBit).length

/-- The defect map of a reset (R3, R380): cores that failed in service are removed where their die keeps 36.
(Log entry 103 DEDUCED.) -/
def nextDefect (old new : List Nat) : List Nat :=
  (List.range 4).map fun d =>
    let o := old.getD d 0
    let n := (new.getD d o) &&& o
    if 36 ≤ coresIn n then n else o

/-- The device after a reset: what survives one is the crash region with its counts, the firmware banks, fused and
monotonic counters, and what lies outside the device.  The boot ROM takes the image that was staged in the inactive bank
where it passes both checks, and raises the fused minimum to it; otherwise it runs the other bank's (R378).
(Log entries 6 DEDUCED, 100 DESIGN CHOICE, 135 DEDUCED.) -/
def State.reboot (s : State) (defect : List Nat) : State :=
  let up := s.fwReady && s.bootable s.fwStaged
  let version := if up then Config.firmwareVersion s.fwStaged else s.fwVersion
  ({ State.reset with
    code := s.code, defect := nextDefect s.defect defect, nextId := s.nextId, freeCount := s.freeCount, sched := s.sched,
    hostMem := s.hostMem, peers := s.peers, out := s.out, crash := s.crash, boots := s.boots + 1, events := s.events,
    bankB := if up then !s.bankB else s.bankB
    fwVersion := version
    fwBuild := if up then Config.firmwareBuild s.fwStaged else s.fwBuild
    fwMin := max s.fwMin version
    leafIndex := (s.leafIndex + 1023) / 1024 * 1024
    crashRead := s.crashRead } : State).crashHeader

/-- COLD_RESET (R274, R378, R380): `nats` gives the cores of each die that still work. (Log entry 100 DESIGN CHOICE.) -/
def execColdReset (s : State) : Answer := hw s fun s => some (s.reboot s.arg.nats)

/-- POWER_ON (R376): as a cold reset, and the crash region and the boot count start anew.
(Log entry 100 DESIGN CHOICE.) -/
def execPowerOn (s : State) : Answer :=
  hw s fun s => some (({ s with crash := [], events := 0, boots := 0, crashRead := none } : State).reboot s.arg.nats)

/-- THERMAL_RESET_RELEASE (R374): every cluster of every die reads 90 °C or less. (Log entry 102 DEDUCED.) -/
def execThermalResetRelease (s : State) : Answer :=
  hw s fun s => if s.inReset ∧ (List.range s.dieCount).all (fun d =>
      let ts := (s.dieMgmt d).temps
      decide (ts.length = 10) && ts.all fun t => decide (t ≤ 90))
    then some (s.reboot []) else none

end Sys2Proof.Machine
end

