-- ==== Sys2Proof/Machine/Dispatch.lean ====
section
/-!
DEFINITION. What every instruction does: one call of its meaning for each constructor.
-/

namespace Sys2Proof.Machine

/-- One step of the machine by an instruction, or by a hardware step whose arguments stand in the state. -/
def exec (i : Instr) (s : State) : Host.Outcome State Fault Refusal :=
  match i with
  | .vaddI d a b => Sys2Proof.Machine.execVaddI d a b s
  | .vsubI d a b => Sys2Proof.Machine.execVsubI d a b s
  | .vmullo d a b => Sys2Proof.Machine.execVmullo d a b s
  | .vmulhiS d a b => Sys2Proof.Machine.execVmulhiS d a b s
  | .vmulhiZ d a b => Sys2Proof.Machine.execVmulhiZ d a b s
  | .vand d a b => Sys2Proof.Machine.execVand d a b s
  | .vor d a b => Sys2Proof.Machine.execVor d a b s
  | .vxor d a b => Sys2Proof.Machine.execVxor d a b s
  | .vshl d a b => Sys2Proof.Machine.execVshl d a b s
  | .vshrz d a b => Sys2Proof.Machine.execVshrz d a b s
  | .vshrs d a b => Sys2Proof.Machine.execVshrs d a b s
  | .vminS d a b => Sys2Proof.Machine.execVminS d a b s
  | .vmaxS d a b => Sys2Proof.Machine.execVmaxS d a b s
  | .vminZ d a b => Sys2Proof.Machine.execVminZ d a b s
  | .vmaxZ d a b => Sys2Proof.Machine.execVmaxZ d a b s
  | .vrotl d a b => Sys2Proof.Machine.execVrotl d a b s
  | .vaddF d a b => Sys2Proof.Machine.execVaddF d a b s
  | .vsubF d a b => Sys2Proof.Machine.execVsubF d a b s
  | .vmulF d a b => Sys2Proof.Machine.execVmulF d a b s
  | .vfmaF d a b => Sys2Proof.Machine.execVfmaF d a b s
  | .vfnmaF d a b => Sys2Proof.Machine.execVfnmaF d a b s
  | .vminF d a b => Sys2Proof.Machine.execVminF d a b s
  | .vmaxF d a b => Sys2Proof.Machine.execVmaxF d a b s
  | .vcpsgn d a b => Sys2Proof.Machine.execVcpsgn d a b s
  | .vaddH d a b => Sys2Proof.Machine.execVaddH d a b s
  | .vmulH d a b => Sys2Proof.Machine.execVmulH d a b s
  | .vfmaH d a b => Sys2Proof.Machine.execVfmaH d a b s
  | .vdot2H d a b => Sys2Proof.Machine.execVdot2H d a b s
  | .vaddBf d a b => Sys2Proof.Machine.execVaddBf d a b s
  | .vmulBf d a b => Sys2Proof.Machine.execVmulBf d a b s
  | .vfmaBf d a b => Sys2Proof.Machine.execVfmaBf d a b s
  | .vdot2Bf d a b => Sys2Proof.Machine.execVdot2Bf d a b s
  | .vcmpEqF d a b => Sys2Proof.Machine.execVcmpEqF d a b s
  | .vcmpNeF d a b => Sys2Proof.Machine.execVcmpNeF d a b s
  | .vcmpLtF d a b => Sys2Proof.Machine.execVcmpLtF d a b s
  | .vcmpLeF d a b => Sys2Proof.Machine.execVcmpLeF d a b s
  | .vcmpGtF d a b => Sys2Proof.Machine.execVcmpGtF d a b s
  | .vcmpGeF d a b => Sys2Proof.Machine.execVcmpGeF d a b s
  | .vcmpUnF d a b => Sys2Proof.Machine.execVcmpUnF d a b s
  | .vcmpOrF d a b => Sys2Proof.Machine.execVcmpOrF d a b s
  | .vcmpEqI d a b => Sys2Proof.Machine.execVcmpEqI d a b s
  | .vcmpNeI d a b => Sys2Proof.Machine.execVcmpNeI d a b s
  | .vcmpLtS d a b => Sys2Proof.Machine.execVcmpLtS d a b s
  | .vcmpLeS d a b => Sys2Proof.Machine.execVcmpLeS d a b s
  | .vcmpLtZ d a b => Sys2Proof.Machine.execVcmpLtZ d a b s
  | .vcmpLeZ d a b => Sys2Proof.Machine.execVcmpLeZ d a b s
  | .vcmpTst d a b => Sys2Proof.Machine.execVcmpTst d a b s
  | .vcmpNtst d a b => Sys2Proof.Machine.execVcmpNtst d a b s
  | .vaddi d a imm => Sys2Proof.Machine.execVaddi d a imm s
  | .vandi d a imm => Sys2Proof.Machine.execVandi d a imm s
  | .vori d a imm => Sys2Proof.Machine.execVori d a imm s
  | .vxori d a imm => Sys2Proof.Machine.execVxori d a imm s
  | .vshli d a imm => Sys2Proof.Machine.execVshli d a imm s
  | .vshrzi d a imm => Sys2Proof.Machine.execVshrzi d a imm s
  | .vshrsi d a imm => Sys2Proof.Machine.execVshrsi d a imm s
  | .vmuli d a imm => Sys2Proof.Machine.execVmuli d a imm s
  | .vcvt d a => Sys2Proof.Machine.execVcvt d a s
  | .vcvtfS d a => Sys2Proof.Machine.execVcvtfS d a s
  | .vcvtsF d a => Sys2Proof.Machine.execVcvtsF d a s
  | .vcvtfZ d a => Sys2Proof.Machine.execVcvtfZ d a s
  | .vcvtzF d a => Sys2Proof.Machine.execVcvtzF d a s
  | .vpkbx8 d a => Sys2Proof.Machine.execVpkbx8 d a s
  | .vupbx8 d a => Sys2Proof.Machine.execVupbx8 d a s
  | .vpkbx4 d a => Sys2Proof.Machine.execVpkbx4 d a s
  | .vupbx4 d a => Sys2Proof.Machine.execVupbx4 d a s
  | .vpkf8 d a => Sys2Proof.Machine.execVpkf8 d a s
  | .vupf8 d a => Sys2Proof.Machine.execVupf8 d a s
  | .vrcp d a => Sys2Proof.Machine.execVrcp d a s
  | .vrsq d a => Sys2Proof.Machine.execVrsq d a s
  | .vsqrt d a => Sys2Proof.Machine.execVsqrt d a s
  | .vexp2 d a => Sys2Proof.Machine.execVexp2 d a s
  | .vlog2 d a => Sys2Proof.Machine.execVlog2 d a s
  | .vsinpi d a => Sys2Proof.Machine.execVsinpi d a s
  | .vcospi d a => Sys2Proof.Machine.execVcospi d a s
  | .vtanh d a => Sys2Proof.Machine.execVtanh d a s
  | .vabsF d a => Sys2Proof.Machine.execVabsF d a s
  | .vnegF d a => Sys2Proof.Machine.execVnegF d a s
  | .vfloor d a => Sys2Proof.Machine.execVfloor d a s
  | .vfract d a => Sys2Proof.Machine.execVfract d a s
  | .vabsI d a => Sys2Proof.Machine.execVabsI d a s
  | .vnegI d a => Sys2Proof.Machine.execVnegI d a s
  | .vnot d a => Sys2Proof.Machine.execVnot d a s
  | .vpopc d a => Sys2Proof.Machine.execVpopc d a s
  | .vclz d a => Sys2Proof.Machine.execVclz d a s
  | .vbrev d a => Sys2Proof.Machine.execVbrev d a s
  | .vshfl d a b => Sys2Proof.Machine.execVshfl d a b s
  | .vshflx d a imm => Sys2Proof.Machine.execVshflx d a imm s
  | .vshflup d a imm => Sys2Proof.Machine.execVshflup d a imm s
  | .vshfldn d a imm => Sys2Proof.Machine.execVshfldn d a imm s
  | .vbcast d a imm => Sys2Proof.Machine.execVbcast d a imm s
  | .vraddF d a => Sys2Proof.Machine.execVraddF d a s
  | .vrmaxF d a => Sys2Proof.Machine.execVrmaxF d a s
  | .vscanF d a => Sys2Proof.Machine.execVscanF d a s
  | .vbcs d sc => Sys2Proof.Machine.execVbcs d sc s
  | .vmovsl a sc imm => Sys2Proof.Machine.execVmovsl a sc imm s
  | .vlaneid d => Sys2Proof.Machine.execVlaneid d s
  | .vsetl d sc imm => Sys2Proof.Machine.execVsetl d sc imm s
  | .sadd d a b => Sys2Proof.Machine.execSadd d a b s
  | .ssub d a b => Sys2Proof.Machine.execSsub d a b s
  | .smul d a b => Sys2Proof.Machine.execSmul d a b s
  | .smulhs d a b => Sys2Proof.Machine.execSmulhs d a b s
  | .smulhz d a b => Sys2Proof.Machine.execSmulhz d a b s
  | .sand d a b => Sys2Proof.Machine.execSand d a b s
  | .sor d a b => Sys2Proof.Machine.execSor d a b s
  | .sxor d a b => Sys2Proof.Machine.execSxor d a b s
  | .sandn d a b => Sys2Proof.Machine.execSandn d a b s
  | .sshl d a b => Sys2Proof.Machine.execSshl d a b s
  | .sshrz d a b => Sys2Proof.Machine.execSshrz d a b s
  | .sshrs d a b => Sys2Proof.Machine.execSshrs d a b s
  | .smins d a b => Sys2Proof.Machine.execSmins d a b s
  | .smaxs d a b => Sys2Proof.Machine.execSmaxs d a b s
  | .sminz d a b => Sys2Proof.Machine.execSminz d a b s
  | .smaxz d a b => Sys2Proof.Machine.execSmaxz d a b s
  | .sslts d a b => Sys2Proof.Machine.execSslts d a b s
  | .ssltz d a b => Sys2Proof.Machine.execSsltz d a b s
  | .sseq d a b => Sys2Proof.Machine.execSseq d a b s
  | .spopc d a => Sys2Proof.Machine.execSpopc d a s
  | .sctz d a => Sys2Proof.Machine.execSctz d a s
  | .sclz d a => Sys2Proof.Machine.execSclz d a s
  | .sbfe d a b => Sys2Proof.Machine.execSbfe d a b s
  | .sbfi d a b => Sys2Proof.Machine.execSbfi d a b s
  | .sadd64 d a b => Sys2Proof.Machine.execSadd64 d a b s
  | .ssub64 d a b => Sys2Proof.Machine.execSsub64 d a b s
  | .sshl64 d a b => Sys2Proof.Machine.execSshl64 d a b s
  | .sshrz64 d a b => Sys2Proof.Machine.execSshrz64 d a b s
  | .ssel d a b => Sys2Proof.Machine.execSsel d a b s
  | .saddi d a imm => Sys2Proof.Machine.execSaddi d a imm s
  | .sandi d a imm => Sys2Proof.Machine.execSandi d a imm s
  | .sori d a imm => Sys2Proof.Machine.execSori d a imm s
  | .sxori d a imm => Sys2Proof.Machine.execSxori d a imm s
  | .slui d imm => Sys2Proof.Machine.execSlui d imm s
  | .dly a imm => Sys2Proof.Machine.execDly a imm s
  | .srd d x => Sys2Proof.Machine.execSrd d x s
  | .swr a x => Sys2Proof.Machine.execSwr a x s
  | .sexec a => Sys2Proof.Machine.execSexec a s
  | .sexecand a => Sys2Proof.Machine.execSexecand a s
  | .sexecandn a => Sys2Proof.Machine.execSexecandn a s
  | .sgetexec d => Sys2Proof.Machine.execSgetexec d s
  | .fmtset a => Sys2Proof.Machine.execFmtset a s
  | .fmtget d => Sys2Proof.Machine.execFmtget d s
  | .jmpr a => Sys2Proof.Machine.execJmpr a s
  | .callr a => Sys2Proof.Machine.execCallr a s
  | .trap imm => Sys2Proof.Machine.execTrap imm s
  | .brk imm => Sys2Proof.Machine.execBrk imm s
  | .launch a b => Sys2Proof.Machine.execLaunch a b s
  | .gset g v => Sys2Proof.Machine.execGset g v s
  | .gclr g => Sys2Proof.Machine.execGclr g s
  | .brAlways o => Sys2Proof.Machine.execBrAlways o s
  | .brSz a o => Sys2Proof.Machine.execBrSz a o s
  | .brSnz a o => Sys2Proof.Machine.execBrSnz a o s
  | .brSneg a o => Sys2Proof.Machine.execBrSneg a o s
  | .brSnneg a o => Sys2Proof.Machine.execBrSnneg a o s
  | .brExecz o => Sys2Proof.Machine.execBrExecz o s
  | .brExecnz o => Sys2Proof.Machine.execBrExecnz o s
  | .brExecall o => Sys2Proof.Machine.execBrExecall o s
  | .dbr a o => Sys2Proof.Machine.execDbr a o s
  | .dbrT a o => Sys2Proof.Machine.execDbrT a o s
  | .call o => Sys2Proof.Machine.execCall o s
  | .loop a imm e => Sys2Proof.Machine.execLoop a imm e s
  | .ld d b o w h x => Sys2Proof.Machine.execLd d b o w h x s
  | .st d b o w h => Sys2Proof.Machine.execSt d b o w h s
  | .atomAdd d b o sc => Sys2Proof.Machine.execAtomAdd d b o sc s
  | .atomMinS d b o sc => Sys2Proof.Machine.execAtomMinS d b o sc s
  | .atomMaxS d b o sc => Sys2Proof.Machine.execAtomMaxS d b o sc s
  | .atomMinZ d b o sc => Sys2Proof.Machine.execAtomMinZ d b o sc s
  | .atomMaxZ d b o sc => Sys2Proof.Machine.execAtomMaxZ d b o sc s
  | .atomAnd d b o sc => Sys2Proof.Machine.execAtomAnd d b o sc s
  | .atomOr d b o sc => Sys2Proof.Machine.execAtomOr d b o sc s
  | .atomXor d b o sc => Sys2Proof.Machine.execAtomXor d b o sc s
  | .atomXchg d b o sc => Sys2Proof.Machine.execAtomXchg d b o sc s
  | .atomCas d b o sc => Sys2Proof.Machine.execAtomCas d b o sc s
  | .atomAddF d b o sc => Sys2Proof.Machine.execAtomAddF d b o sc s
  | .atomMaxF d b o sc => Sys2Proof.Machine.execAtomMaxF d b o sc s
  | .atomMinF d b o sc => Sys2Proof.Machine.execAtomMinF d b o sc s
  | .sld d b imm => Sys2Proof.Machine.execSld d b imm s
  | .sld64 d b imm => Sys2Proof.Machine.execSld64 d b imm s
  | .sst d b imm => Sys2Proof.Machine.execSst d b imm s
  | .sst64 d b imm => Sys2Proof.Machine.execSst64 d b imm s
  | .satadd d b imm => Sys2Proof.Machine.execSatadd d b imm s
  | .satcas d b imm => Sys2Proof.Machine.execSatcas d b imm s
  | .spollne d b imm => Sys2Proof.Machine.execSpollne d b imm s
  | .sldacq d b imm => Sys2Proof.Machine.execSldacq d b imm s
  | .spld d a imm => Sys2Proof.Machine.execSpld d a imm s
  | .spldq d a imm => Sys2Proof.Machine.execSpldq d a imm s
  | .spst d a imm => Sys2Proof.Machine.execSpst d a imm s
  | .spstq d a imm => Sys2Proof.Machine.execSpstq d a imm s
  | .vtaglk d a imm => Sys2Proof.Machine.execVtaglk d a imm s
  | .tagset d a imm => Sys2Proof.Machine.execTagset d a imm s
  | .tagclr d a imm => Sys2Proof.Machine.execTagclr d a imm s
  | .spatadd d a imm => Sys2Proof.Machine.execSpatadd d a imm s
  | .spataddF d a imm => Sys2Proof.Machine.execSpataddF d a imm s
  | .fence sc k => Sys2Proof.Machine.execFence sc k s
  | .bara b => Sys2Proof.Machine.execBara b s
  | .barw b => Sys2Proof.Machine.execBarw b s
  | .bars b => Sys2Proof.Machine.execBars b s
  | .gbar g => Sys2Proof.Machine.execGbar g s
  | .waitcnt p a => Sys2Proof.Machine.execWaitcnt p a s
  | .waitk k => Sys2Proof.Machine.execWaitk k s
  | .xlate b a => Sys2Proof.Machine.execXlate b a s
  | .xinv b => Sys2Proof.Machine.execXinv b s
  | .bari b a => Sys2Proof.Machine.execBari b a s
  | .qbind q n d => Sys2Proof.Machine.execQbind q n d s
  | .qget q r n => Sys2Proof.Machine.execQget q r n s
  | .qput q r n => Sys2Proof.Machine.execQput q r n s
  | .qtry q r n d => Sys2Proof.Machine.execQtry q r n d s
  | .qtryp q r n d => Sys2Proof.Machine.execQtryp q r n d s
  | .qstat q d => Sys2Proof.Machine.execQstat q d s
  | .qunbind q => Sys2Proof.Machine.execQunbind q s
  | .cpy k b a g v => Sys2Proof.Machine.execCpy k b a g v s
  | .kstat k a => Sys2Proof.Machine.execKstat k a s
  | .kbytes k a => Sys2Proof.Machine.execKbytes k a s
  | .kclr k => Sys2Proof.Machine.execKclr k s
  | .kreplay k => Sys2Proof.Machine.execKreplay k s
  | .pld p v o => Sys2Proof.Machine.execPld p v o s
  | .pst p v o => Sys2Proof.Machine.execPst p v o s
  | .pstep p => Sys2Proof.Machine.execPstep p s
  | .pqry p v o => Sys2Proof.Machine.execPqry p v o s
  | .mma t a b => Sys2Proof.Machine.execMma t a b s
  | .mzero t => Sys2Proof.Machine.execMzero t s
  | .mwaitb b => Sys2Proof.Machine.execMwaitb b s
  | .msigb b => Sys2Proof.Machine.execMsigb b s
  | .mloop c e => Sys2Proof.Machine.execMloop c e s
  | .mfmt g => Sys2Proof.Machine.execMfmt g s
  | .accrd t v r => Sys2Proof.Machine.execAccrd t v r s
  | .accwr t v r => Sys2Proof.Machine.execAccwr t v r s
  | .accrdc t v r => Sys2Proof.Machine.execAccrdc t v r s
  | .ext x w2 => Sys2Proof.Machine.execExt x w2 s
  | .vmov d a => Sys2Proof.Machine.execVmov d a s
  | .vaddI16 d a => Sys2Proof.Machine.execVaddI16 d a s
  | .vsubI16 d a => Sys2Proof.Machine.execVsubI16 d a s
  | .vand16 d a => Sys2Proof.Machine.execVand16 d a s
  | .vor16 d a => Sys2Proof.Machine.execVor16 d a s
  | .vxor16 d a => Sys2Proof.Machine.execVxor16 d a s
  | .vshl16 d a => Sys2Proof.Machine.execVshl16 d a s
  | .vshrz16 d a => Sys2Proof.Machine.execVshrz16 d a s
  | .vaddF16 d a => Sys2Proof.Machine.execVaddF16 d a s
  | .vsubF16 d a => Sys2Proof.Machine.execVsubF16 d a s
  | .vmulF16 d a => Sys2Proof.Machine.execVmulF16 d a s
  | .vmaxF16 d a => Sys2Proof.Machine.execVmaxF16 d a s
  | .vminF16 d a => Sys2Proof.Machine.execVminF16 d a s
  | .vmullo16 d a => Sys2Proof.Machine.execVmullo16 d a s
  | .vshrs16 d a => Sys2Proof.Machine.execVshrs16 d a s
  | .vnot16 d a => Sys2Proof.Machine.execVnot16 d a s
  | .nop => Sys2Proof.Machine.execNop s
  | .join => Sys2Proof.Machine.execJoin s
  | .ret => Sys2Proof.Machine.execRet s
  | .endI => Sys2Proof.Machine.execEndI s
  | .commit => Sys2Proof.Machine.execCommit s
  | .eret => Sys2Proof.Machine.execEret s
  | .yield => Sys2Proof.Machine.execYield s
  | .backoff => Sys2Proof.Machine.execBackoff s
  | .fpost => Sys2Proof.Machine.execFpost s
  | .mend => Sys2Proof.Machine.execMend s
  | .mnop => Sys2Proof.Machine.execMnop s
  | .checkPhaseEnd => Sys2Proof.Machine.execCheckPhaseEnd s
  | .xlateFillEnd => Sys2Proof.Machine.execXlateFillEnd s
  | .icacheFill => Sys2Proof.Machine.execIcacheFill s
  | .perform => Sys2Proof.Machine.execPerform s
  | .read => Sys2Proof.Machine.execRead s
  | .atomic => Sys2Proof.Machine.execAtomic s
  | .fill => Sys2Proof.Machine.execFill s
  | .evict => Sys2Proof.Machine.execEvict s
  | .pop => Sys2Proof.Machine.execPop s
  | .linkEntryReady => Sys2Proof.Machine.execLinkEntryReady s
  | .spollneWindowEnd => Sys2Proof.Machine.execSpollneWindowEnd s
  | .spollneReread => Sys2Proof.Machine.execSpollneReread s
  | .dlyEnd => Sys2Proof.Machine.execDlyEnd s
  | .yieldEnd => Sys2Proof.Machine.execYieldEnd s
  | .groupEnd => Sys2Proof.Machine.execGroupEnd s
  | .barrierOpen => Sys2Proof.Machine.execBarrierOpen s
  | .barrierWave => Sys2Proof.Machine.execBarrierWave s
  | .gbarDieArrival => Sys2Proof.Machine.execGbarDieArrival s
  | .gbarRelease => Sys2Proof.Machine.execGbarRelease s
  | .swap => Sys2Proof.Machine.execSwap s
  | .heldEntryRelease => Sys2Proof.Machine.execHeldEntryRelease s
  | .reorderRelease => Sys2Proof.Machine.execReorderRelease s
  | .jobStart => Sys2Proof.Machine.execJobStart s
  | .jobRead => Sys2Proof.Machine.execJobRead s
  | .jobWrite => Sys2Proof.Machine.execJobWrite s
  | .jobEnd => Sys2Proof.Machine.execJobEnd s
  | .mmaRetire => Sys2Proof.Machine.execMmaRetire s
  | .leaseEnd => Sys2Proof.Machine.execLeaseEnd s
  | .ticketClaim => Sys2Proof.Machine.execTicketClaim s
  | .teamStart => Sys2Proof.Machine.execTeamStart s
  | .teamRetire => Sys2Proof.Machine.execTeamRetire s
  | .expertFire => Sys2Proof.Machine.execExpertFire s
  | .expertAgeLimit => Sys2Proof.Machine.execExpertAgeLimit s
  | .fpostResume => Sys2Proof.Machine.execFpostResume s
  | .parkReplay => Sys2Proof.Machine.execParkReplay s
  | .faultBatchAge => Sys2Proof.Machine.execFaultBatchAge s
  | .faultTimeout => Sys2Proof.Machine.execFaultTimeout s
  | .hostAbsence => Sys2Proof.Machine.execHostAbsence s
  | .firstTouchRequest => Sys2Proof.Machine.execFirstTouchRequest s
  | .firstTouchStatus => Sys2Proof.Machine.execFirstTouchStatus s
  | .capture => Sys2Proof.Machine.execCapture s
  | .notifyHoldExpiry => Sys2Proof.Machine.execNotifyHoldExpiry s
  | .msixUnmask => Sys2Proof.Machine.execMsixUnmask s
  | .notifyConsWrite => Sys2Proof.Machine.execNotifyConsWrite s
  | .faultRingConsWrite => Sys2Proof.Machine.execFaultRingConsWrite s
  | .ncountWrite => Sys2Proof.Machine.execNcountWrite s
  | .nholdWrite => Sys2Proof.Machine.execNholdWrite s
  | .registerWrite => Sys2Proof.Machine.execRegisterWrite s
  | .contextAdmit => Sys2Proof.Machine.execContextAdmit s
  | .contextAllocate => Sys2Proof.Machine.execContextAllocate s
  | .contextBind => Sys2Proof.Machine.execContextBind s
  | .contextDelete => Sys2Proof.Machine.execContextDelete s
  | .mappingPageApply => Sys2Proof.Machine.execMappingPageApply s
  | .mappingPageRelease => Sys2Proof.Machine.execMappingPageRelease s
  | .mappingPermNarrow => Sys2Proof.Machine.execMappingPermNarrow s
  | .shootdownAck => Sys2Proof.Machine.execShootdownAck s
  | .queueAdmit => Sys2Proof.Machine.execQueueAdmit s
  | .handlePublish => Sys2Proof.Machine.execHandlePublish s
  | .queueOpen => Sys2Proof.Machine.execQueueOpen s
  | .queueClose => Sys2Proof.Machine.execQueueClose s
  | .queueRelease => Sys2Proof.Machine.execQueueRelease s
  | .queueEndAdmission => Sys2Proof.Machine.execQueueEndAdmission s
  | .expertQueueDelete => Sys2Proof.Machine.execExpertQueueDelete s
  | .linkAdmit => Sys2Proof.Machine.execLinkAdmit s
  | .linkConnect => Sys2Proof.Machine.execLinkConnect s
  | .programAdmit => Sys2Proof.Machine.execProgramAdmit s
  | .selectVariant => Sys2Proof.Machine.execSelectVariant s
  | .loadImage => Sys2Proof.Machine.execLoadImage s
  | .bindQueues => Sys2Proof.Machine.execBindQueues s
  | .programLaunch => Sys2Proof.Machine.execProgramLaunch s
  | .chainMove => Sys2Proof.Machine.execChainMove s
  | .chainMoveDone => Sys2Proof.Machine.execChainMoveDone s
  | .pauseStep => Sys2Proof.Machine.execPauseStep s
  | .unpauseStep => Sys2Proof.Machine.execUnpauseStep s
  | .preempt => Sys2Proof.Machine.execPreempt s
  | .teamResume => Sys2Proof.Machine.execTeamResume s
  | .migrationCycle => Sys2Proof.Machine.execMigrationCycle s
  | .moveDone => Sys2Proof.Machine.execMoveDone s
  | .lockHoldExpiry => Sys2Proof.Machine.execLockHoldExpiry s
  | .hostWarmRestart => Sys2Proof.Machine.execHostWarmRestart s
  | .hostWrite => Sys2Proof.Machine.execHostWrite s
  | .hostRead => Sys2Proof.Machine.execHostRead s
  | .keyset => Sys2Proof.Machine.execKeyset s
  | .dbgHalt => Sys2Proof.Machine.execDbgHalt s
  | .dbgRead => Sys2Proof.Machine.execDbgRead s
  | .dbgWrite => Sys2Proof.Machine.execDbgWrite s
  | .dbgStep => Sys2Proof.Machine.execDbgStep s
  | .dbgResume => Sys2Proof.Machine.execDbgResume s
  | .fwstage => Sys2Proof.Machine.execFwstage s
  | .spdmSign => Sys2Proof.Machine.execSpdmSign s
  | .portLossOfLock => Sys2Proof.Machine.execPortLossOfLock s
  | .linkDown => Sys2Proof.Machine.execLinkDown s
  | .inboundRemoteJob => Sys2Proof.Machine.execInboundRemoteJob s
  | .inboundAccess => Sys2Proof.Machine.execInboundAccess s
  | .streamPacket => Sys2Proof.Machine.execStreamPacket s
  | .streamDeadline => Sys2Proof.Machine.execStreamDeadline s
  | .gleanerScrub => Sys2Proof.Machine.execGleanerScrub s
  | .trimWindowEnd => Sys2Proof.Machine.execTrimWindowEnd s
  | .barendExpiry => Sys2Proof.Machine.execBarendExpiry s
  | .nearThresholdEntry => Sys2Proof.Machine.execNearThresholdEntry s
  | .nearThresholdExit => Sys2Proof.Machine.execNearThresholdExit s
  | .bankDrowsy => Sys2Proof.Machine.execBankDrowsy s
  | .bankWake => Sys2Proof.Machine.execBankWake s
  | .sensorSample => Sys2Proof.Machine.execSensorSample s
  | .throttleStep => Sys2Proof.Machine.execThrottleStep s
  | .droopAlarm => Sys2Proof.Machine.execDroopAlarm s
  | .droopRestore => Sys2Proof.Machine.execDroopRestore s
  | .firmwareException => Sys2Proof.Machine.execFirmwareException s
  | .coldReset => Sys2Proof.Machine.execColdReset s
  | .powerOn => Sys2Proof.Machine.execPowerOn s
  | .illegalInstruction => Sys2Proof.Machine.execIllegalInstruction s
  | .writeLands => Sys2Proof.Machine.execWriteLands s
  | .ptpLock => Sys2Proof.Machine.execPtpLock s
  | .ptpLockLoss => Sys2Proof.Machine.execPtpLockLoss s
  | .retrainingDone => Sys2Proof.Machine.execRetrainingDone s
  | .formPolicyChoice => Sys2Proof.Machine.execFormPolicyChoice s
  | .deletionStep => Sys2Proof.Machine.execDeletionStep s
  | .thermalResetRelease => Sys2Proof.Machine.execThermalResetRelease s
  | .tdispRequest => Sys2Proof.Machine.execTdispRequest s

end Sys2Proof.Machine
end

