-- ==== Sys2Proof/Machine/Sched.lean ====
section
/-!
DEFINITION. What a step of the machine takes: the step that an outside schedule names, a timed step that is due, the issue of
a ready group or stream (R204 to R209, R188), an internal step that can be taken, or else the next clk.
-/

namespace Sys2Proof.Machine

/-! ### Running one hardware step -/

/-- A step with the argument `a`, with `a` and `b`, and with core pairs. -/
def ev (op : Instr) (a : Nat) : Ev := { op := op, arg := { EvArg.zero with a := a } }
def ev2 (op : Instr) (a b : Nat) : Ev := { op := op, arg := { EvArg.zero with a := a, b := b } }
def ev3 (op : Instr) (a b c : Nat) : Ev := { op := op, arg := { EvArg.zero with a := a, b := b, c := c } }
def evFill (core line ctx va : Nat) : Ev :=
  { op := .icacheFill, arg := { EvArg.zero with a := core, b := line, c := ctx, d := va } }
def evPairs (op : Instr) (a : Nat) (ps : List (Nat × Nat)) : Ev := { op := op, arg := { EvArg.zero with a := a, pairs := ps } }

/-- The state with no issue and no arguments standing. -/
def State.tidy (s : State) : State := { s with issue := none, arg := EvArg.zero }

/-- An answer whose next state is tidy. -/
def tidyAnswer (r : Answer) : Answer :=
  match r with
  | .next s => .next s.tidy
  | .fault f => .fault f
  | .refused r => .refused r

/-- A hardware step run with its arguments. -/
def State.runEv (s : State) (e : Ev) : Answer := tidyAnswer (exec e.op { s with issue := none, arg := e.arg })

/-- The first of some steps that changes the state. -/
def State.firstChange (s : State) : List Ev → Option Answer
  | [] => none
  | e :: r =>
    match s.runEv e with
    | .next t => if t = s.tidy then s.firstChange r else some (.next t)
    | x => some x

/-! ### Steps that time brings -/

/-- Timed steps of a group. -/
def State.groupTimes (s : State) (g : Group) : List Ev :=
  (if g.landing.any (fun w => decide (w.due ≤ s.clk)) then [ev .writeLands g.gid] else [])
  ++ (match g.wait with
      | .dly t => if t ≤ s.clk then [ev .dlyEnd g.gid] else []
      | .yield t => if t + 32 ≤ s.clk then [ev .yieldEnd g.gid] else []
      | .wave t _ => if t ≤ s.clk then [ev .barrierWave g.gid] else []
      | .check t _ _ => if t ≤ s.clk then [ev .checkPhaseEnd g.gid] else []
      | _ => [])

/-- Timed steps of links, islands and the management core. -/
def State.slowTimes (s : State) : List Ev :=
  (s.ports.filter fun p => p.isLost s.clk).map (fun p => ev .linkDown p.port)
  ++ (if windowClk ≤ s.clk then
        ((List.range 640).filter fun i => s.enabled (i / 4) && !(s.island i).nt
          && decide ((s.island i).windowAt + windowClk ≤ s.clk)).flatMap fun i => [ev .nearThresholdEntry i, ev .trimWindowEnd i]
      else [])
  ++ (s.islands.filter fun i => i.barred && decide (940 * i.barEnd ≤ s.clk)).map (fun i => ev .barendExpiry i.isl)
  ++ (s.islands.filter Island.nt).map (fun i => ev .nearThresholdExit i.isl)
  ++ (s.dies.map fun d => ev .throttleStep d.die)
  ++ (if s.cslrs.any (fun c => c.droopAt.isSome) then (List.range 4).map (ev .droopRestore) else [])

/-- Timed steps of the Harrow, of faults, of moves and of queues. -/
def State.hostTimes (s : State) : List Ev :=
  (if s.pendingNotes.isEmpty then [] else [ev .notifyHoldExpiry 0])
  ++ (if s.faults.isEmpty then [] else (List.range 4).map (ev .faultBatchAge) ++ s.ctxs.map fun c => ev .faultTimeout c.ctx)
  ++ (s.ctxs.filter fun c => c.absentSince.isSome).map (fun c => ev .hostAbsence c.ctx)
  ++ s.holds.map (fun h => ev2 .lockHoldExpiry h.ctx h.va)
  ++ (if s.clk % 940 = 0 && s.pages.any (fun p => p.kind == .mapping && mapPolicy (s.record p.slot).body == 2) then
        (List.range 4).map (ev .migrationCycle) else [])
  ++ (s.queues.filter fun q => q.frame.isSome).map (fun q => ev .streamDeadline q.slot)
  ++ (s.queues.filter fun q => q.kind == .expert && !q.entries.isEmpty).map (fun q => ev .expertAgeLimit q.slot)

/-- Timed steps that are due, in the order they are tried. (Log entry 7 DESIGN CHOICE.) -/
def State.dueEvents (s : State) : List Ev :=
  s.groups.flatMap s.groupTimes
  ++ s.cores.flatMap (fun c => c.waking.filterMap fun w => if w.2 ≤ s.clk then some (ev2 .bankWake c.core w.1) else none)
  ++ s.teams.flatMap (fun t =>
      ((List.range t.bars.length).filter fun b => !(t.bar b).opens.isEmpty).map (fun b => ev2 .barrierOpen t.tid b)
        ++ t.planes.map fun p => ev2 .swap t.tid p.id)
  ++ s.teams.filterMap (fun t => match t.stream with
      | some m => if m.inFlight.isEmpty then none else some (ev .mmaRetire t.tid)
      | none => none)
  ++ s.chains.flatMap (fun c =>
      ((List.range c.links.length).map fun k => ev2 .linkEntryReady c.cid k)
      ++ (if c.movingTo.isSome && decide (c.moveEnd ≤ s.clk) then [ev .chainMoveDone c.cid] else []))
  ++ s.slowTimes ++ s.hostTimes

/-! ### Issue -/

/-- Who may issue next: how urgent, of what priority, how recently it issued, and from what slot (R206). -/
structure Rank where
  urgent : Bool
  prio : Nat
  last : Nat
  slot : Nat
  gid : Nat
  deriving DecidableEq, Repr

/-- The groups, each with whether it counts as ready in this clk: a group that has issued in it was ready (R206). -/
def State.readiness (s : State) : List (Group × Bool) :=
  s.groups.map fun g => (g, s.isReady g || g.lastIssue == some s.clk)

/-- Whether two groups are bound to one issue slot (R201). -/
def Group.sameSlot (g x : Group) : Bool := coreOf x.die x.core == coreOf g.die g.core && x.slot % 4 == g.slot % 4

/-- n of R206 in this clk: the groups of a ready group's issue slot that are ready at its effective priority or higher. -/
def Group.peers (g : Group) (up : List (Group × Bool)) : Nat :=
  (up.filter fun x => x.2 && g.sameSlot x.1 && decide (g.effPrio ≤ x.1.effPrio)).length

/-- Whether a ready group is urgent in a clk: it has become so before, or has been ready for 4 × ⌈n/4⌉ clk, with the largest
n since it last issued (R206). -/
def Group.isUrgent (g : Group) (up : List (Group × Bool)) : Bool :=
  g.urgent || decide (4 * ((max g.maxN (g.peers up) + 3) / 4) ≤ g.readyFor)

/-- A group's rank; one that has never issued counts as oldest. -/
def Group.rank (up : List (Group × Bool)) (g : Group) : Rank :=
  { urgent := g.isUrgent up, prio := g.effPrio, last := (match g.lastIssue with
      | some t => t + 1
      | none => 0), slot := g.slot, gid := g.gid }

/-- Whether the first of two ranks is picked (R206). -/
def Rank.wins (a b : Rank) : Bool :=
  if a.urgent ≠ b.urgent then a.urgent
  else if a.prio ≠ b.prio then decide (b.prio < a.prio)
  else if a.last ≠ b.last then decide (a.last < b.last)
  else decide (a.slot < b.slot)

/-- The rank picked among some. -/
def bestRank : List Rank → Option Rank
  | [] => none
  | a :: r => some (r.foldl (fun x y => if y.wins x then y else x) a)

/-- Whether an issue slot of a core has issued in this clk (R204). (Log entry 132 DEDUCED.) -/
def State.slotUsed (s : State) (core slot : Nat) : Bool := (s.core core).slotClks.getD slot none == some s.clk

/-- Whether a ready group's issue slot is open to it in this clk (R204, R208, R209). -/
def State.slotOpen (s : State) (g : Group) : Bool :=
  s.throttleLets g.die && !(s.slotF && g.slot % 4 == 0) && !s.slotUsed (coreOf g.die g.core) (g.slot % 4)

/-- Whether an instruction may take an entry of the commit buffer (R35). -/
def takesEntry (i : Instr) : Bool :=
  match i with
  | .qput .. | .launch .. | .st .. | .sst .. | .sst64 .. => true
  | _ => false

/-- Whether a group's next instruction may take an entry of its team's commit buffer. -/
def State.entryNext (s : State) (g : Group) : Bool :=
  match s.nextOf g with
  | .word i _ _ => takesEntry (extCore i)
  | _ => false

/-- The first in entry order of some groups of one clk (R35). -/
def State.firstTurn (s : State) : List Group → Option Group
  | [] => none
  | g :: r => some (r.foldl (fun m x => if s.issueTurn x < s.issueTurn m then x else m) g)

/-- The group that issues next, of the picks of the issue slots.  Those that may take an entry of a commit buffer go first,
in entry order, so that the sixty-fifth entry is the last in that order (R35); then the first in the order of the groups,
so that the groups of a team that issue in one clk reach a barrier in ascending order (R153).
(Log entry 154 DESIGN CHOICE.) -/
def State.pickGroup (s : State) : Option Nat :=
  let up := s.groups.filter fun g => s.mayIssue g && s.slotOpen g
  let ready := s.readiness
  let picks := up.filter fun g => (bestRank ((up.filter g.sameSlot).map (Group.rank ready))).map Rank.gid == some g.gid
  ((s.firstTurn (picks.filter s.entryNext)).or picks.head?).map Group.gid

/-- Whether a stream's next word issues in this clk (R188, R216, R217); none does while its chain's state is moved (R266).
(Log entry 110 DEDUCED.) -/
def State.streamReady (s : State) (t : Team) (m : Stream) : Bool :=
  let same := m.lastIssue == some s.clk
  t.state == .running && !m.ended && m.stopped.isNone && m.wait == .none && decide (m.readyAt ≤ s.clk)
    && !(s.core t.home).halted && !s.chainMoves t
    && (let u := s.streamNext t m
        s.streamLine t m u == .present && (match u with
          | .word (.mma ..) _ _ => !(same && decide (3 ≤ m.mmasNow)) && ((s.takeLease t).isSome || m.waiting.isNone)
          | _ => !(same && decide (1 ≤ m.othersNow))))

/-- Whether a stream's next word is an MMA that waits for the engine behind another's of this clk: at a free lease the
three keys choose (R217). -/
def State.mmaAfter (s : State) (t : Team) (m : Stream) : Bool :=
  let isMma := fun (t : Team) (m : Stream) => match s.streamNext t m with
    | .word (.mma ..) _ _ => true
    | _ => false
  let at_ := fun (m : Stream) => { m with waiting := some (m.waiting.getD s.clk) }
  (s.core t.home).lease.holder.isNone && isMma t m && s.teams.any fun x => x.home == t.home && x.tid != t.tid && (match x.stream with
    | some y => s.streamReady x y && isMma x y && leaseBefore (at_ y) (at_ m)
    | none => false)

/-- The stream that issues next. -/
def State.pickStream (s : State) : Option Nat :=
  (s.teams.find? fun t => match t.stream with
    | some m => s.streamReady t m && !s.mmaAfter t m
    | none => false).map Team.tid

/-- Who issues next. -/
def State.pick (s : State) : Option Who :=
  match s.pickGroup with
  | some g => some (.group g)
  | none => s.pickStream.map .stream

/-- The next instruction of one that issues. -/
def State.wordOf (s : State) (w : Who) : Upcoming :=
  match w with
  | .group gid => (match s.group? gid with
    | some g => s.nextOf g
    | none => .fault cPageFault)
  | .stream tid => (match s.team? tid with
    | some t => (match t.stream with
      | some m => s.streamNext t m
      | none => .fault cPageFault)
    | none => .fault cPageFault)

/-- YIELD holds on a core that an issue at some effective priority ends (R99). (Log entry 122 DEDUCED.) -/
def State.endYields (s : State) (g : Group) : State :=
  { s with groups := s.groups.map fun x =>
      match x.wait with
      | .yield _ =>
        if x.gid ≠ g.gid ∧ x.die = g.die ∧ x.core = g.core ∧ x.effPrio ≤ g.effPrio then { x with wait := .none } else x
      | _ => x }

/-- The items that a stage of a chain, or a chain's matrix stream, uses with an instruction (R257). -/
def State.noteUse (s : State) (w : Who) (i : Instr) : State :=
  let put := fun (c : Chain) (k : Nat) =>
    let new := (usedItems (extCore i)).map fun u => (u.1, u.2, k)
    s.putChain { c with users := c.users ++ new.filter fun u => !c.users.contains u }
  if usedItems (extCore i) = [] then s
  else match w with
    | .group gid => (match (s.group? gid).bind s.chainOf with
      | some c => put c (c.stageOf gid)
      | none => s)
    | .stream tid => (match (s.team? tid).bind fun t => t.chain.bind s.chain? with
      | some c => put c (c.mst.getD 0)
      | none => s)

/-- What an issue leaves behind besides its own effect: the stage's block, the YIELD holds it ends, and the issue
slot's clk (R204). (Log entry 132 DEDUCED.) -/
def State.issuing (s : State) (w : Who) : State :=
  match w with
  | .stream _ => s
  | .group gid =>
    match s.group? gid with
    | none => s
    | some g =>
      let s := s.endYields g
      let s := match s.chainOf g with
        | some c => s.putChain (c.blockStage (c.stageOf gid) .none)
        | none => s
      let k := s.core (coreOf g.die g.core)
      s.putCore { k with slotClks := k.slotClks.set (g.slot % 4) (some s.clk) }

/-- The state in which an instruction of some bytes and stall count executes. -/
def State.issued (s : State) (w : Who) (len sc : Nat) : State :=
  { s.issuing w with issue := some { who := w, sc := sc, len := len, ext := none }, arg := EvArg.zero }

/-- A fetch that faults traps at the instruction being fetched (R44), or stops the stream (R193). -/
def State.fetchFault (s : State) (w : Who) (cause : Nat) : State :=
  match w with
  | .group gid => (match s.group? gid with
    | some g => (match s.duePend g with
      | some p => s.takePend g p
      | none => s.trap g cause)
    | none => s)
  | .stream tid => (match s.team? tid with
    | some t => (match t.stream with
      | some m => s.stopStream t m cause 0xFF (s.streamWord t m)
      | none => s)
    | none => s)

/-- One issue. -/
def State.issueOne (s : State) (w : Who) : Answer :=
  match s.wordOf w with
  | .word i len sc => tidyAnswer (exec i ((s.noteUse w i).issued w len sc))
  | .illegal len sc => tidyAnswer (exec .illegalInstruction (s.issued w len sc))
  | .fault c => .next ((s.issuing w).fetchFault w c).tidy

/-! ### Placement by the firmware agents -/

/-- Enabled cores of the device, and those of one cluster. -/
def State.allCores (s : State) : List Nat := (List.range (40 * s.dieCount)).filter s.enabled
def State.clusterCores (s : State) (c : Nat) : List Nat := ((List.range 4).map (4 * c + ·)).filter s.enabled

/-- Core pairs that a team may take among some cores: one core twice, or two of one cluster.
(Log entry 105 DESIGN CHOICE.) -/
def corePairs (cores : List Nat) : List (Nat × Nat) :=
  cores.map (fun c => (c, c))
    ++ cores.flatMap fun c => (cores.filter fun d => d ≠ c ∧ d / 4 = c / 4).map fun d => (c, d)

/-- Places for teams of a launch, one after another, each the first that takes it. -/
def State.choosePlaces (s : State) (l : Launch) (ps : List (Nat × Nat)) : List Nat → Option (List (Nat × Nat))
  | [] => some []
  | i :: r =>
    match ps.findSome? (fun p => (s.placement l i p.1 p.2).map fun x => (p, x)) with
    | none => none
    | some (p, x) => ((s.placeTeam l i p.1 p.2 x).1.choosePlaces l ps r).map (p :: ·)

/-- The span that firmware gives a grid by itself: the dies of its context on which an empty cluster holds a team of
it, the pool's die first. (Log entry 113 DESIGN CHOICE.) -/
def State.spanFor (s : State) (l : Launch) : List Nat :=
  let ds := (s.admittedDies l.ctx).filter fun d => (List.range 10).any fun c =>
    let n := ((List.range 4).filter fun k => s.admitted l.ctx (40 * d + 4 * c + k)).length
    packTeams [l.needs 0] (List.replicate n fullRoom)
  ds.filter (· = l.die) ++ ds.filter (· ≠ l.die)

/-- The claim that the firmware agents make for a launch (R326, R327, R328).
(Log entries 21 DESIGN CHOICE, 105 DESIGN CHOICE, 108 DEDUCED, 113 DESIGN CHOICE.) -/
def State.claimFor (s : State) (l : Launch) : List Ev :=
  let span := s.spanFor l
  match (if l.open_ then s.spanned l span else none) with
  | none => []
  | some l =>
    let try_ := fun (cores : List Nat) =>
      let todo := l.todo (cores.map fun c => (c, c))
      if todo = [] then none else s.choosePlaces l (corePairs cores) todo
    let found :=
      if l.sheaf then (List.range 40).findSome? fun c => try_ (s.clusterCores c)
      else if l.dealt && !l.whole then
        (List.range s.dieCount).findSome? fun d =>
          let cs := s.allCores.filter fun c => dieOfCore c == d
          if (l.todo (cs.map fun c => (c, c))).all fun i => (l.claim i d).isSome then try_ cs else none
      else try_ s.allCores
    match found with
    | some ps => [{ op := .ticketClaim, arg := { EvArg.zero with a := l.lid, pairs := ps, nats := span } }]
    | none => []

/-- The moves that the firmware agents offer a chain with a request (R265). -/
def State.moveFor (s : State) (c : Chain) : List Ev :=
  match c.request with
  | none => []
  | some true => s.allCores.map fun k => evPairs .chainMove c.cid [(k, k)]
  | some false =>
    let n := (s.liveStages c).length
    (s.allCores.map fun k => evPairs .chainMove c.cid (List.replicate n (k, k)))
      ++ (List.range 40).map fun k =>
        let cs := s.clusterCores k
        evPairs .chainMove c.cid ((List.range n).map fun i => let x := cs.getD (i % max cs.length 1) 0; (x, x))

/-! ### Internal steps -/

/-- The instruction-cache line of a code address, where it translates. -/
def State.lineOf (s : State) (ctx va : Nat) : List Nat :=
  match s.translate ctx va with
  | .ok loc _ _ => [lineNo loc]
  | _ => []

/-- Lines of a core's instruction cache that a group about to issue needs, or a stream that does not wait. -/
def State.heldLines (s : State) (core : Nat) : List Nat :=
  (s.groups.filter fun g => coreOf g.die g.core == core && s.groupFree g && s.groupLine g (s.nextOf g) == .present).flatMap
    (fun g =>
      let va := (s.codeOf g).1 + g.pc.toNat
      s.lineOf g.ctx va ++ s.lineOf g.ctx (va + (s.nextOf g).bytes - 1))
  ++ (s.teams.filter fun t => t.home == core && t.state == .running).flatMap fun t => match t.stream with
    | some m => if m.ended || m.stopped.isSome || m.wait != MWait.none then []
      else s.lineOf t.ctx (t.codeBase + m.pc.toNat) ++ s.lineOf t.ctx (t.codeBase + m.pc.toNat + 3)
    | none => []

/-- Whether a line may be filled: the line it would replace is needed by no issue that is due (R211).
(Log entry 16 DESIGN CHOICE.) -/
def State.mayFill (s : State) (core x : Nat) : Bool :=
  let same := (s.core core).icache.filter fun y => decide (y % 128 = x % 128)
  decide (same.length < 4) || (match same with
    | a :: _ => !(s.heldLines core).contains a
    | [] => true)

/-- Fetches that miss (R211). -/
def State.fetches (s : State) : List Ev :=
  (s.groups.filter s.groupFree).filterMap (fun g => match s.groupLine g (s.nextOf g) with
    | .away x va => if s.mayFill (coreOf g.die g.core) x then some (evFill (coreOf g.die g.core) x g.ctx va) else none
    | _ => none)
  ++ s.teams.filterMap (fun t => match t.stream with
    | some m => (if t.state == .running && !m.ended && m.stopped.isNone && m.wait == MWait.none then
        (match s.streamLine t m (s.streamNext t m) with
         | .away x va => if s.mayFill t.home x then some (evFill t.home x t.ctx va) else none
         | _ => none) else none)
    | none => none)

/-- Steps of the ordering machine for an access. -/
def Access.events (a : Access) : List Ev :=
  match a.kind with
  | .xlate => if a.returned then [] else [ev .xlateFillEnd a.id]
  | .qget => if a.returned then [] else [ev .pop a.id]
  | .qtry => if a.returned then [] else [ev .pop a.id]
  | .qtryp => if a.returned then [] else [ev .pop a.id]
  | _ =>
    (a.lanes.filter fun l => !l.finished).flatMap fun l =>
      match l.loc.sp with
      | .port _ => [ev .firstTouchStatus a.id]
      | _ =>
        (if a.kind == .spollne then [ev .spollneReread a.id] else [])
          ++ [ev2 .read a.id l.lane, ev2 .atomic a.id l.lane]
          ++ (if a.kind == .spollne then [ev .spollneWindowEnd a.id] else [])

/-- Steps of a group. -/
def State.groupEvents (s : State) (g : Group) : List Ev :=
  g.acc.flatMap Access.events
  ++ (match g.wait with
      | .endDrain => [ev .groupEnd g.gid]
      | _ => [])
  ++ (if g.park.isSome then [ev .fpostResume g.gid, ev .parkReplay g.gid] else [])
  ++ (if s.waitsOnCounter g then
        let k := coreOf g.die g.core
        ev .nearThresholdEntry g.island
          :: (if g.v.isEmpty then [] else
              (List.range' (s.bankOf g 0) (s.bankOf g (g.v.length - 1) + 1 - s.bankOf g 0)).map (ev2 .bankDrowsy k))
      else [])

/-- Banks of a core that hold no allocated register (R221). (Log entry 98 DEDUCED.) -/
def State.bankEvents (s : State) (c : Core) : List Ev :=
  ((List.range 16).filter fun b => !c.drowsy.contains b && !c.waking.any (fun w => w.1 == b)
    && (s.bankGroups c.core b).isEmpty).map (ev2 .bankDrowsy c.core)

/-- Steps of a team.  A saved team leaves to work of higher priority the room that it waits for (R314).
(Log entry 115 DESIGN CHOICE.) -/
def State.teamEvents (s : State) (t : Team) : List Ev :=
  (if t.releasing.isEmpty || t.held.isEmpty then [] else [ev .heldEntryRelease t.tid])
  ++ ((List.range t.bars.length).filter fun b => decide (0 < (t.bar b).arrived)).map (fun b => ev2 .barrierOpen t.tid b)
  ++ (match t.state with
      | .running => [ev .teamRetire t.tid]
      | .stopping => [ev .teamRetire t.tid, ev .preempt t.tid]
      | .saved => ((corePairs s.allCores).filter fun p => !s.outranked (s.teamPrio t) p.1).map fun p =>
          ev3 .teamResume t.tid p.1 p.2
      | _ => [])

/-- Steps of a copy job: its start, the next run read or written, and its end (R235). -/
def jobEvents (j : Job) : List Ev :=
  match j.state with
  | .waiting => [ev .jobStart j.jid]
  | .running =>
    let runs := List.range (cardRuns j.card)
    (match runs.find? (fun r => j.needs r && !j.runsRead.contains r) with
     | some r => [ev2 .jobRead j.jid r]
     | none => [])
    ++ j.bufs.map (fun b => ev2 .jobWrite j.jid b.1) ++ [ev .jobEnd j.jid]
  | _ => []

/-- Steps of a launch. -/
def State.launchEvents (s : State) (l : Launch) : List Ev :=
  ev .teamStart l.lid
  :: (if l.gbar then (List.range 4).flatMap fun n => ((List.range 4).map fun d => ev3 .gbarDieArrival l.lid d n) ++ [ev2 .gbarRelease l.lid n]
      else [])
  ++ s.claimFor l

/-- The Harrow's steps of the record whose turn it is (Table C.3). -/
def harrowOps : List Instr :=
  [.contextAdmit, .contextAllocate, .contextBind, .contextDelete, .mappingPageApply, .mappingPageRelease,
   .mappingPermNarrow, .queueAdmit, .handlePublish, .queueOpen, .queueClose, .queueRelease, .queueEndAdmission,
   .expertQueueDelete, .linkAdmit, .linkConnect, .programAdmit, .selectVariant, .loadImage, .bindQueues,
   .programLaunch, .pauseStep, .unpauseStep, .deletionStep]

def State.harrowEvents (s : State) : List Ev :=
  (if s.publishes.isEmpty then [] else [ev .capture 0])
  ++ s.shoots.map (fun x => ev .shootdownAck x.sd)
  ++ s.moves.map (fun m => ev .moveDone m.mv)
  ++ (s.ctxs.filter fun c => !c.ftReqs.isEmpty).map (fun c => ev .firstTouchRequest c.ctx)
  ++ (match s.turn with
      | some r => harrowOps.map fun op => ev op r.slot
      | none => [])

/-- Steps of the queues. -/
def State.queueEvents (s : State) : List Ev :=
  s.queues.flatMap (fun q => (dedup (q.rtoks.map RToken.seq ++ q.rfails.map Prod.fst)).map fun n => ev2 .reorderRelease q.slot n)
  ++ (if s.queues.any (fun q => q.kind == .expert && !q.entries.isEmpty) then (List.range 4).map (ev .expertFire) else [])

/-- Internal steps, in the order they are tried. (Log entries 7 DESIGN CHOICE, 98 DEDUCED.) -/
def State.innerEvents (s : State) : List Ev :=
  s.fetches ++ s.groups.flatMap s.groupEvents ++ s.stores.map (fun x => ev .perform x.sid) ++ s.teams.flatMap s.teamEvents
  ++ s.jobs.flatMap jobEvents ++ (s.cores.filter fun c => c.lease.holder.isSome).map (fun c => ev .leaseEnd c.core)
  ++ s.cores.flatMap s.bankEvents ++ s.queueEvents ++ s.launches.flatMap s.launchEvents ++ s.chains.flatMap s.moveFor ++ s.harrowEvents

/-! ### The next clk -/

/-- Whether a group is held at a WAITCNT, or by a write that an access has yet to make to a register which its next
instruction writes (R260, R49). -/
def State.heldByWrite (s : State) (g : Group) : Bool :=
  (match g.wait with
    | .waitcnt .. => true
    | _ => false)
  || (s.groupFree g && g.landing.isEmpty && (match s.nextOf g with
    | .word i _ _ => (vDstOf g.fmt (extCore i)).any g.busyV || (sDstOf (extCore i)).any g.busyS
    | _ => false))

/-- Whether stage k waits for nothing but the pop of its outside queue. -/
def State.waitsOutside (s : State) (c : Chain) (k : Nat) (st : Stage) : Bool :=
  (!c.folded || k == c.running) && st.block == .none && (match s.group? st.gid with
    | none => false
    | some g => s.onOutsidePop g && s.heldByWrite g)

/-- A stage of a chain that waits for nothing but the pop of its outside queue is blocked on it (R260): in the folded
form the running one. -/
def State.blockOutside (s : State) (c : Chain) : State :=
  { s with chains := s.chains.map fun x =>
      if x.cid = c.cid then
        { x with stages := x.stages.mapIdx fun k st => if s.waitsOutside c k st then { st with block := .outside } else st }
      else x }

/-- Stages block on their outside queues, and folded chains look for a stage to resume (R260, R261). -/
def State.foldChains (s : State) : State :=
  s.each s.chains fun s c => (s.blockOutside c).foldSwitch c.cid

/-- How long each group has been ready without issuing, the largest number that it was ready among since it last
issued, whether it is urgent (R206), and the first attempt of an ACC instruction that a tile holds (R194).  A group that
has issued, or is not ready, is not urgent.  A group bound to a core begins or ends a wait on a counter (R372).
(Log entry 87 DESIGN CHOICE.) -/
def State.countReady (s : State) : State :=
  let up := s.readiness
  { s with groups := s.groups.map fun g =>
      let waits := s.waitsOnCounter g && s.holders.any fun t => t.tid == g.tid
      let g : Group := { g with waitFrom := if waits then some (g.waitFrom.getD s.clk) else none }
      if s.isReady g then
        { g with readyFor := g.readyFor + 1, maxN := max g.maxN (g.peers up), urgent := g.isUrgent up }
      else
        let u := s.nextOf g
        let tries := g.tried.isNone && s.readyButTile g u && s.powered g u
        { g with readyFor := 0, urgent := false, tried := if tries then some s.clk else g.tried } }

/-- Launches that a page that moves has kept back are made where they now can be (R288, R311). -/
def State.launchAllHeld (s : State) : State :=
  if s.recs.any Rec.unlaunched then s.launchHeld else s

/-- A new throttle takes effect at a multiple of 16 clk (R209). (Log entry 104 DEDUCED.) -/
def State.throttles (s : State) : State :=
  if s.clk % 16 = 0 then { s with dies := s.dies.map fun d => { d with throttle := d.nextThrottle } } else s

/-- Accesses that access nothing leave their counters a beat after they issued (R34), and waits that are over end. -/
def State.retireAll (s : State) : State :=
  s.each (s.groups.filter fun g => !g.acc.isEmpty || g.wait != .none) fun s g => s.follow g.gid

/-- Islands whose groups no longer ask for near-threshold mode may enter it anew (R372). (Log entry 95 DEDUCED.) -/
def State.settleIslands (s : State) : State :=
  { s with islands := s.islands.map fun i => { i with asked := i.asked && s.asksNear i.isl } }

/-- The next clk. (Log entry 8 DESIGN CHOICE.) -/
def State.tick (s : State) : State :=
  let s := s.countReady.launchAllHeld.beginStops.settleIslands
  ({ s with clk := s.clk + 1 } : State).retireAll.throttles.foldChains.beginWakes.refreshActual.tidy

/-! ### The outside schedule -/

/-- Whether an outside schedule may name an instruction: a hardware step, but not the trap of a word that does not
decode. -/
def schedulable (i : Instr) : Bool := (encodeWord i).isNone && i != .illegalInstruction

/-- Steps that a device held in reset takes (R374). -/
def inResetStep (i : Instr) : Bool :=
  match i with
  | .sensorSample => true
  | .thermalResetRelease => true
  | .coldReset => true
  | .powerOn => true
  | _ => false

/-- The step that the schedule names first. (Log entries 4 DESIGN CHOICE, 7 DESIGN CHOICE.) -/
def State.scheduled (s : State) (e : Ev) (r : List Ev) : Answer :=
  let s := { s with sched := r }
  if schedulable e.op && (!s.inReset || inResetStep e.op) then s.runEv e else .next s.tidy

end Sys2Proof.Machine
end

