-- ==== Sys2Proof/Machine/Fetch.lean ====
section
/-!
DEFINITION. A machine about to issue one given instruction: what a launch (R198 to R202) would have placed, made by hand for
one group, or for one matrix stream.
-/

namespace Sys2Proof.Machine

/-- Where the instruction lies: virtual and physical address of its page. -/
def wordVa : Nat := 0x10000

/-- A live context with one page, of all rights. -/
def wordCtx : Ctx := { newCtx (Rec.fresh 0) with clmask := 1, pceil := 7 }
def wordPage : Page := areaPage 0 wordVa 0x10000 wordVa .dev 7 false .mapping

/-- A team of one group, with a matrix stream where that is asked for. -/
def wordTeam (stream : Bool) : Team :=
  { tid := 1, launch := 0, ctx := 0, linear := 0, role := 0, tsize := 1, budget := 128, producer := 0, scratch := 0, tagN := 0,
    home := 0, partner := 0, state := .running, win := [], winPoison := [], tags := [], guards := List.replicate 16 0,
    bars := List.replicate 16 (Barrier.fresh 1), planes := [], held := [],
    committed := false, commitTurn := 0, releasing := [], jobs := [], tokens := List.replicate 8 Token.fresh,
    stream := if stream then some
        { pc := 0, fmt := 0, loops := [], obs := List.replicate 16 0, wait := .none, ended := false, stopped := none,
          lastIssue := none, mmasNow := 0, othersNow := 0, inFlight := [], readyAt := 0, waiting := none, passed := 0, prio := 0 }
      else none
    tiles := List.replicate 16 zeroTile, frags := [], codeBase := wordVa, codeSize := 8, chain := none, stop := .none, reserved := 0 }

/-- Its group, in slot 1 of core 0, as it starts (R15). -/
def wordGroup : Group :=
  { gid := 2, tid := 1, ctx := 0, grp := 0, die := 0, core := 0, slot := 1, v := List.replicate 128 (List.replicate 32 0),
    s := List.replicate 64 0, exec := 0xFFFFFFFF, fmt := 0, pc := 0, codeBase := wordVa, codeSize := 8,
    b := List.replicate 8 TransReg.fresh, q := List.replicate 16 QBind.none, path := [], loops := [], depth := 0, u := 0,
    seed := 1, schk := false, prio := 4, clkh := 0, epc := 0, ecause := 0, emask := 0, frec := 0, teamX := 0, teamY := 0,
    teamZ := 0, nteamX := 1, nteamY := 1, nteamZ := 1, tsize := 1, nest := 0, super := false, handler := none,
    reissue := none, park := none, pend := [], lower := 0, anchor := none, fold := false,
    bars := List.replicate 16 { arr := none, arrId := 0, obs := 0 }, psts := [], landing := [], acc := [], poison := [], mark := 0,
    floors := [], epoch := 0, wait := .none, readyAt := 0, tried := none, lastIssue := none, readyFor := 0, maxN := 0,
    urgent := false, waitFrom := none, priv := 0, back := false, pendPops := [], dlyLeft := 0, ended := false }

/-- The bytes of a word, and those of zeros above it. -/
def wordBytes8 (nbits w : Nat) : List Byte := leBytes 8 (w % 2 ^ nbits)

/-- The state with one group, or for a word of the matrix stream (R55) one stream, about to issue a word.
(Log entry 9 DESIGN CHOICE.) -/
def State.placeWord (s : State) (nbits w : Nat) : State :=
  let stream := w % 2 == 1 && fld w 3 5 == 0x1C
  { s with
    sched := [], inReset := false, dies := [], issue := none, arg := EvArg.zero
    dev := cellsPutAll s.dev wordVa (wordBytes8 nbits w)
    ctxs := [wordCtx], pages := [wordPage], teams := [wordTeam stream]
    groups := if stream then [] else [wordGroup]
    cores := [{ Core.fresh 0 with icache := [wordVa / 128], drowsy := [] }] }

end Sys2Proof.Machine
end

