-- ==== Sys2Proof/Machine/Step.lean ====
section
/-!
DEFINITION. One step of the machine.
-/

namespace Sys2Proof.Machine

/-- One step: what the outside schedule names first; else a timed step that is due; else one issue; else an internal step;
else the next clk.  A device held in reset only counts clk (R374). (Log entry 7 DESIGN CHOICE.) -/
def step (s : State) : Host.Outcome State Fault Refusal :=
  match s.sched with
  | e :: r => s.scheduled e r
  | [] =>
    if s.inReset then .next { s with clk := s.clk + 1 }
    else match s.firstChange s.dueEvents with
      | some x => x
      | none => match s.pick with
        | some w => s.issueOne w
        | none => match s.firstChange s.innerEvents with
          | some x => x
          | none => .next s.tick

/-- The state with an instruction placed where the next step issues it. (Log entry 9 DESIGN CHOICE.) -/
def State.withFetchWord (s : State) (nbits w : Nat) : State := s.placeWord nbits w

end Sys2Proof.Machine
end

