-- ==== Sys2Proof/WellFormed.lean ====
section
/-!
DEFINITION. Which terms of `Instr` stand for words that the encoding tables give (R54, R56): two fields of a word may depend
on each other, and an EXT's second part is a parcel or a word.
-/

namespace Sys2Proof

/-- Whether an instruction has a word of its own; a hardware step has none. -/
def Instr.isWord (i : Instr) : Bool := (encodeWord i).isSome

/-- Whether the fields of an instruction agree with each other: LOOP's imm8 is 0 where a register gives the count (Table
A.17), CPY's guard is 0 where it names none (Table A.21), and what follows an EXT is a parcel of 16 bits or a word of 32,
which its lowest bit tells apart (R43, R56). -/
def Instr.wellFormed : Instr → Bool
  | .vaddI _ _ _ => true
  | .vsubI _ _ _ => true
  | .vmullo _ _ _ => true
  | .vmulhiS _ _ _ => true
  | .vmulhiZ _ _ _ => true
  | .vand _ _ _ => true
  | .vor _ _ _ => true
  | .vxor _ _ _ => true
  | .vshl _ _ _ => true
  | .vshrz _ _ _ => true
  | .vshrs _ _ _ => true
  | .vminS _ _ _ => true
  | .vmaxS _ _ _ => true
  | .vminZ _ _ _ => true
  | .vmaxZ _ _ _ => true
  | .vrotl _ _ _ => true
  | .vaddF _ _ _ => true
  | .vsubF _ _ _ => true
  | .vmulF _ _ _ => true
  | .vfmaF _ _ _ => true
  | .vfnmaF _ _ _ => true
  | .vminF _ _ _ => true
  | .vmaxF _ _ _ => true
  | .vcpsgn _ _ _ => true
  | .vaddH _ _ _ => true
  | .vmulH _ _ _ => true
  | .vfmaH _ _ _ => true
  | .vdot2H _ _ _ => true
  | .vaddBf _ _ _ => true
  | .vmulBf _ _ _ => true
  | .vfmaBf _ _ _ => true
  | .vdot2Bf _ _ _ => true
  | .vcmpEqF _ _ _ => true
  | .vcmpNeF _ _ _ => true
  | .vcmpLtF _ _ _ => true
  | .vcmpLeF _ _ _ => true
  | .vcmpGtF _ _ _ => true
  | .vcmpGeF _ _ _ => true
  | .vcmpUnF _ _ _ => true
  | .vcmpOrF _ _ _ => true
  | .vcmpEqI _ _ _ => true
  | .vcmpNeI _ _ _ => true
  | .vcmpLtS _ _ _ => true
  | .vcmpLeS _ _ _ => true
  | .vcmpLtZ _ _ _ => true
  | .vcmpLeZ _ _ _ => true
  | .vcmpTst _ _ _ => true
  | .vcmpNtst _ _ _ => true
  | .vaddi _ _ _ => true
  | .vandi _ _ _ => true
  | .vori _ _ _ => true
  | .vxori _ _ _ => true
  | .vshli _ _ _ => true
  | .vshrzi _ _ _ => true
  | .vshrsi _ _ _ => true
  | .vmuli _ _ _ => true
  | .vcvt _ _ => true
  | .vcvtfS _ _ => true
  | .vcvtsF _ _ => true
  | .vcvtfZ _ _ => true
  | .vcvtzF _ _ => true
  | .vpkbx8 _ _ => true
  | .vupbx8 _ _ => true
  | .vpkbx4 _ _ => true
  | .vupbx4 _ _ => true
  | .vpkf8 _ _ => true
  | .vupf8 _ _ => true
  | .vrcp _ _ => true
  | .vrsq _ _ => true
  | .vsqrt _ _ => true
  | .vexp2 _ _ => true
  | .vlog2 _ _ => true
  | .vsinpi _ _ => true
  | .vcospi _ _ => true
  | .vtanh _ _ => true
  | .vabsF _ _ => true
  | .vnegF _ _ => true
  | .vfloor _ _ => true
  | .vfract _ _ => true
  | .vabsI _ _ => true
  | .vnegI _ _ => true
  | .vnot _ _ => true
  | .vpopc _ _ => true
  | .vclz _ _ => true
  | .vbrev _ _ => true
  | .vshfl _ _ _ => true
  | .vshflx _ _ _ => true
  | .vshflup _ _ _ => true
  | .vshfldn _ _ _ => true
  | .vbcast _ _ _ => true
  | .vraddF _ _ => true
  | .vrmaxF _ _ => true
  | .vscanF _ _ => true
  | .vbcs _ _ => true
  | .vmovsl _ _ _ => true
  | .vlaneid _ => true
  | .vsetl _ _ _ => true
  | .sadd _ _ _ => true
  | .ssub _ _ _ => true
  | .smul _ _ _ => true
  | .smulhs _ _ _ => true
  | .smulhz _ _ _ => true
  | .sand _ _ _ => true
  | .sor _ _ _ => true
  | .sxor _ _ _ => true
  | .sandn _ _ _ => true
  | .sshl _ _ _ => true
  | .sshrz _ _ _ => true
  | .sshrs _ _ _ => true
  | .smins _ _ _ => true
  | .smaxs _ _ _ => true
  | .sminz _ _ _ => true
  | .smaxz _ _ _ => true
  | .sslts _ _ _ => true
  | .ssltz _ _ _ => true
  | .sseq _ _ _ => true
  | .spopc _ _ => true
  | .sctz _ _ => true
  | .sclz _ _ => true
  | .sbfe _ _ _ => true
  | .sbfi _ _ _ => true
  | .sadd64 _ _ _ => true
  | .ssub64 _ _ _ => true
  | .sshl64 _ _ _ => true
  | .sshrz64 _ _ _ => true
  | .ssel _ _ _ => true
  | .saddi _ _ _ => true
  | .sandi _ _ _ => true
  | .sori _ _ _ => true
  | .sxori _ _ _ => true
  | .slui _ _ => true
  | .dly _ _ => true
  | .srd _ _ => true
  | .swr _ _ => true
  | .sexec _ => true
  | .sexecand _ => true
  | .sexecandn _ => true
  | .sgetexec _ => true
  | .fmtset _ => true
  | .fmtget _ => true
  | .jmpr _ => true
  | .callr _ => true
  | .trap _ => true
  | .brk _ => true
  | .launch _ _ => true
  | .gset _ _ => true
  | .gclr _ => true
  | .brAlways _ => true
  | .brSz _ _ => true
  | .brSnz _ _ => true
  | .brSneg _ _ => true
  | .brSnneg _ _ => true
  | .brExecz _ => true
  | .brExecnz _ => true
  | .brExecall _ => true
  | .dbr _ _ => true
  | .dbrT _ _ => true
  | .call _ => true
  | .loop a n _ => a == 0 || n == 0
  | .ld _ _ _ _ _ _ => true
  | .st _ _ _ _ _ => true
  | .atomAdd _ _ _ _ => true
  | .atomMinS _ _ _ _ => true
  | .atomMaxS _ _ _ _ => true
  | .atomMinZ _ _ _ _ => true
  | .atomMaxZ _ _ _ _ => true
  | .atomAnd _ _ _ _ => true
  | .atomOr _ _ _ _ => true
  | .atomXor _ _ _ _ => true
  | .atomXchg _ _ _ _ => true
  | .atomCas _ _ _ _ => true
  | .atomAddF _ _ _ _ => true
  | .atomMaxF _ _ _ _ => true
  | .atomMinF _ _ _ _ => true
  | .sld _ _ _ => true
  | .sld64 _ _ _ => true
  | .sst _ _ _ => true
  | .sst64 _ _ _ => true
  | .satadd _ _ _ => true
  | .satcas _ _ _ => true
  | .spollne _ _ _ => true
  | .sldacq _ _ _ => true
  | .spld _ _ _ => true
  | .spldq _ _ _ => true
  | .spst _ _ _ => true
  | .spstq _ _ _ => true
  | .vtaglk _ _ _ => true
  | .tagset _ _ _ => true
  | .tagclr _ _ _ => true
  | .spatadd _ _ _ => true
  | .spataddF _ _ _ => true
  | .fence _ _ => true
  | .bara _ => true
  | .barw _ => true
  | .bars _ => true
  | .gbar _ => true
  | .waitcnt _ _ => true
  | .waitk _ => true
  | .xlate _ _ => true
  | .xinv _ => true
  | .bari _ _ => true
  | .qbind _ _ _ => true
  | .qget _ _ _ => true
  | .qput _ _ _ => true
  | .qtry _ _ _ _ => true
  | .qtryp _ _ _ _ => true
  | .qstat _ _ => true
  | .qunbind _ => true
  | .cpy _ _ _ g v => v == 1 || g == 0
  | .kstat _ _ => true
  | .kbytes _ _ => true
  | .kclr _ => true
  | .kreplay _ => true
  | .pld _ _ _ => true
  | .pst _ _ _ => true
  | .pstep _ => true
  | .pqry _ _ _ => true
  | .mma _ _ _ => true
  | .mzero _ => true
  | .mwaitb _ => true
  | .msigb _ => true
  | .mloop _ _ => true
  | .mfmt _ => true
  | .accrd _ _ _ => true
  | .accwr _ _ _ => true
  | .accrdc _ _ _ => true
  | .vmov _ _ => true
  | .vaddI16 _ _ => true
  | .vsubI16 _ _ => true
  | .vand16 _ _ => true
  | .vor16 _ _ => true
  | .vxor16 _ _ => true
  | .vshl16 _ _ => true
  | .vshrz16 _ _ => true
  | .vaddF16 _ _ => true
  | .vsubF16 _ _ => true
  | .vmulF16 _ _ => true
  | .vmaxF16 _ _ => true
  | .vminF16 _ _ => true
  | .vmullo16 _ _ => true
  | .vshrs16 _ _ => true
  | .vnot16 _ _ => true
  | .nop => true
  | .join => true
  | .ret => true
  | .endI => true
  | .commit => true
  | .eret => true
  | .yield => true
  | .backoff => true
  | .fpost => true
  | .mend => true
  | .mnop => true
  | .checkPhaseEnd => true
  | .xlateFillEnd => true
  | .icacheFill => true
  | .perform => true
  | .read => true
  | .atomic => true
  | .fill => true
  | .evict => true
  | .pop => true
  | .linkEntryReady => true
  | .spollneWindowEnd => true
  | .spollneReread => true
  | .dlyEnd => true
  | .yieldEnd => true
  | .groupEnd => true
  | .barrierOpen => true
  | .barrierWave => true
  | .gbarDieArrival => true
  | .gbarRelease => true
  | .swap => true
  | .heldEntryRelease => true
  | .reorderRelease => true
  | .jobStart => true
  | .jobRead => true
  | .jobWrite => true
  | .jobEnd => true
  | .mmaRetire => true
  | .leaseEnd => true
  | .ticketClaim => true
  | .teamStart => true
  | .teamRetire => true
  | .expertFire => true
  | .expertAgeLimit => true
  | .fpostResume => true
  | .parkReplay => true
  | .faultBatchAge => true
  | .faultTimeout => true
  | .hostAbsence => true
  | .firstTouchRequest => true
  | .firstTouchStatus => true
  | .capture => true
  | .notifyHoldExpiry => true
  | .msixUnmask => true
  | .notifyConsWrite => true
  | .faultRingConsWrite => true
  | .ncountWrite => true
  | .nholdWrite => true
  | .registerWrite => true
  | .contextAdmit => true
  | .contextAllocate => true
  | .contextBind => true
  | .contextDelete => true
  | .mappingPageApply => true
  | .mappingPageRelease => true
  | .mappingPermNarrow => true
  | .shootdownAck => true
  | .queueAdmit => true
  | .handlePublish => true
  | .queueOpen => true
  | .queueClose => true
  | .queueRelease => true
  | .queueEndAdmission => true
  | .expertQueueDelete => true
  | .linkAdmit => true
  | .linkConnect => true
  | .programAdmit => true
  | .selectVariant => true
  | .loadImage => true
  | .bindQueues => true
  | .programLaunch => true
  | .chainMove => true
  | .chainMoveDone => true
  | .pauseStep => true
  | .unpauseStep => true
  | .preempt => true
  | .teamResume => true
  | .migrationCycle => true
  | .moveDone => true
  | .lockHoldExpiry => true
  | .hostWarmRestart => true
  | .hostWrite => true
  | .hostRead => true
  | .keyset => true
  | .dbgHalt => true
  | .dbgRead => true
  | .dbgWrite => true
  | .dbgStep => true
  | .dbgResume => true
  | .fwstage => true
  | .spdmSign => true
  | .portLossOfLock => true
  | .linkDown => true
  | .inboundRemoteJob => true
  | .inboundAccess => true
  | .streamPacket => true
  | .streamDeadline => true
  | .gleanerScrub => true
  | .trimWindowEnd => true
  | .barendExpiry => true
  | .nearThresholdEntry => true
  | .nearThresholdExit => true
  | .bankDrowsy => true
  | .bankWake => true
  | .sensorSample => true
  | .throttleStep => true
  | .droopAlarm => true
  | .droopRestore => true
  | .firmwareException => true
  | .coldReset => true
  | .powerOn => true
  | .illegalInstruction => true
  | .writeLands => true
  | .ptpLock => true
  | .ptpLockLoss => true
  | .retrainingDone => true
  | .formPolicyChoice => true
  | .deletionStep => true
  | .thermalResetRelease => true
  | .tdispRequest => true
  | .ext _ w => w.getLsbD 0 || decide (w.toNat < 65536)

end Sys2Proof
end

