-- ==== Sys2Proof/Safety.lean ====
section
/-!
DEFINITION. The terms in which claims about the machine are stated: an instruction that issues, the registers it may use, how it
completes, what a step leaves alone, and the canonical form of memory.
-/

namespace Sys2Proof.Machine

/-- Group g issues the instruction of issue q, and no trap raised outside its own issue is due at it (R103, R132, R164,
R193). -/
structure Issues (s : State) (q : Issue) (g : Group) : Prop where
  issue : s.issue = some q
  who : q.who = .group g.gid
  group : s.group? g.gid = some g
  clear : s.duePend g = none

/-- The registers of an instruction are ones the group has (R17, R257), and none that it reads awaits a write while SCHK
is on (R50). -/
structure Usable (g : Group) (u : Uses) : Prop where
  budget : ∀ r ∈ u.vN, r < g.v.length
  fold : g.fold = true → ∀ r ∈ u.sN, r ≤ 15
  vector : g.schk = true → ∀ r ∈ u.vR, g.busyV r = false
  scalar : g.schk = true → ∀ r ∈ u.sR, g.busyS r = false

/-- The matrix stream of team t, m, issues the word of issue q, and the team runs no trap of it. -/
structure StreamIssues (s : State) (q : Issue) (t : Team) (m : Stream) : Prop where
  issue : s.issue = some q
  who : q.who = .stream t.tid
  team : s.team? t.tid = some t
  stream : t.stream = some m

/-- The immediate of issue q: its value alone, or its value after the EXT before its word (Table A.23). -/
def Issue.immediate (q : Issue) (alone : Word) (after : BitVec 24 → Word) : Word :=
  match q.ext with
  | none => alone
  | some x => after x

/-- Group g' after an instruction of issue q: its stall count holds (R47), and it goes on to the next instruction or
to the start of a loop that the instruction ends (R93). -/
def Group.onward (g' : Group) (clk : Nat) (q : Issue) : Group := (g'.stamp clk q.sc).advance q.len

/-- The instruction completes with group g' and goes on. -/
def Completes (s : State) (q : Issue) (i : Instr) (g' : Group) : Prop := exec i s = .next (s.putGroup (g'.onward s.clk q))

/-- Group g' after a taken transfer of issue q to t; one that ERET re-issued goes on after itself (R107). -/
def Group.sentTo (g' : Group) (q : Issue) (t : Word) : Group :=
  if g'.reissue = none then { g' with pc := t, wait := .none } else g'.advance q.len

/-- The instruction completes with group g', whose program counter it has set. -/
def Transfers (s : State) (q : Issue) (i : Instr) (g' : Group) : Prop := exec i s = .next (s.putGroup (g'.stamp s.clk q.sc))

/-- The instruction traps with a cause that is not raised per lane (R59). -/
def Traps (s : State) (g : Group) (i : Instr) (cause : Nat) : Prop := exec i s = .next (s.trap g cause)

/-- Every byte of every memory reads as before. -/
def SameBytes (s t : State) : Prop := ∀ p : PAddr, t.byteAt p = s.byteAt p

/-- Every byte outside the n bytes from a location on reads as before. -/
def SameBytesBut (s t : State) (loc : PAddr) (n : Nat) : Prop :=
  ∀ p : PAddr, ¬(p.sp = loc.sp ∧ loc.a ≤ p.a ∧ p.a < loc.a + n) → t.byteAt p = s.byteAt p

/-- Nothing but one group differs. -/
def OnlyGroup (s t : State) (gid : Nat) : Prop :=
  t = { s with groups := t.groups } ∧ ∀ h, h ≠ gid → t.group? h = s.group? h

/-- What a register instruction leaves alone in its group: everything but the named registers, the results on their way
to them, and what every issue changes (the program counter, the loop stack at its end check, the exec that a re-issue
gives back, and the issue machine's own marks). -/
def KeepsGroup (g h : Group) (vs ss : List Nat) : Prop :=
  (∀ r, r ∉ vs → h.vreg r = g.vreg r) ∧ (∀ r, r ∉ ss → h.sreg r = g.sreg r)
  ∧ (∃ new : List Landing, h.landing = g.landing ++ new
      ∧ ∀ w ∈ new, (w.scalar = true → w.reg ∈ ss) ∧ (w.scalar = false → w.reg ∈ vs))
  ∧ h = { g with v := h.v, s := h.s, landing := h.landing, pc := h.pc, loops := h.loops, exec := g.reissue.getD g.exec,
                 reissue := none, wait := .none, readyAt := h.readyAt, lastIssue := h.lastIssue, readyFor := h.readyFor,
                 maxN := h.maxN, urgent := h.urgent, tried := h.tried }

/-- The four memories that outlive every object of the device, each in canonical form. -/
def MemoryCanonical (s : State) : Prop :=
  Memory.wf s.dev = true ∧ Memory.wf s.hostMem = true ∧ Memory.wf s.crash = true ∧ ∀ p ∈ s.peers, Memory.wf p.2 = true

/-- What a taken BR, JMPR or RET to t leaves of the loop stack: the entries from the first whose loop holds t (R94). -/
def Group.loopsAt (g : Group) (t : Word) : List LoopEntry :=
  g.loops.dropWhile fun e => !(decide (e.start.toNat ≤ t.toNat) && decide (t.toNat ≤ e.stop.toNat))

/-- The BACKOFF lowering after a taken transfer to t: gone when t lies past the BACKOFF that it was last made by
(R100). -/
def Group.lowerAt (g : Group) (t : Word) : Nat :=
  if g.anchor.any fun a => decide (a.toNat < t.toNat) then 0 else g.lower

/-- The group waits at the instruction. -/
def Waits (s : State) (q : Issue) (i : Instr) (g : Group) (w : Wait) : Prop :=
  exec i s = .next (s.putGroup { g.stamp s.clk q.sc with wait := w })

/-- The group stays at the instruction, which issues again a beat later: its translation register is being filled
(R147). -/
def Retries (s : State) (g : Group) (i : Instr) : Prop := exec i s = .next (s.putGroup { g with readyAt := s.clk + 4 })

/-- Nothing but groups, the next identity, page requests and stores differs, and of the groups only one. -/
def OnlyAccess (s t : State) (gid : Nat) : Prop :=
  t = { s with groups := t.groups, nextId := t.nextId, migReqs := t.migReqs, stores := t.stores }
  ∧ ∀ h, h ≠ gid → t.group? h = s.group? h

/-- Group g's access a has entered its counter (R34), every lane having passed: the group goes on, or, off the fast path,
waits four clk for the end of the check phase (R130). -/
structure Entered (s t : State) (q : Issue) (g : Group) (a : Access) (fast : Bool) : Prop where
  group : t.group? g.gid = some (if fast then ({ g with acc := g.acc ++ [a] } : Group).onward s.clk q
    else { ({ g with acc := g.acc ++ [a] } : Group).stamp s.clk q.sc with wait := .check (s.clk + 4) q.len [] })
  only : OnlyAccess s t g.gid
  bytes : SameBytes s t

/-- The stores xs of access a, (lane, target, bytes), have joined the group's buffer after those of state s, in that order
and with the release scope rel. -/
def Buffered (s t : State) (g : Group) (a : Access) (rel : Option Nat) (xs : List (Nat × Target × List Byte)) : Prop :=
  ∃ new : List Store, t.stores = s.stores ++ new ∧ new.map (fun x => (x.lane, x.tgt, x.data)) = xs
    ∧ (∀ x ∈ new, x.gid = g.gid ∧ x.acc = a.id ∧ x.reach = .none ∧ x.rel = rel)
    ∧ new.Pairwise fun x y => x.sid < y.sid

/-- Every lane in exec passes its check phase (R131), the lanes' requests being rs in lane order. -/
def LanesPass (cs : List LaneCheck) (rs : List LaneReq) : Prop := cs = rs.map LaneCheck.pass

/-- A hardware step takes state s to state t. -/
def Steps (i : Instr) (s t : State) : Prop := exec i s = .next t

/-- The vector and the scalar registers that an instruction writes, of those that change nothing else but a program
counter (Tables A.10 and A.14 to A.18). -/
def writtenBy : Instr → Option (List Nat × List Nat)
  | .vaddI d _ _ => some ([d.toNat], [])
  | .vsubI d _ _ => some ([d.toNat], [])
  | .vmullo d _ _ => some ([d.toNat], [])
  | .vmulhiS d _ _ => some ([d.toNat], [])
  | .vmulhiZ d _ _ => some ([d.toNat], [])
  | .vand d _ _ => some ([d.toNat], [])
  | .vor d _ _ => some ([d.toNat], [])
  | .vxor d _ _ => some ([d.toNat], [])
  | .vshl d _ _ => some ([d.toNat], [])
  | .vshrz d _ _ => some ([d.toNat], [])
  | .vshrs d _ _ => some ([d.toNat], [])
  | .vminS d _ _ => some ([d.toNat], [])
  | .vmaxS d _ _ => some ([d.toNat], [])
  | .vminZ d _ _ => some ([d.toNat], [])
  | .vmaxZ d _ _ => some ([d.toNat], [])
  | .vrotl d _ _ => some ([d.toNat], [])
  | .vaddF d _ _ => some ([d.toNat], [])
  | .vsubF d _ _ => some ([d.toNat], [])
  | .vmulF d _ _ => some ([d.toNat], [])
  | .vfmaF d _ _ => some ([d.toNat], [])
  | .vfnmaF d _ _ => some ([d.toNat], [])
  | .vminF d _ _ => some ([d.toNat], [])
  | .vmaxF d _ _ => some ([d.toNat], [])
  | .vcpsgn d _ _ => some ([d.toNat], [])
  | .vaddH d _ _ => some ([d.toNat], [])
  | .vmulH d _ _ => some ([d.toNat], [])
  | .vfmaH d _ _ => some ([d.toNat], [])
  | .vdot2H d _ _ => some ([d.toNat], [])
  | .vaddBf d _ _ => some ([d.toNat], [])
  | .vmulBf d _ _ => some ([d.toNat], [])
  | .vfmaBf d _ _ => some ([d.toNat], [])
  | .vdot2Bf d _ _ => some ([d.toNat], [])
  | .vcmpEqF d _ _ => some ([], [d.toNat])
  | .vcmpNeF d _ _ => some ([], [d.toNat])
  | .vcmpLtF d _ _ => some ([], [d.toNat])
  | .vcmpLeF d _ _ => some ([], [d.toNat])
  | .vcmpGtF d _ _ => some ([], [d.toNat])
  | .vcmpGeF d _ _ => some ([], [d.toNat])
  | .vcmpUnF d _ _ => some ([], [d.toNat])
  | .vcmpOrF d _ _ => some ([], [d.toNat])
  | .vcmpEqI d _ _ => some ([], [d.toNat])
  | .vcmpNeI d _ _ => some ([], [d.toNat])
  | .vcmpLtS d _ _ => some ([], [d.toNat])
  | .vcmpLeS d _ _ => some ([], [d.toNat])
  | .vcmpLtZ d _ _ => some ([], [d.toNat])
  | .vcmpLeZ d _ _ => some ([], [d.toNat])
  | .vcmpTst d _ _ => some ([], [d.toNat])
  | .vcmpNtst d _ _ => some ([], [d.toNat])
  | .vaddi d _ _ => some ([d.toNat], [])
  | .vandi d _ _ => some ([d.toNat], [])
  | .vori d _ _ => some ([d.toNat], [])
  | .vxori d _ _ => some ([d.toNat], [])
  | .vshli d _ _ => some ([d.toNat], [])
  | .vshrzi d _ _ => some ([d.toNat], [])
  | .vshrsi d _ _ => some ([d.toNat], [])
  | .vmuli d _ _ => some ([d.toNat], [])
  | .vrcp d _ => some ([d.toNat], [])
  | .vrsq d _ => some ([d.toNat], [])
  | .vsqrt d _ => some ([d.toNat], [])
  | .vexp2 d _ => some ([d.toNat], [])
  | .vlog2 d _ => some ([d.toNat], [])
  | .vsinpi d _ => some ([d.toNat], [])
  | .vcospi d _ => some ([d.toNat], [])
  | .vtanh d _ => some ([d.toNat], [])
  | .vabsF d _ => some ([d.toNat], [])
  | .vnegF d _ => some ([d.toNat], [])
  | .vfloor d _ => some ([d.toNat], [])
  | .vfract d _ => some ([d.toNat], [])
  | .vabsI d _ => some ([d.toNat], [])
  | .vnegI d _ => some ([d.toNat], [])
  | .vnot d _ => some ([d.toNat], [])
  | .vpopc d _ => some ([d.toNat], [])
  | .vclz d _ => some ([d.toNat], [])
  | .vbrev d _ => some ([d.toNat], [])
  | .vshfl d _ _ => some ([d.toNat], [])
  | .vshflx d _ _ => some ([d.toNat], [])
  | .vshflup d _ _ => some ([d.toNat], [])
  | .vshfldn d _ _ => some ([d.toNat], [])
  | .vbcast d _ _ => some ([d.toNat], [])
  | .vraddF d _ => some ([d.toNat], [])
  | .vrmaxF d _ => some ([d.toNat], [])
  | .vscanF d _ => some ([d.toNat], [])
  | .vbcs d _ => some ([d.toNat], [])
  | .vmovsl _ s _ => some ([], [s.toNat])
  | .vlaneid d => some ([d.toNat], [])
  | .vsetl d _ _ => some ([d.toNat], [])
  | .sadd d _ _ => some ([], [d.toNat])
  | .ssub d _ _ => some ([], [d.toNat])
  | .smul d _ _ => some ([], [d.toNat])
  | .smulhs d _ _ => some ([], [d.toNat])
  | .smulhz d _ _ => some ([], [d.toNat])
  | .sand d _ _ => some ([], [d.toNat])
  | .sor d _ _ => some ([], [d.toNat])
  | .sxor d _ _ => some ([], [d.toNat])
  | .sandn d _ _ => some ([], [d.toNat])
  | .sshl d _ _ => some ([], [d.toNat])
  | .sshrz d _ _ => some ([], [d.toNat])
  | .sshrs d _ _ => some ([], [d.toNat])
  | .smins d _ _ => some ([], [d.toNat])
  | .smaxs d _ _ => some ([], [d.toNat])
  | .sminz d _ _ => some ([], [d.toNat])
  | .smaxz d _ _ => some ([], [d.toNat])
  | .sslts d _ _ => some ([], [d.toNat])
  | .ssltz d _ _ => some ([], [d.toNat])
  | .sseq d _ _ => some ([], [d.toNat])
  | .spopc d _ => some ([], [d.toNat])
  | .sctz d _ => some ([], [d.toNat])
  | .sclz d _ => some ([], [d.toNat])
  | .sbfe d _ _ => some ([], [d.toNat])
  | .sbfi d _ _ => some ([], [d.toNat])
  | .sadd64 d _ _ => some ([], [d.toNat, d.toNat + 1])
  | .ssub64 d _ _ => some ([], [d.toNat, d.toNat + 1])
  | .sshl64 d _ _ => some ([], [d.toNat, d.toNat + 1])
  | .sshrz64 d _ _ => some ([], [d.toNat, d.toNat + 1])
  | .ssel d _ _ => some ([], [d.toNat])
  | .saddi d _ _ => some ([], [d.toNat])
  | .sandi d _ _ => some ([], [d.toNat])
  | .sori d _ _ => some ([], [d.toNat])
  | .sxori d _ _ => some ([], [d.toNat])
  | .slui d _ => some ([], [d.toNat])
  | .sgetexec d => some ([], [d.toNat])
  | .fmtget d => some ([], [d.toNat])
  | .vmov d _ => some ([d.toNat], [])
  | .vaddI16 d _ => some ([d.toNat], [])
  | .vsubI16 d _ => some ([d.toNat], [])
  | .vand16 d _ => some ([d.toNat], [])
  | .vor16 d _ => some ([d.toNat], [])
  | .vxor16 d _ => some ([d.toNat], [])
  | .vshl16 d _ => some ([d.toNat], [])
  | .vshrz16 d _ => some ([d.toNat], [])
  | .vaddF16 d _ => some ([d.toNat], [])
  | .vsubF16 d _ => some ([d.toNat], [])
  | .vmulF16 d _ => some ([d.toNat], [])
  | .vmaxF16 d _ => some ([d.toNat], [])
  | .vminF16 d _ => some ([d.toNat], [])
  | .vmullo16 d _ => some ([d.toNat], [])
  | .vshrs16 d _ => some ([d.toNat], [])
  | .vnot16 d _ => some ([d.toNat], [])
  | _ => none

/-- It is record r's turn in the Harrow, it is of a kind, and the step that is asked for is its own (R288, R289). -/
structure Turn (s : State) (r : Rec) (kind : Nat) : Prop where
  turn : s.turn = some r
  slot : s.arg.a = r.slot
  kind : r.kind = kind

/-- A record whose step is being applied (R286). -/
def Rec.begun (r : Rec) : Rec := { r with phase := .applying }

/-- The state once record r shows that its step is being applied (R286), and the record then. -/
def State.begun (s : State) (r : Rec) : State := if r.phase = .applying then s else s.setRecord r.begun

/-- Memory reads at a location as a store of bytes there leaves it. -/
def Holds (s : State) (loc : PAddr) (bs : List Byte) : Prop := ∀ i < bs.length, s.byteAt (loc.plus i) = bs.getD i 0

end Sys2Proof.Machine
end

