-- ==== Sys2Proof/Certificates/Slice0/Obligations.lean ====
section
/-!
DEFINITION. The statements about the machine, each formalising rules of the spec.
-/

section

open Sys2Proof Sys2Proof.Machine

/-- Words assembled field by field from Tables A.8 to A.21, one for nearly every major opcode, an EXT pair and four words
of the tutorial decode to the instructions they stand for, and the word of all ones to none. -/
def Obligations.DecodedWords : Prop :=
  decodeTableWord 32 0b000_0000110_0000010_0000011_00000_00_1 = some (.vaddI 3 2 6)
  ∧ decodeTableWord 32 0b010_0000001_0000000_0000010_00010_01_1 = some (.vmulF 2 0 1)
  ∧ decodeTableWord 32 0b1010_0000101_0000100_001001_00100_00_1 = some (.vcmpLtS 9 4 5)
  ∧ decodeTableWord 32 0b110_1111111_0000010_0000001_00101_00_1 = some (.vshrsi 1 2 0x7F)
  ∧ decodeTableWord 32 0b0001000011_0000010_0000001_00110_00_1 = some (.vexp2 1 2)
  ∧ decodeTableWord 32 0b100_0011111_0000010_0000001_00111_00_1 = some (.vbcast 1 2 31)
  ∧ decodeTableWord 32 0b000011_10001_000100_0000111_01000_00_1 = some (.vsetl 7 4 17)
  ∧ decodeTableWord 16 0b00101_000011_0110_0 = some (.vshl16 3 5)
  ∧ decodeTableWord 32 0b000000_000111_001000_100001_01001_00_1 = some (.sadd 33 8 7)
  ∧ decodeTableWord 32 0b1111111111_00_000010_000100_01010_10_1 = some (.saddi 4 2 0x3FF)
  ∧ decodeTableWord 32 0b000000_011010_000101_000011_01100_00_1 = some (.swr 5 0x1A)
  ∧ decodeTableWord 32 0b11111111111110_0_001_000101_01101_00_1 = some (.brSz 5 0x3FFE)
  ∧ decodeTableWord 32 0b000000000000000000001100_01111_00_1 = some (.call 12)
  ∧ decodeTableWord 32 0b0000001011_00001001_000000_10000_00_1 = some (.loop 0 9 11)
  ∧ decodeTableWord 32 0b1_010_000_0000101_001_0000011_10001_00_1 = some (.ld 3 1 5 0 2 1)
  ∧ decodeTableWord 32 0b0_101_010_0000101_001_0000011_10001_00_1 = some (.ld 3 1 5 2 5 0)
  ∧ decodeTableWord 32 0b011_1001_0000101_001_0000011_10011_00_1 = some (.atomCas 3 1 5 3)
  ∧ decodeTableWord 32 0b000000001001_111_110_001010_10100_00_1 = some (.sldacq 10 6 9)
  ∧ decodeTableWord 32 0b000011_1000_0000110_0000101_10101_00_1 = some (.spataddF 5 6 3)
  ∧ decodeTableWord 32 0b00000000000000_01_011_00000_10110_00_1 = some (.fence 3 1)
  ∧ decodeTableWord 32 0b0_000000_01_0000011_0101_0010_10111_00_1 = some (.qput 5 3 1)
  ∧ decodeTableWord 32 0b0000_1_0101_001010_011_010_000_11000_00_1 = some (.cpy 2 3 10 5 1)
  ∧ decodeTableWord 32 0b00000_0000110_0000101_100_11_11001_00_1 = some (.pqry 4 5 6)
  ∧ decodeTableWord 32 0b00000111_00000001_0010_0000_11100_00_1 = some (.mma 2 1 7)
  ∧ decodeTableWord 32 0b000000_11111_0001001_0011_10_11101_00_1 = some (.accrdc 3 9 31)
  ∧ decodeTableWord 64 0b1111111111_00_000010_000100_01010_00_1_000000000000000000000001_11110_00_1 = some (.ext 1 0xFFC08451)
  ∧ decodeTableWord 32 0x3F400259 = some (.slui 2 0xFD00)
  ∧ decodeTableWord 32 0x00010141 = some (.vbcs 1 2)
  ∧ decodeTableWord 16 0x0814 = some (.vmulF16 0 1)
  ∧ decodeTableWord 16 0x0000 = some (.vmov 0 0)
  ∧ decodeTableWord 32 0xFFFFFFFF = none

/-- For every well-formed instruction that has a word, with every value of its fields and of SC, the decoder reads its
encoding as that instruction and leaves the bytes after it. -/
def Obligations.DecodeOfEncode : Prop :=
  ∀ (i : Instr) (sc : BitVec 2) (rest : List Byte), i.wellFormed = true → i.isWord = true →
    decodeBytes (encode sc i ++ rest) = .ok i rest

/-- Whatever the decoder reads from some bytes is a well-formed instruction that has a word, and the bytes are its
encoding with some stall count, followed by the bytes left: no bit of a word is dropped, and no two instructions share
a word. Four bytes whose lowest bit is 1 and whose major opcode is 0x1A, 0x1B or 0x1F, which the opcode map reserves,
are refused as a reserved major opcode, whatever their other bits hold. -/
def Obligations.EncodeOfDecode : Prop :=
  (∀ (bs rest : List Byte) (i : Instr), decodeBytes bs = .ok i rest →
    i.wellFormed = true ∧ i.isWord = true ∧ ∃ sc : BitVec 2, encode sc i ++ rest = bs)
  ∧ (∀ (w m : Nat) (rest : List Byte), w < 2 ^ 32 → w % 2 = 1 → fld w 3 5 = m → m = 0x1A ∨ m = 0x1B ∨ m = 0x1F →
    decodeBytes (leBytes 4 w ++ rest) = .no (.reservedMajor m))

/-- Writing a scalar register gives it the value and leaves every other register; a write to s0 is discarded and s0 reads
0; the pair written is read back, low half in the even register, and the pair named s0 keeps its low half 0. -/
def Obligations.ScalarRegisters : Prop :=
  (∀ (g : Group) (r : Nat) (x : Word), g.s.length = 64 → r < 64 →
    (g.setS r x).sreg 0 = 0 ∧ (∀ k, k ≠ r → (g.setS r x).sreg k = g.sreg k)
    ∧ (r ≠ 0 → (g.setS r x).sreg r = x) ∧ (r = 0 → g.setS r x = g))
  ∧ (∀ (g : Group) (r : Nat) (x : BitVec 64), g.s.length = 64 → r < 63 →
    (r ≠ 0 → (g.setPair r x).pair r = x) ∧ (r = 0 → (g.setPair r x).pair r = x &&& 0xFFFFFFFF00000000)
    ∧ ∀ k, k ≠ r → k ≠ r + 1 → (g.setPair r x).sreg k = g.sreg k)

/-- A result of latency one is in the register for the next instruction; a longer one leaves the register as it was and is
written by the landing of the group at 4n clk after the issue and not before; under exec 0 no vector register is
written, and a vector result changes the lanes in exec alone. -/
def Obligations.ResultsLand : Prop :=
  (∀ (g : Group) (clk n r : Nat) (x : Word), g.s.length = 64 → 0 < r → r < 64 → g.landing = [] →
    (g.writeS clk 1 r x).sreg r = x
    ∧ (1 < n → (g.writeS clk n r x).sreg r = g.sreg r
        ∧ ((g.writeS clk n r x).landDue (clk + 4 * n)).sreg r = x
        ∧ ((g.writeS clk n r x).landDue (clk + 4 * n)).landing = []
        ∧ ∀ t, t < clk + 4 * n → ((g.writeS clk n r x).landDue t).sreg r = g.sreg r))
  ∧ (∀ (g : Group) (clk n r l : Nat) (x : Vec), r < g.v.length → l < 32 → g.landing = [] →
    (g.writeV clk 1 r x).vlane r l = (if g.exec.getLsbD l then vget x l else g.vlane r l)
    ∧ (1 < n → (g.writeV clk n r x).vlane r l = g.vlane r l
        ∧ ((g.writeV clk n r x).landDue (clk + 4 * n)).vlane r l = (if g.exec.getLsbD l then vget x l else g.vlane r l))
    ∧ (g.exec = 0 → g.writeV clk n r x = g))

/-- Each of the twenty two-operand functions of SALU, with registers it may use, completes and gives sd the value of Table
A.38 of sa and sb: in the next instruction, or after two beats for the products. -/
def Obligations.ScalarResults : Prop :=
  ∀ (s : State) (q : Issue) (g : Group) (d a b : BitVec 6) (x y z : Word), Issues s q g →
    g.sreg a.toNat = x → g.sreg b.toNat = y → g.sreg d.toNat = z →
    Usable g (usesS [d.toNat] [a.toNat, b.toNat]) →
    Completes s q (.sadd d a b) (g.writeS s.clk 1 d.toNat (x + y))
    ∧ Completes s q (.ssub d a b) (g.writeS s.clk 1 d.toNat (x - y))
    ∧ Completes s q (.smul d a b) (g.writeS s.clk 2 d.toNat (x * y))
    ∧ Completes s q (.smulhs d a b) (g.writeS s.clk 2 d.toNat (BitVec.ofInt 32 (x.toInt * y.toInt / 2 ^ 32)))
    ∧ Completes s q (.smulhz d a b) (g.writeS s.clk 2 d.toNat (BitVec.ofNat 32 (x.toNat * y.toNat / 2 ^ 32)))
    ∧ Completes s q (.sand d a b) (g.writeS s.clk 1 d.toNat (x &&& y))
    ∧ Completes s q (.sor d a b) (g.writeS s.clk 1 d.toNat (x ||| y))
    ∧ Completes s q (.sxor d a b) (g.writeS s.clk 1 d.toNat (x ^^^ y))
    ∧ Completes s q (.sandn d a b) (g.writeS s.clk 1 d.toNat (x &&& ~~~y))
    ∧ Completes s q (.sshl d a b) (g.writeS s.clk 1 d.toNat (x <<< (y.toNat % 32)))
    ∧ Completes s q (.sshrz d a b) (g.writeS s.clk 1 d.toNat (x >>> (y.toNat % 32)))
    ∧ Completes s q (.sshrs d a b) (g.writeS s.clk 1 d.toNat (x.sshiftRight (y.toNat % 32)))
    ∧ Completes s q (.smins d a b) (g.writeS s.clk 1 d.toNat (if x.toInt ≤ y.toInt then x else y))
    ∧ Completes s q (.smaxs d a b) (g.writeS s.clk 1 d.toNat (if x.toInt ≤ y.toInt then y else x))
    ∧ Completes s q (.sminz d a b) (g.writeS s.clk 1 d.toNat (if x.toNat ≤ y.toNat then x else y))
    ∧ Completes s q (.smaxz d a b) (g.writeS s.clk 1 d.toNat (if x.toNat ≤ y.toNat then y else x))
    ∧ Completes s q (.sslts d a b) (g.writeS s.clk 1 d.toNat (if x.toInt < y.toInt then 1 else 0))
    ∧ Completes s q (.ssltz d a b) (g.writeS s.clk 1 d.toNat (if x.toNat < y.toNat then 1 else 0))
    ∧ Completes s q (.sseq d a b) (g.writeS s.clk 1 d.toNat (if x = y then 1 else 0))
    ∧ Completes s q (.sbfe d a b) (g.writeS s.clk 1 d.toNat (BitVec.ofNat 32 (x.toNat / 2 ^ (y.toNat % 32) % 2 ^ (y.toNat / 32 % 32 + 1))))

/-- SPOPC gives the number of set bits, SCTZ and SCLZ the number of zero bits below the lowest or above the highest set
bit (32 for zero); SBFI puts the low bits of sa into the field of sd that sb names and keeps the other bits; SSEL
chooses sa or sb by the old sd. -/
def Obligations.ScalarBitResults : Prop :=
  ∀ (s : State) (q : Issue) (g : Group) (d a b : BitVec 6) (x y z : Word), Issues s q g →
    g.sreg a.toNat = x → g.sreg b.toNat = y → g.sreg d.toNat = z →
    (Usable g (usesS [d.toNat] [a.toNat]) →
      Completes s q (.spopc d a) (g.writeS s.clk 1 d.toNat (BitVec.ofNat 32 ((List.range 32).filter fun i => x.getLsbD i).length))
      ∧ (∃ n, n ≤ 32 ∧ (∀ i, i < n → x.getLsbD i = false) ∧ (n < 32 → x.getLsbD n = true)
          ∧ Completes s q (.sctz d a) (g.writeS s.clk 1 d.toNat (BitVec.ofNat 32 n)))
      ∧ (∃ n, n ≤ 32 ∧ (∀ i, i < n → x.getLsbD (31 - i) = false) ∧ (n < 32 → x.getLsbD (31 - n) = true)
          ∧ Completes s q (.sclz d a) (g.writeS s.clk 1 d.toNat (BitVec.ofNat 32 n))))
    ∧ (Usable g (usesS [d.toNat] [a.toNat, b.toNat, d.toNat]) →
      (∃ r : Word, (∀ i, i < 32 → r.getLsbD i
            = if y.toNat % 32 ≤ i ∧ i < y.toNat % 32 + (y.toNat / 32 % 32 + 1) then x.getLsbD (i - y.toNat % 32) else z.getLsbD i)
          ∧ Completes s q (.sbfi d a b) (g.writeS s.clk 1 d.toNat r))
      ∧ Completes s q (.ssel d a b) (g.writeS s.clk 1 d.toNat (if z ≠ 0 then x else y)))

/-- SADD64, SSUB64, SSHL64 and SSHRZ64 complete with the 64-bit result in the pair sd when every pair they name is even,
and trap ILLEGAL_OPERAND, changing no register, when one is odd. -/
def Obligations.ScalarPairResults : Prop :=
  ∀ (s : State) (q : Issue) (g : Group) (d a b : BitVec 6), Issues s q g →
    (Usable g (usesS (pairRegs d.toNat) (pairRegs a.toNat ++ pairRegs b.toNat)) →
      if d.toNat % 2 = 0 ∧ a.toNat % 2 = 0 ∧ b.toNat % 2 = 0 then
        Completes s q (.sadd64 d a b) (g.setPair d.toNat (g.pair a.toNat + g.pair b.toNat))
        ∧ Completes s q (.ssub64 d a b) (g.setPair d.toNat (g.pair a.toNat - g.pair b.toNat))
      else Traps s g (.sadd64 d a b) cIllegalOperand ∧ Traps s g (.ssub64 d a b) cIllegalOperand)
    ∧ (Usable g (usesS (pairRegs d.toNat) (pairRegs a.toNat ++ [b.toNat])) →
      if d.toNat % 2 = 0 ∧ a.toNat % 2 = 0 then
        Completes s q (.sshl64 d a b) (g.setPair d.toNat (g.pair a.toNat <<< ((g.sreg b.toNat).toNat % 64)))
        ∧ Completes s q (.sshrz64 d a b) (g.setPair d.toNat (g.pair a.toNat >>> ((g.sreg b.toNat).toNat % 64)))
      else Traps s g (.sshl64 d a b) cIllegalOperand ∧ Traps s g (.sshrz64 d a b) cIllegalOperand)

/-- Alone, SADDI adds its sign-extended imm10, SANDI, SORI and SXORI take it zero-extended, and SLUI puts imm18 in the top
bits. In an EXT pair the 24 bits of the EXT stand above imm10 (and x[13:0] below imm18, where x[23:14] must be 0), the
pair is 8 bytes long, and its stall count is the second word's. In general the pair does what its second word does
with that immediate, when Table A.23 lists it, and otherwise traps ILLEGAL_INSTRUCTION. -/
def Obligations.ScalarImmediateResults : Prop :=
  (∀ (s : State) (q : Issue) (g : Group) (d a : BitVec 6) (i : BitVec 10) (v : BitVec 18), Issues s q g → q.ext = none →
    (Usable g (usesS [d.toNat] [a.toNat]) →
      Completes s q (.saddi d a i) (g.writeS s.clk 1 d.toNat (g.sreg a.toNat + i.signExtend 32))
      ∧ Completes s q (.sandi d a i) (g.writeS s.clk 1 d.toNat (g.sreg a.toNat &&& i.zeroExtend 32))
      ∧ Completes s q (.sori d a i) (g.writeS s.clk 1 d.toNat (g.sreg a.toNat ||| i.zeroExtend 32))
      ∧ Completes s q (.sxori d a i) (g.writeS s.clk 1 d.toNat (g.sreg a.toNat ^^^ i.zeroExtend 32)))
    ∧ (Usable g (usesS [d.toNat] []) →
      Completes s q (.slui d v) (g.writeS s.clk 1 d.toNat (v ++ (0 : BitVec 14)))))
  ∧ (∀ (s : State) (q : Issue) (g : Group) (x : BitVec 24) (w : Word) (d a : BitVec 6) (i : BitVec 10) (v : BitVec 18),
      Issues s q g → w.getLsbD 0 = true →
    let p : Issue := { q with ext := some x, len := 8, sc := wordSc w.toNat }
    let t : State := { s with issue := some p }
    let wide : Word := (x ++ i).zeroExtend 32
    (Usable g (usesS [d.toNat] [a.toNat]) →
      (decode32 w.toNat = .ok (.saddi d a i) →
        exec (.ext x w) s = .next (t.putGroup ((g.writeS s.clk 1 d.toNat (g.sreg a.toNat + wide)).onward s.clk p)))
      ∧ (decode32 w.toNat = .ok (.sandi d a i) →
        exec (.ext x w) s = .next (t.putGroup ((g.writeS s.clk 1 d.toNat (g.sreg a.toNat &&& wide)).onward s.clk p)))
      ∧ (decode32 w.toNat = .ok (.sori d a i) →
        exec (.ext x w) s = .next (t.putGroup ((g.writeS s.clk 1 d.toNat (g.sreg a.toNat ||| wide)).onward s.clk p)))
      ∧ (decode32 w.toNat = .ok (.sxori d a i) →
        exec (.ext x w) s = .next (t.putGroup ((g.writeS s.clk 1 d.toNat (g.sreg a.toNat ^^^ wide)).onward s.clk p))))
    ∧ (Usable g (usesS [d.toNat] []) → decode32 w.toNat = .ok (.slui d v) →
      if x.toNat < 2 ^ 14 then
        exec (.ext x w) s = .next (t.putGroup ((g.writeS s.clk 1 d.toNat (v ++ x.extractLsb' 0 14)).onward s.clk p))
      else exec (.ext x w) s = .next (t.trap g cIllegalOperand)))
  ∧ (∀ (s : State) (q : Issue) (g : Group) (x : BitVec 24) (w : Word), Issues s q g →
    let t : State := { s with issue := some { q with ext := some x, len := 8, sc := wordSc w.toNat } }
    (∀ j, w.getLsbD 0 = true → decode32 w.toNat = .ok j → takesExt j = true → exec (.ext x w) s = exec j t)
    ∧ ((w.getLsbD 0 = true → ∀ j, decode32 w.toNat = .ok j → takesExt j = false) →
      exec (.ext x w) s = .next (t.trap g cIllegalInstruction)))

/-- Each of the sixteen functions of VI3A and VI3B completes and gives every lane of vd that is in exec the value of R111
of that lane of va and vb, read before any lane is written; the products take two beats. -/
def Obligations.VectorIntegerResults : Prop :=
  ∀ (s : State) (q : Issue) (g : Group) (d a b : BitVec 7), Issues s q g →
    Usable g (usesV [d.toNat] [a.toNat, b.toNat]) →
    Completes s q (.vaddI d a b) (g.writeV s.clk 1 d.toNat (vmk fun l => g.vlane a.toNat l + g.vlane b.toNat l))
    ∧ Completes s q (.vsubI d a b) (g.writeV s.clk 1 d.toNat (vmk fun l => g.vlane a.toNat l - g.vlane b.toNat l))
    ∧ Completes s q (.vmullo d a b) (g.writeV s.clk 2 d.toNat (vmk fun l => g.vlane a.toNat l * g.vlane b.toNat l))
    ∧ Completes s q (.vmulhiS d a b) (g.writeV s.clk 2 d.toNat (vmk fun l => BitVec.ofInt 32 ((g.vlane a.toNat l).toInt * (g.vlane b.toNat l).toInt / 2 ^ 32)))
    ∧ Completes s q (.vmulhiZ d a b) (g.writeV s.clk 2 d.toNat (vmk fun l => BitVec.ofNat 32 ((g.vlane a.toNat l).toNat * (g.vlane b.toNat l).toNat / 2 ^ 32)))
    ∧ Completes s q (.vand d a b) (g.writeV s.clk 1 d.toNat (vmk fun l => g.vlane a.toNat l &&& g.vlane b.toNat l))
    ∧ Completes s q (.vor d a b) (g.writeV s.clk 1 d.toNat (vmk fun l => g.vlane a.toNat l ||| g.vlane b.toNat l))
    ∧ Completes s q (.vxor d a b) (g.writeV s.clk 1 d.toNat (vmk fun l => g.vlane a.toNat l ^^^ g.vlane b.toNat l))
    ∧ Completes s q (.vshl d a b) (g.writeV s.clk 1 d.toNat (vmk fun l => g.vlane a.toNat l <<< ((g.vlane b.toNat l).toNat % 32)))
    ∧ Completes s q (.vshrz d a b) (g.writeV s.clk 1 d.toNat (vmk fun l => g.vlane a.toNat l >>> ((g.vlane b.toNat l).toNat % 32)))
    ∧ Completes s q (.vshrs d a b) (g.writeV s.clk 1 d.toNat (vmk fun l => (g.vlane a.toNat l).sshiftRight ((g.vlane b.toNat l).toNat % 32)))
    ∧ Completes s q (.vminS d a b) (g.writeV s.clk 1 d.toNat (vmk fun l => if (g.vlane a.toNat l).toInt ≤ (g.vlane b.toNat l).toInt then g.vlane a.toNat l else g.vlane b.toNat l))
    ∧ Completes s q (.vmaxS d a b) (g.writeV s.clk 1 d.toNat (vmk fun l => if (g.vlane a.toNat l).toInt ≤ (g.vlane b.toNat l).toInt then g.vlane b.toNat l else g.vlane a.toNat l))
    ∧ Completes s q (.vminZ d a b) (g.writeV s.clk 1 d.toNat (vmk fun l => if (g.vlane a.toNat l).toNat ≤ (g.vlane b.toNat l).toNat then g.vlane a.toNat l else g.vlane b.toNat l))
    ∧ Completes s q (.vmaxZ d a b) (g.writeV s.clk 1 d.toNat (vmk fun l => if (g.vlane a.toNat l).toNat ≤ (g.vlane b.toNat l).toNat then g.vlane b.toNat l else g.vlane a.toNat l))
    ∧ Completes s q (.vrotl d a b) (g.writeV s.clk 1 d.toNat (vmk fun l => (g.vlane a.toNat l).rotateLeft ((g.vlane b.toNat l).toNat % 32)))

/-- VADDI, VANDI, VORI, VXORI and VMULI complete with the sign-extended imm7 for every lane, or after an EXT with the
sign-extended 31 bits of x and imm7; VSHLI, VSHRZI and VSHRSI complete with a shift by imm7 up to 31 and trap
ILLEGAL_OPERAND above it. -/
def Obligations.VectorImmediateResults : Prop :=
  ∀ (s : State) (q : Issue) (g : Group) (d a i : BitVec 7), Issues s q g → Usable g (usesV [d.toNat] [a.toNat]) →
    (∀ w, w = q.immediate (i.signExtend 32) (fun x => (x ++ i).signExtend 32) →
      Completes s q (.vaddi d a i) (g.writeV s.clk 1 d.toNat (vmk fun l => g.vlane a.toNat l + w))
      ∧ Completes s q (.vandi d a i) (g.writeV s.clk 1 d.toNat (vmk fun l => g.vlane a.toNat l &&& w))
      ∧ Completes s q (.vori d a i) (g.writeV s.clk 1 d.toNat (vmk fun l => g.vlane a.toNat l ||| w))
      ∧ Completes s q (.vxori d a i) (g.writeV s.clk 1 d.toNat (vmk fun l => g.vlane a.toNat l ^^^ w))
      ∧ Completes s q (.vmuli d a i) (g.writeV s.clk 2 d.toNat (vmk fun l => g.vlane a.toNat l * w)))
    ∧ (if i.toNat < 32 then
      Completes s q (.vshli d a i) (g.writeV s.clk 1 d.toNat (vmk fun l => g.vlane a.toNat l <<< i.toNat))
        ∧ Completes s q (.vshrzi d a i) (g.writeV s.clk 1 d.toNat (vmk fun l => g.vlane a.toNat l >>> i.toNat))
        ∧ Completes s q (.vshrsi d a i) (g.writeV s.clk 1 d.toNat (vmk fun l => (g.vlane a.toNat l).sshiftRight i.toNat))
      else Traps s g (.vshli d a i) cIllegalOperand
        ∧ Traps s g (.vshrzi d a i) cIllegalOperand
        ∧ Traps s g (.vshrsi d a i) cIllegalOperand)

/-- Each 16-bit form of two operands completes as its 32-bit form does with vd as destination and first source and va, one
of v0 to v31, as second source; VMOV and VNOT read va alone. -/
def Obligations.ShortFormResults : Prop :=
  ∀ (s : State) (q : Issue) (g : Group) (d : BitVec 6) (a : BitVec 5), Issues s q g →
    (Usable g (usesV [d.toNat] [d.toNat, a.toNat]) →
      Completes s q (.vaddI16 d a) (g.writeV s.clk 1 d.toNat (vmk fun l => g.vlane d.toNat l + g.vlane a.toNat l))
      ∧ Completes s q (.vsubI16 d a) (g.writeV s.clk 1 d.toNat (vmk fun l => g.vlane d.toNat l - g.vlane a.toNat l))
      ∧ Completes s q (.vand16 d a) (g.writeV s.clk 1 d.toNat (vmk fun l => g.vlane d.toNat l &&& g.vlane a.toNat l))
      ∧ Completes s q (.vor16 d a) (g.writeV s.clk 1 d.toNat (vmk fun l => g.vlane d.toNat l ||| g.vlane a.toNat l))
      ∧ Completes s q (.vxor16 d a) (g.writeV s.clk 1 d.toNat (vmk fun l => g.vlane d.toNat l ^^^ g.vlane a.toNat l))
      ∧ Completes s q (.vshl16 d a) (g.writeV s.clk 1 d.toNat (vmk fun l => g.vlane d.toNat l <<< ((g.vlane a.toNat l).toNat % 32)))
      ∧ Completes s q (.vshrz16 d a) (g.writeV s.clk 1 d.toNat (vmk fun l => g.vlane d.toNat l >>> ((g.vlane a.toNat l).toNat % 32)))
      ∧ Completes s q (.vshrs16 d a) (g.writeV s.clk 1 d.toNat (vmk fun l => (g.vlane d.toNat l).sshiftRight ((g.vlane a.toNat l).toNat % 32)))
      ∧ Completes s q (.vmullo16 d a) (g.writeV s.clk 2 d.toNat (vmk fun l => g.vlane d.toNat l * g.vlane a.toNat l))
      ∧ Completes s q (.vaddF16 d a) (g.writeV s.clk 2 d.toNat (vmk fun l => fadd g.fmt (g.vlane d.toNat l) (g.vlane a.toNat l)))
      ∧ Completes s q (.vsubF16 d a) (g.writeV s.clk 2 d.toNat (vmk fun l => fsub g.fmt (g.vlane d.toNat l) (g.vlane a.toNat l)))
      ∧ Completes s q (.vmulF16 d a) (g.writeV s.clk 2 d.toNat (vmk fun l => fmul g.fmt (g.vlane d.toNat l) (g.vlane a.toNat l)))
      ∧ Completes s q (.vmaxF16 d a) (g.writeV s.clk 2 d.toNat (vmk fun l => f32Max (g.vlane d.toNat l) (g.vlane a.toNat l)))
      ∧ Completes s q (.vminF16 d a) (g.writeV s.clk 2 d.toNat (vmk fun l => f32Min (g.vlane d.toNat l) (g.vlane a.toNat l))))
    ∧ (Usable g (usesV [d.toNat] [a.toNat]) →
      Completes s q (.vmov d a) (g.writeV s.clk 1 d.toNat (vmk fun l => g.vlane a.toNat l))
      ∧ Completes s q (.vnot16 d a) (g.writeV s.clk 1 d.toNat (vmk fun l => ~~~g.vlane a.toNat l)))

/-- Each function of VF3A and VF3H completes with the lane function of R113 or R114 under the group's fmt, in two beats
(one for VCPSGN, which takes the sign of vb); the fused forms and the dot products also read vd. -/
def Obligations.VectorFloatResults : Prop :=
  ∀ (s : State) (q : Issue) (g : Group) (d a b : BitVec 7), Issues s q g →
    (Usable g (usesV [d.toNat] [a.toNat, b.toNat]) →
      Completes s q (.vaddF d a b) (g.writeV s.clk 2 d.toNat (vmk fun l => fadd g.fmt (g.vlane a.toNat l) (g.vlane b.toNat l)))
      ∧ Completes s q (.vsubF d a b) (g.writeV s.clk 2 d.toNat (vmk fun l => fsub g.fmt (g.vlane a.toNat l) (g.vlane b.toNat l)))
      ∧ Completes s q (.vmulF d a b) (g.writeV s.clk 2 d.toNat (vmk fun l => fmul g.fmt (g.vlane a.toNat l) (g.vlane b.toNat l)))
      ∧ Completes s q (.vminF d a b) (g.writeV s.clk 2 d.toNat (vmk fun l => f32Min (g.vlane a.toNat l) (g.vlane b.toNat l)))
      ∧ Completes s q (.vmaxF d a b) (g.writeV s.clk 2 d.toNat (vmk fun l => f32Max (g.vlane a.toNat l) (g.vlane b.toNat l)))
      ∧ Completes s q (.vcpsgn d a b) (g.writeV s.clk 1 d.toNat (vmk fun l => ((g.vlane a.toNat l) &&& 2147483647) ||| ((g.vlane b.toNat l) &&& 2147483648)))
      ∧ Completes s q (.vaddH d a b) (g.writeV s.clk 2 d.toNat (vmk fun l => hadd fmtFP16 g.fmt (g.vlane a.toNat l) (g.vlane b.toNat l) (g.vlane d.toNat l)))
      ∧ Completes s q (.vmulH d a b) (g.writeV s.clk 2 d.toNat (vmk fun l => hmul fmtFP16 g.fmt (g.vlane a.toNat l) (g.vlane b.toNat l) (g.vlane d.toNat l)))
      ∧ Completes s q (.vaddBf d a b) (g.writeV s.clk 2 d.toNat (vmk fun l => hadd fmtBF16 g.fmt (g.vlane a.toNat l) (g.vlane b.toNat l) (g.vlane d.toNat l)))
      ∧ Completes s q (.vmulBf d a b) (g.writeV s.clk 2 d.toNat (vmk fun l => hmul fmtBF16 g.fmt (g.vlane a.toNat l) (g.vlane b.toNat l) (g.vlane d.toNat l))))
    ∧ (Usable g (usesV [d.toNat] [d.toNat, a.toNat, b.toNat]) →
      Completes s q (.vfmaF d a b) (g.writeV s.clk 2 d.toNat (vmk fun l => ffma g.fmt (g.vlane a.toNat l) (g.vlane b.toNat l) (g.vlane d.toNat l)))
      ∧ Completes s q (.vfnmaF d a b) (g.writeV s.clk 2 d.toNat (vmk fun l => ffnma g.fmt (g.vlane a.toNat l) (g.vlane b.toNat l) (g.vlane d.toNat l)))
      ∧ Completes s q (.vfmaH d a b) (g.writeV s.clk 2 d.toNat (vmk fun l => hfma fmtFP16 g.fmt (g.vlane a.toNat l) (g.vlane b.toNat l) (g.vlane d.toNat l)))
      ∧ Completes s q (.vdot2H d a b) (g.writeV s.clk 2 d.toNat (vmk fun l => hdot2 fmtFP16 g.fmt (g.vlane a.toNat l) (g.vlane b.toNat l) (g.vlane d.toNat l)))
      ∧ Completes s q (.vfmaBf d a b) (g.writeV s.clk 2 d.toNat (vmk fun l => hfma fmtBF16 g.fmt (g.vlane a.toNat l) (g.vlane b.toNat l) (g.vlane d.toNat l)))
      ∧ Completes s q (.vdot2Bf d a b) (g.writeV s.clk 2 d.toNat (vmk fun l => hdot2 fmtBF16 g.fmt (g.vlane a.toNat l) (g.vlane b.toNat l) (g.vlane d.toNat l))))

/-- With exec not 0, each of the sixteen compares completes with sd holding, two beats later, a mask whose bit l is set
exactly where lane l is in exec and the test of Table A.47 holds for it; with exec 0 it completes and sd is not
written. -/
def Obligations.CompareMasks : Prop :=
  ∀ (s : State) (q : Issue) (g : Group) (d : BitVec 6) (a b : BitVec 7), Issues s q g →
    Usable g { vN := [a.toNat, b.toNat], sN := [d.toNat], vR := [a.toNat, b.toNat], sR := [] } →
    (g.exec ≠ 0 →
      (∃ m : Word, (∀ l, l < 32 → m.getLsbD l = (g.exec.getLsbD l && ((f32 (fmtFTZ g.fmt) (g.vlane a.toNat l)).eq (f32 (fmtFTZ g.fmt) (g.vlane b.toNat l)))))
        ∧ Completes s q (.vcmpEqF d a b) (g.writeS s.clk 2 d.toNat m))
      ∧ (∃ m : Word, (∀ l, l < 32 → m.getLsbD l = (g.exec.getLsbD l && (!(f32 (fmtFTZ g.fmt) (g.vlane a.toNat l)).eq (f32 (fmtFTZ g.fmt) (g.vlane b.toNat l)))))
        ∧ Completes s q (.vcmpNeF d a b) (g.writeS s.clk 2 d.toNat m))
      ∧ (∃ m : Word, (∀ l, l < 32 → m.getLsbD l = (g.exec.getLsbD l && ((f32 (fmtFTZ g.fmt) (g.vlane a.toNat l)).lt (f32 (fmtFTZ g.fmt) (g.vlane b.toNat l)))))
        ∧ Completes s q (.vcmpLtF d a b) (g.writeS s.clk 2 d.toNat m))
      ∧ (∃ m : Word, (∀ l, l < 32 → m.getLsbD l = (g.exec.getLsbD l && ((f32 (fmtFTZ g.fmt) (g.vlane a.toNat l)).lt (f32 (fmtFTZ g.fmt) (g.vlane b.toNat l)) || (f32 (fmtFTZ g.fmt) (g.vlane a.toNat l)).eq (f32 (fmtFTZ g.fmt) (g.vlane b.toNat l)))))
        ∧ Completes s q (.vcmpLeF d a b) (g.writeS s.clk 2 d.toNat m))
      ∧ (∃ m : Word, (∀ l, l < 32 → m.getLsbD l = (g.exec.getLsbD l && ((f32 (fmtFTZ g.fmt) (g.vlane b.toNat l)).lt (f32 (fmtFTZ g.fmt) (g.vlane a.toNat l)))))
        ∧ Completes s q (.vcmpGtF d a b) (g.writeS s.clk 2 d.toNat m))
      ∧ (∃ m : Word, (∀ l, l < 32 → m.getLsbD l = (g.exec.getLsbD l && ((f32 (fmtFTZ g.fmt) (g.vlane b.toNat l)).lt (f32 (fmtFTZ g.fmt) (g.vlane a.toNat l)) || (f32 (fmtFTZ g.fmt) (g.vlane a.toNat l)).eq (f32 (fmtFTZ g.fmt) (g.vlane b.toNat l)))))
        ∧ Completes s q (.vcmpGeF d a b) (g.writeS s.clk 2 d.toNat m))
      ∧ (∃ m : Word, (∀ l, l < 32 → m.getLsbD l = (g.exec.getLsbD l && ((f32 (fmtFTZ g.fmt) (g.vlane a.toNat l)).isNan || (f32 (fmtFTZ g.fmt) (g.vlane b.toNat l)).isNan)))
        ∧ Completes s q (.vcmpUnF d a b) (g.writeS s.clk 2 d.toNat m))
      ∧ (∃ m : Word, (∀ l, l < 32 → m.getLsbD l = (g.exec.getLsbD l && (!(f32 (fmtFTZ g.fmt) (g.vlane a.toNat l)).isNan && !(f32 (fmtFTZ g.fmt) (g.vlane b.toNat l)).isNan)))
        ∧ Completes s q (.vcmpOrF d a b) (g.writeS s.clk 2 d.toNat m))
      ∧ (∃ m : Word, (∀ l, l < 32 → m.getLsbD l = (g.exec.getLsbD l && decide (g.vlane a.toNat l = g.vlane b.toNat l)))
        ∧ Completes s q (.vcmpEqI d a b) (g.writeS s.clk 2 d.toNat m))
      ∧ (∃ m : Word, (∀ l, l < 32 → m.getLsbD l = (g.exec.getLsbD l && decide (g.vlane a.toNat l ≠ g.vlane b.toNat l)))
        ∧ Completes s q (.vcmpNeI d a b) (g.writeS s.clk 2 d.toNat m))
      ∧ (∃ m : Word, (∀ l, l < 32 → m.getLsbD l = (g.exec.getLsbD l && decide ((g.vlane a.toNat l).toInt < (g.vlane b.toNat l).toInt)))
        ∧ Completes s q (.vcmpLtS d a b) (g.writeS s.clk 2 d.toNat m))
      ∧ (∃ m : Word, (∀ l, l < 32 → m.getLsbD l = (g.exec.getLsbD l && decide ((g.vlane a.toNat l).toInt ≤ (g.vlane b.toNat l).toInt)))
        ∧ Completes s q (.vcmpLeS d a b) (g.writeS s.clk 2 d.toNat m))
      ∧ (∃ m : Word, (∀ l, l < 32 → m.getLsbD l = (g.exec.getLsbD l && decide ((g.vlane a.toNat l).toNat < (g.vlane b.toNat l).toNat)))
        ∧ Completes s q (.vcmpLtZ d a b) (g.writeS s.clk 2 d.toNat m))
      ∧ (∃ m : Word, (∀ l, l < 32 → m.getLsbD l = (g.exec.getLsbD l && decide ((g.vlane a.toNat l).toNat ≤ (g.vlane b.toNat l).toNat)))
        ∧ Completes s q (.vcmpLeZ d a b) (g.writeS s.clk 2 d.toNat m))
      ∧ (∃ m : Word, (∀ l, l < 32 → m.getLsbD l = (g.exec.getLsbD l && decide ((g.vlane a.toNat l) &&& (g.vlane b.toNat l) ≠ 0)))
        ∧ Completes s q (.vcmpTst d a b) (g.writeS s.clk 2 d.toNat m))
      ∧ (∃ m : Word, (∀ l, l < 32 → m.getLsbD l = (g.exec.getLsbD l && decide ((g.vlane a.toNat l) &&& (g.vlane b.toNat l) = 0)))
        ∧ Completes s q (.vcmpNtst d a b) (g.writeS s.clk 2 d.toNat m)))
    ∧ (g.exec = 0 →
      Completes s q (.vcmpEqF d a b) g
      ∧ Completes s q (.vcmpNeF d a b) g
      ∧ Completes s q (.vcmpLtF d a b) g
      ∧ Completes s q (.vcmpLeF d a b) g
      ∧ Completes s q (.vcmpGtF d a b) g
      ∧ Completes s q (.vcmpGeF d a b) g
      ∧ Completes s q (.vcmpUnF d a b) g
      ∧ Completes s q (.vcmpOrF d a b) g
      ∧ Completes s q (.vcmpEqI d a b) g
      ∧ Completes s q (.vcmpNeI d a b) g
      ∧ Completes s q (.vcmpLtS d a b) g
      ∧ Completes s q (.vcmpLeS d a b) g
      ∧ Completes s q (.vcmpLtZ d a b) g
      ∧ Completes s q (.vcmpLeZ d a b) g
      ∧ Completes s q (.vcmpTst d a b) g
      ∧ Completes s q (.vcmpNtst d a b) g)

/-- Each one-operand function of VUN other than the conversions completes with its lane function of R122 or R123: the
transcendentals in four beats, VFLOOR and VFRACT in two, the others in one; VCLZ counts the zero bits above the
highest set bit and VBREV moves bit b to bit 31 − b.
Where the model chooses or infers: log entry 126 (DEDUCED). -/
def Obligations.OneOperandResults : Prop :=
  ∀ (s : State) (q : Issue) (g : Group) (d a : BitVec 7), Issues s q g → Usable g (usesV [d.toNat] [a.toNat]) →
    Completes s q (.vrcp d a) (g.writeV s.clk 4 d.toNat (vmk fun l => transRes true recip g.fmt (g.vlane a.toNat l)))
    ∧ Completes s q (.vrsq d a) (g.writeV s.clk 4 d.toNat (vmk fun l => transRes false recipRoot g.fmt (g.vlane a.toNat l)))
    ∧ Completes s q (.vsqrt d a) (g.writeV s.clk 4 d.toNat (vmk fun l => transRes true root g.fmt (g.vlane a.toNat l)))
    ∧ Completes s q (.vexp2 d a) (g.writeV s.clk 4 d.toNat (vmk fun l => transRes false exp2 g.fmt (g.vlane a.toNat l)))
    ∧ Completes s q (.vlog2 d a) (g.writeV s.clk 4 d.toNat (vmk fun l => transRes false log2 g.fmt (g.vlane a.toNat l)))
    ∧ Completes s q (.vsinpi d a) (g.writeV s.clk 4 d.toNat (vmk fun l => transRes false sinPi g.fmt (g.vlane a.toNat l)))
    ∧ Completes s q (.vcospi d a) (g.writeV s.clk 4 d.toNat (vmk fun l => transRes false cosPi g.fmt (g.vlane a.toNat l)))
    ∧ Completes s q (.vtanh d a) (g.writeV s.clk 4 d.toNat (vmk fun l => transRes false tanh g.fmt (g.vlane a.toNat l)))
    ∧ Completes s q (.vabsF d a) (g.writeV s.clk 1 d.toNat (vmk fun l => g.vlane a.toNat l &&& 0x7FFFFFFF))
    ∧ Completes s q (.vnegF d a) (g.writeV s.clk 1 d.toNat (vmk fun l => g.vlane a.toNat l ^^^ 0x80000000))
    ∧ Completes s q (.vfloor d a) (g.writeV s.clk 2 d.toNat (vmk fun l => BitVec.ofNat 32 (fmtFP32.encode .rtz false (fmtFTZ g.fmt) (floorV (f32 (fmtFTZ g.fmt) (g.vlane a.toNat l))))))
    ∧ Completes s q (.vfract d a) (g.writeV s.clk 2 d.toNat (vmk fun l => BitVec.ofNat 32 (fmtFP32.encode .rtz false (fmtFTZ g.fmt) (fractV (f32 (fmtFTZ g.fmt) (g.vlane a.toNat l))))))
    ∧ Completes s q (.vabsI d a) (g.writeV s.clk 1 d.toNat (vmk fun l => if (g.vlane a.toNat l).toInt < 0 then -(g.vlane a.toNat l) else g.vlane a.toNat l))
    ∧ Completes s q (.vnegI d a) (g.writeV s.clk 1 d.toNat (vmk fun l => -(g.vlane a.toNat l)))
    ∧ Completes s q (.vnot d a) (g.writeV s.clk 1 d.toNat (vmk fun l => ~~~g.vlane a.toNat l))
    ∧ Completes s q (.vpopc d a) (g.writeV s.clk 1 d.toNat (vmk fun l => BitVec.ofNat 32 ((List.range 32).filter fun i => (g.vlane a.toNat l).getLsbD i).length))
    ∧ (∃ n : Nat → Nat, (∀ l, n l ≤ 32 ∧ (∀ i, i < n l → (g.vlane a.toNat l).getLsbD (31 - i) = false)
          ∧ (n l < 32 → (g.vlane a.toNat l).getLsbD (31 - n l) = true))
        ∧ Completes s q (.vclz d a) (g.writeV s.clk 1 d.toNat (vmk fun l => BitVec.ofNat 32 (n l))))
    ∧ (∃ r : Nat → Word, (∀ l b, b < 32 → (r l).getLsbD b = (g.vlane a.toNat l).getLsbD (31 - b))
        ∧ Completes s q (.vbrev d a) (g.writeV s.clk 1 d.toNat (vmk r)))

/-- Each conversion of R118 completes in three beats with the value rounded by the mode that fmt and the advanced SEED
give the lane; SEED advances once when exec is not 0 and stays when it is 0. VPKF8 and VUPF8 complete for the two FP8
formats and trap ILLEGAL_OPERAND for any other; VCVT completes for two codes it takes and traps for any other; VPKBX8
and VPKBX4 complete when exec holds all lanes or none of every block and trap when it splits one; VUPBX8 and VUPBX4
complete. Each advances SEED once with exec not 0 and writes three beats later the elements and headers that R116 and
R119 to R121 give.
Where the model chooses or infers: log entries 11 (DEDUCED), 26 (DEDUCED). -/
def Obligations.ConversionResults : Prop :=
  (∀ (s : State) (q : Issue) (g : Group) (d a : BitVec 7) (sd : Word), Issues s q g →
    Usable g (usesV [d.toNat] [a.toNat]) → sd = (if g.exec = 0 then g.seed else advanceSeed g.seed) →
    Completes s q (.vcvtfS d a) ({ g with seed := sd }.writeV s.clk 3 d.toNat (vmk fun l => BitVec.ofNat 32 (fmtFP32.encode (convMode g.fmt sd l 0) (fmtSAT g.fmt) (fmtFTZ g.fmt) (intValue (g.vlane a.toNat l).toInt))))
    ∧ Completes s q (.vcvtsF d a) ({ g with seed := sd }.writeV s.clk 3 d.toNat (vmk fun l => BitVec.ofNat 32 (encodeInt 32 true (convMode g.fmt sd l 0) (fmtSAT g.fmt) (f32 (fmtFTZ g.fmt) (g.vlane a.toNat l)))))
    ∧ Completes s q (.vcvtfZ d a) ({ g with seed := sd }.writeV s.clk 3 d.toNat (vmk fun l => BitVec.ofNat 32 (fmtFP32.encode (convMode g.fmt sd l 0) (fmtSAT g.fmt) (fmtFTZ g.fmt) (.fin false (g.vlane a.toNat l).toNat 0))))
    ∧ Completes s q (.vcvtzF d a) ({ g with seed := sd }.writeV s.clk 3 d.toNat (vmk fun l => BitVec.ofNat 32 (encodeInt 32 false (convMode g.fmt sd l 0) (fmtSAT g.fmt) (f32 (fmtFTZ g.fmt) (g.vlane a.toNat l))))))
  ∧ (∀ (s : State) (q : Issue) (g : Group) (d a : BitVec 7) (sd : Word), Issues s q g →
    sd = (if g.exec = 0 then g.seed else advanceSeed g.seed) →
    (Usable g (usesV [d.toNat] (regsFrom a.toNat 4)) →
      if fmtCF g.fmt = 3 ∨ fmtCF g.fmt = 4 then
        Completes s q (.vpkf8 d a) ({ g with seed := sd }.writeV s.clk 3 d.toNat (vmk fun l => packSlots 4 fun j =>
          cvtElem g.fmt sd 0 (fmtCF g.fmt) l j (g.vlane (a.toNat + (4 * l + j) / 32) ((4 * l + j) % 32)).toNat))
      else Traps s g (.vpkf8 d a) cIllegalOperand)
    ∧ (Usable g (usesV (regsFrom d.toNat 4) [a.toNat]) →
      if fmtAF g.fmt = 3 ∨ fmtAF g.fmt = 4 then
        Completes s q (.vupf8 d a) ({ g with seed := sd }.writeVs s.clk 3 d.toNat ((List.range 4).map fun i => vmk fun l =>
          BitVec.ofNat 32 (cvtElem g.fmt sd (fmtAF g.fmt) 0 l 0 (slotOf 4 (g.vlane a.toNat ((32 * i + l) / 4)) ((32 * i + l) % 4)))))
      else Traps s g (.vupf8 d a) cIllegalOperand)
    ∧ (Usable g (usesV (regsFrom d.toNat (cvtWrites g.fmt)) (regsFrom a.toNat (cvtReads g.fmt))) →
      if cvtCode (fmtAF g.fmt) = true ∧ cvtCode (fmtCF g.fmt) = true then
        Completes s q (.vcvt d a) ({ g with seed := sd }.writeVs s.clk 3 d.toNat
          ((List.range (cvtWrites g.fmt)).map fun i => vmk fun l => packSlots (perLane (fmtCF g.fmt)) fun j =>
            cvtElem g.fmt sd (fmtAF g.fmt) (fmtCF g.fmt) l j
              (slotOf (perLane (fmtAF g.fmt))
                (g.vlane (a.toNat + (i * perLane (fmtCF g.fmt) + j) / perLane (fmtAF g.fmt)) l)
                ((i * perLane (fmtCF g.fmt) + j) % perLane (fmtAF g.fmt)))))
      else Traps s g (.vcvt d a) cIllegalOperand)
    ∧ (∀ bx8 : Bool, Usable g (usesV [d.toNat, d.toNat + 1] (regsFrom a.toNat (bxBlocks bx8))) →
      let i : Instr := if bx8 then .vpkbx8 d a else .vpkbx4 d a
      let r := bxPack bx8 g.fmt sd g.exec (fun k => g.vreg (a.toNat + k)) [] []
      if ∃ k, k < bxBlocks bx8 ∧ blockAny bx8 g.exec k = true ∧ blockAll bx8 g.exec k = false then Traps s g i cIllegalOperand
      else if g.exec = 0 then Completes s q i g
      else Completes s q i (({ g with seed := sd }.writeLanes s.clk 3 d.toNat (bxElemLanes bx8 g.exec) r.1).writeLanes s.clk 3
        (d.toNat + 1) (bxHdrLanes bx8 g.exec) r.2))
    ∧ (∀ bx8 : Bool, Usable g (usesV (regsFrom d.toNat (bxBlocks bx8)) (regsFrom a.toNat 2)) →
      Completes s q (if bx8 then .vupbx8 d a else .vupbx4 d a) ({ g with seed := sd }.writeVs s.clk 3 d.toNat
        ((List.range (bxBlocks bx8)).map fun i => vmk fun l =>
          BitVec.ofNat 32 (fmtFP32.encode (convMode g.fmt sd l 0) (fmtSAT g.fmt) (fmtFTZ g.fmt)
            (bxValue bx8 (bxElemAt bx8 (g.vreg a.toNat) i l) (g.vlane (a.toNat + 1) i).toNat))))))

/-- VSHFL takes for lane l the va lane that vb[4:0] names; VSHFLX the lane at l xor imm, VSHFLUP the lane imm below and
VSHFLDN the lane imm above (or l itself where there is none), and VBCAST lane imm, for an imm up to 31, and they trap
ILLEGAL_OPERAND above it; VBCS and VLANEID write every lane in exec; VMOVSL moves lane imm to a scalar whatever exec
holds; VSETL writes lane imm if it is in exec. VRADD.F and VRMAX.F complete with the butterfly of R125 over the
distances 1, 2, 4, 8 and 16, and VSCAN.F with its inclusive scan; a lane outside exec enters with the identity −0, or
the quiet NaN for the maximum. -/
def Obligations.LaneMoves : Prop :=
  (∀ (s : State) (q : Issue) (g : Group) (d a b i : BitVec 7) (r : BitVec 6) (k : BitVec 5), Issues s q g →
    (Usable g (usesV [d.toNat] [a.toNat, b.toNat]) →
      Completes s q (.vshfl d a b) (g.writeV s.clk 2 d.toNat (vmk fun l => g.vlane a.toNat ((g.vlane b.toNat l).toNat % 32))))
    ∧ (Usable g (usesV [d.toNat] [a.toNat]) →
      if i.toNat ≤ 31 then
        Completes s q (.vshflx d a i) (g.writeV s.clk 2 d.toNat (vmk fun l => g.vlane a.toNat (l ^^^ i.toNat)))
        ∧ Completes s q (.vshflup d a i) (g.writeV s.clk 2 d.toNat
            (vmk fun l => g.vlane a.toNat (if i.toNat ≤ l then l - i.toNat else l)))
        ∧ Completes s q (.vshfldn d a i) (g.writeV s.clk 2 d.toNat
            (vmk fun l => g.vlane a.toNat (if l + i.toNat ≤ 31 then l + i.toNat else l)))
        ∧ Completes s q (.vbcast d a i) (g.writeV s.clk 2 d.toNat (vmk fun _ => g.vlane a.toNat i.toNat))
      else
        Traps s g (.vshflx d a i) cIllegalOperand ∧ Traps s g (.vshflup d a i) cIllegalOperand
        ∧ Traps s g (.vshfldn d a i) cIllegalOperand ∧ Traps s g (.vbcast d a i) cIllegalOperand)
    ∧ (Usable g { vN := [d.toNat], sN := [r.toNat], vR := [], sR := [r.toNat] } →
      Completes s q (.vbcs d r) (g.writeV s.clk 1 d.toNat (vmk fun _ => g.sreg r.toNat))
      ∧ Completes s q (.vsetl d r k) (if g.exec.getLsbD k.toNat then
          g.setV d.toNat (BitVec.ofNat 32 (2 ^ k.toNat)) (vmk fun _ => g.sreg r.toNat) else g))
    ∧ (Usable g { vN := [a.toNat], sN := [r.toNat], vR := [a.toNat], sR := [] } →
      Completes s q (.vmovsl a r k) (g.writeS s.clk 1 r.toNat (g.vlane a.toNat k.toNat)))
    ∧ (Usable g (usesV [d.toNat] []) →
      Completes s q (.vlaneid d) (g.writeV s.clk 1 d.toNat (vmk fun l => BitVec.ofNat 32 l))))
  ∧ (∀ (s : State) (q : Issue) (g : Group) (d a : BitVec 7) (t m : Vec), Issues s q g → Usable g (usesV [d.toNat] [a.toNat]) →
    t = vmk (fun l => if g.exec.getLsbD l then g.vlane a.toNat l else 0x80000000) →
    m = vmk (fun l => if g.exec.getLsbD l then g.vlane a.toNat l else 0x7FC00000) →
    let across := fun (op : Word → Word → Word) (v : Vec) (dist : Nat) => vmk fun l => op (vget v l) (vget v (l ^^^ dist))
    let up := fun (v : Vec) (dist : Nat) => vmk fun l => if dist ≤ l then laneAdd g.fmt (vget v (l - dist)) (vget v l) else vget v l
    Completes s q (.vraddF d a) (g.writeV s.clk 2 d.toNat (across (laneAdd g.fmt) (across (laneAdd g.fmt) (across (laneAdd g.fmt)
      (across (laneAdd g.fmt) (across (laneAdd g.fmt) t 1) 2) 4) 8) 16))
    ∧ Completes s q (.vrmaxF d a) (g.writeV s.clk 2 d.toNat (across f32Max (across f32Max (across f32Max (across f32Max
      (across f32Max m 1) 2) 4) 8) 16))
    ∧ Completes s q (.vscanF d a) (g.writeV s.clk 2 d.toNat (up (up (up (up (up t 1) 2) 4) 8) 16)))

/-- Each of the eight conditions of BR makes the group go to pc + 2 × off14, or after an EXT to pc + 2 × the 38 bits of x
and off14, when it holds and on to the next instruction when it does not. A taken BR leaves the loop entries from the
first that holds the target, and takes back the BACKOFF lowering when the target lies past the BACKOFF. One that ERET
re-issued goes on after itself. -/
def Obligations.BranchResults : Prop :=
  ∀ (s : State) (q : Issue) (g : Group) (a : BitVec 6) (o : BitVec 14) (t : Word), Issues s q g →
    t = g.pc + 2 * q.immediate (o.signExtend 32) (fun x => (x ++ o).extractLsb' 0 32) →
    let br := fun (i : Instr) (taken : Prop) =>
      (taken → Transfers s q i (({ g with loops := g.loopsAt t, lower := g.lowerAt t } : Group).sentTo q t))
      ∧ (¬taken → Completes s q i g)
    br (.brAlways o) True ∧ br (.brExecz o) (g.exec = 0) ∧ br (.brExecnz o) (g.exec ≠ 0)
    ∧ br (.brExecall o) (g.exec = 0xFFFFFFFF)
    ∧ (Usable g (usesS [] [a.toNat]) →
      br (.brSz a o) (g.sreg a.toNat = 0) ∧ br (.brSnz a o) (g.sreg a.toNat ≠ 0)
      ∧ br (.brSneg a o) ((g.sreg a.toNat).toInt < 0) ∧ br (.brSnneg a o) (0 ≤ (g.sreg a.toNat).toInt))

/-- CALL and CALLR put the address of the next instruction in s61, raise DEPTH and go to their target (CALL to pc + 2 ×
off24, or after an EXT to pc + 2 × the 48 bits of x and off24), keeping the loop stack, and trap PATH_OVERFLOW at
DEPTH 255; RET lowers DEPTH and goes to s61, and traps PATH_UNBALANCED at DEPTH 0 or when the top path entry was
pushed at this DEPTH; JMPR goes to sa; an odd address in a register traps MISALIGNED. Each that ERET re-issued goes on
after itself. RET and JMPR have the words of SSYS fn6 11 and 12, whatever SC holds; JMPR changes neither the call
depth nor the path stack, and a target at or beyond the code size is taken and traps PROTECTION at its fetch. -/
def Obligations.CallsAndReturns : Prop :=
  (∀ (s : State) (q : Issue) (g : Group) (a : BitVec 6) (o : BitVec 24) (t : Word), Issues s q g →
    let next : Word := g.pc + BitVec.ofNat 32 q.len
    (Usable g (usesS [61] []) → t = g.pc + 2 * q.immediate (o.signExtend 32) (fun x => (x ++ o).extractLsb' 0 32) →
      if g.depth = 255 then Traps s g (.call o) cPathOverflow
      else Transfers s q (.call o)
        (({ g.setS 61 next with depth := g.depth + 1, lower := g.lowerAt t } : Group).sentTo q t))
    ∧ (Usable g (usesS [61] [a.toNat]) → t = g.sreg a.toNat →
      if g.depth = 255 then Traps s g (.callr a) cPathOverflow
      else if t.toNat % 2 = 1 then Traps s g (.callr a) cMisaligned
      else Transfers s q (.callr a)
        (({ g.setS 61 next with depth := g.depth + 1, lower := g.lowerAt t } : Group).sentTo q t))
    ∧ (Usable g (usesS [] [61]) → t = g.sreg 61 →
      if g.depth = 0 ∨ (g.path.head?.any fun e => e.depth == g.depth) = true then Traps s g .ret cPathUnbalanced
      else if t.toNat % 2 = 1 then Traps s g .ret cMisaligned
      else Transfers s q .ret
        (({ g with depth := g.depth - 1, loops := g.loopsAt t, lower := g.lowerAt t } : Group).sentTo q t))
    ∧ (Usable g (usesS [] [a.toNat]) → t = g.sreg a.toNat →
      if t.toNat % 2 = 1 then Traps s g (.jmpr a) cMisaligned
      else Transfers s q (.jmpr a) (({ g with loops := g.loopsAt t, lower := g.lowerAt t } : Group).sentTo q t)))
  ∧ (∀ (sc : BitVec 2) (a : BitVec 6), decode32 (0x0B61 + 2 * sc.toNat) = .ok .ret
    ∧ decode32 (0x0C61 + 2 * sc.toNat + 2 ^ 14 * a.toNat) = .ok (.jmpr a))
  ∧ ∀ (s : State) (g : Group) (t : Word), g.handler = none → g.codeSize ≤ t.toNat →
    s.groupBytes { g with pc := t } t = .error cProtection

/-- The target is pc + 2 × off14, or after an EXT pc + 2 × the 38 bits of x and off14. With lanes on both sides, DBR and
DBR.T push a rejoin entry and a path entry and take one side (DBR the lanes not in sa, DBR.T the lanes in sa), and
trap PATH_OVERFLOW with more than 14 entries; with all lanes on one side they raise U, which traps at 255, and go that
way. JOIN lowers U, or pops the top entry: of another DEPTH it traps PATH_DEPTH, and with no entry PATH_UNBALANCED.
Each that ERET re-issued goes on after itself. -/
def Obligations.DivergenceResults : Prop :=
  ∀ (s : State) (q : Issue) (g : Group) (a : BitVec 6) (o : BitVec 14) (tgt T F : Word), Issues s q g →
    (Usable g (usesS [] [a.toNat]) → tgt = g.pc + 2 * q.immediate (o.signExtend 32) (fun x => (x ++ o).extractLsb' 0 32) →
        T = g.exec &&& g.sreg a.toNat → F = g.exec &&& ~~~g.sreg a.toNat →
      if T = 0 ∨ F = 0 then
        if g.u = 255 then Traps s g (.dbr a o) cPathOverflow ∧ Traps s g (.dbrT a o) cPathOverflow
        else if T = 0 then Completes s q (.dbr a o) { g with u := g.u + 1 } ∧ Completes s q (.dbrT a o) { g with u := g.u + 1 }
        else
          Transfers s q (.dbr a o) (({ g with u := g.u + 1, lower := g.lowerAt tgt } : Group).sentTo q tgt)
          ∧ Transfers s q (.dbrT a o) (({ g with u := g.u + 1, lower := g.lowerAt tgt } : Group).sentTo q tgt)
      else if 14 < g.path.length then Traps s g (.dbr a o) cPathOverflow ∧ Traps s g (.dbrT a o) cPathOverflow
      else
        let rejoin : PathEntry := ⟨true, BitVec.ofNat 32 g.u, g.exec, g.fmt, g.depth⟩
        Completes s q (.dbr a o) { g with path := ⟨false, tgt, T, g.fmt, g.depth⟩ :: rejoin :: g.path, exec := F, u := 0 }
        ∧ Transfers s q (.dbrT a o)
          (({ g with path := ⟨false, g.pc + BitVec.ofNat 32 q.len, F, g.fmt, g.depth⟩ :: rejoin :: g.path, exec := T, u := 0,
                     lower := g.lowerAt tgt } : Group).sentTo q tgt))
    ∧ (0 < g.u → Completes s q .join { g with u := g.u - 1 })
    ∧ (g.u = 0 → g.path = [] → Traps s g .join cPathUnbalanced)
    ∧ (∀ e r, g.u = 0 → g.path = e :: r →
      if e.depth ≠ g.depth then Traps s g .join cPathDepth
      else if e.rejoin then Completes s q .join
        { g with path := r, exec := e.mask, fmt := e.fmt, epoch := g.epoch + 1, u := e.pc.toNat % 256 }
      else Transfers s q .join
        (({ g with path := r, exec := e.mask, fmt := e.fmt, epoch := g.epoch + 1 } : Group).sentTo q e.pc))

/-- LOOP pushes its start, its end (pc + 2 × end10, or after an EXT pc + 2 × the low 32 bits of x and end10) and its count
and goes to the next instruction; with a count of 0 it pushes nothing and goes past the instruction at its end, and
issues again 4 clk later, the model's choice, while that instruction lies on a page in a move; an end before the body
traps ILLEGAL_OPERAND and a fifth entry LOOP_OVERFLOW. At the end check a count above 1 is lowered and the group goes
to the start; a count of 1 pops the entry and the check goes on with the one below; at any other address the group
goes on. A LOOP that ERET re-issued goes on after itself.
Where the model chooses or infers: log entries 22 (DEDUCED), 87 (DESIGN CHOICE), 99 (DEDUCED), 121 (DEDUCED). -/
def Obligations.LoopResults : Prop :=
  (∀ (s : State) (q : Issue) (g : Group) (a : BitVec 6) (n : BitVec 8) (e : BitVec 10) (stop count : Word), Issues s q g →
    Usable g (usesS [] [a.toNat]) → stop = g.pc + 2 * q.immediate (e.zeroExtend 32) (fun x => (x ++ e).extractLsb' 0 32) →
    count = (if a = 0 then n.zeroExtend 32 else g.sreg a.toNat) →
    let next : Word := g.pc + BitVec.ofNat 32 q.len
    if stop.toNat < next.toNat then Traps s g (.loop a n e) cIllegalOperand
    else if count = 0 then
      (∀ len, s.lenAt g stop = .ok len →
        Transfers s q (.loop a n e) (g.sentTo q (stop + BitVec.ofNat 32 len)))
      ∧ (∀ c, s.lenAt g stop = .error c → if c = cMoving then Retries s g (.loop a n e) else Traps s g (.loop a n e) c)
    else if g.loops.length = 4 then Traps s g (.loop a n e) cLoopOverflow
    else Transfers s q (.loop a n e)
      (({ g with loops := { start := next, stop := stop, count := count } :: g.loops } : Group).sentTo q next))
  ∧ (∀ (r : List LoopEntry) (e : LoopEntry) (a next : Word),
    endCheck [] a next = ([], next)
    ∧ (e.stop ≠ a → endCheck (e :: r) a next = (e :: r, next))
    ∧ (e.stop = a → e.count ≠ 1 → endCheck (e :: r) a next = ({ e with count := e.count - 1 } :: r, e.start))
    ∧ (e.stop = a → e.count = 1 → endCheck (e :: r) a next = endCheck r a next))

/-- SEXEC sets exec to sa, SEXECAND and SEXECANDN keep the lanes of exec that sa holds or lacks, and SGETEXEC and FMTGET
read exec and fmt into sd; FMTSET sets fmt to sa, and traps ILLEGAL_OPERAND, leaving fmt, when bits [31:20] are not 0
or AF, BF or CF is above 8. -/
def Obligations.ExecAndFmt : Prop :=
  ∀ (s : State) (q : Issue) (g : Group) (a : BitVec 6), Issues s q g →
    (Usable g (usesS [] [a.toNat]) →
      Completes s q (.sexec a) { g with exec := g.sreg a.toNat }
      ∧ Completes s q (.sexecand a) { g with exec := g.exec &&& g.sreg a.toNat }
      ∧ Completes s q (.sexecandn a) { g with exec := g.exec &&& ~~~g.sreg a.toNat }
      ∧ (if (g.sreg a.toNat).toNat < 2 ^ 20 ∧ ((g.sreg a.toNat).extractLsb' 0 4).toNat ≤ 8
            ∧ ((g.sreg a.toNat).extractLsb' 4 4).toNat ≤ 8 ∧ ((g.sreg a.toNat).extractLsb' 8 4).toNat ≤ 8 then
          Completes s q (.fmtset a) { g with fmt := g.sreg a.toNat }
        else Traps s g (.fmtset a) cIllegalOperand))
    ∧ (Usable g (usesS [a.toNat] []) →
      Completes s q (.sgetexec a) (g.setS a.toNat g.exec) ∧ Completes s q (.fmtget a) (g.setS a.toNat g.fmt))

/-- SRD gives sd the value of the special register that idx6 names in Table A.5; a read of CLK takes the low half of the
count and latches the high half into CLKH; EPC, ECAUSE, EMASK and FREC need supervisor mode and otherwise trap
PROTECTION; any other number traps ILLEGAL_OPERAND.
Where the model chooses or infers: log entries 8 (DESIGN CHOICE), 10 (DEDUCED). -/
def Obligations.SpecialReads : Prop :=
  ∀ (s : State) (q : Issue) (g : Group) (d x : BitVec 6), Issues s q g → Usable g (usesS [d.toNat] []) →
    (∀ v : Word, (x.toNat, v) ∈ [
        (0x00, BitVec.ofNat 32 g.grp),
        (0x01, g.teamX),
        (0x02, g.teamY),
        (0x03, g.teamZ),
        (0x04, g.nteamX),
        (0x05, g.nteamY),
        (0x06, g.nteamZ),
        (0x07, BitVec.ofNat 32 g.tsize),
        (0x08, BitVec.ofNat 32 g.core),
        (0x09, BitVec.ofNat 32 (g.core / 4)),
        (0x0A, BitVec.ofNat 32 g.die),
        (0x0B, BitVec.ofNat 32 g.ctx),
        (0x0C, BitVec.ofNat 32 g.nest),
        (0x11, g.clkh),
        (0x12, BitVec.ofNat 32 (s.clk / 940)),
        (0x18, g.seed),
        (0x19, if g.schk then 1 else 0),
        (0x1A, BitVec.ofNat 32 g.prio),
        (0x1B, BitVec.ofNat 32 g.path.length),
        (0x1C, BitVec.ofNat 32 g.loops.length)] →
      Completes s q (.srd d x) (g.setS d.toNat v))
    ∧ (x = 0x10 → Completes s q (.srd d x)
      (({ g with clkh := BitVec.ofNat 32 (s.clk / 2 ^ 32) } : Group).setS d.toNat (BitVec.ofNat 32 s.clk)))
    ∧ (∀ v : Word, (x.toNat, v) ∈ [
        (0x20, g.epc), (0x21, g.ecause), (0x22, g.emask), (0x23, BitVec.ofNat 32 g.frec)] →
      if g.super then Completes s q (.srd d x) (g.setS d.toNat v) else Traps s g (.srd d x) cProtection)
    ∧ ((0x0C < x.toNat ∧ x.toNat < 0x10) ∨ (0x12 < x.toNat ∧ x.toNat < 0x18) ∨ (0x1C < x.toNat ∧ x.toNat < 0x20)
        ∨ 0x23 < x.toNat → Traps s g (.srd d x) cIllegalOperand)

/-- SWR sets SEED to a value other than 0, SCHK to 0 or 1, and PRIO to a value up to 7, held to the context's ceiling, and
clears the BACKOFF lowering with it; in supervisor mode it sets EPC, ECAUSE (26 bits), EMASK and the low half of FREC;
other values and registers trap ILLEGAL_OPERAND, and the supervisor registers trap PROTECTION in user mode.
Where the model chooses or infers: log entries 10 (DEDUCED), 117 (DEDUCED). -/
def Obligations.SpecialWrites : Prop :=
  ∀ (s : State) (q : Issue) (g : Group) (a x : BitVec 6) (v : Word), Issues s q g → Usable g (usesS [] [a.toNat]) → v = g.sreg a.toNat →
    (x = 0x18 → if v ≠ 0 then Completes s q (.swr a x) { g with seed := v } else Traps s g (.swr a x) cIllegalOperand)
    ∧ (x = 0x19 → if v.toNat ≤ 1 then Completes s q (.swr a x) { g with schk := decide (v = 1) }
        else Traps s g (.swr a x) cIllegalOperand)
    ∧ (∀ c, x = 0x1A → s.ctx? g.ctx = some c →
        if v.toNat ≤ 7 then Completes s q (.swr a x) { g with prio := min v.toNat c.pceil, lower := 0 }
        else Traps s g (.swr a x) cIllegalOperand)
    ∧ (x = 0x20 ∨ x = 0x21 ∨ x = 0x22 ∨ x = 0x23 → g.super = false → Traps s g (.swr a x) cProtection)
    ∧ (g.super = true →
      (x = 0x20 → Completes s q (.swr a x) { g with epc := v })
      ∧ (x = 0x21 → if v.toNat < 2 ^ 26 then Completes s q (.swr a x) { g with ecause := v }
          else Traps s g (.swr a x) cIllegalOperand)
      ∧ (x = 0x22 → Completes s q (.swr a x) { g with emask := v })
      ∧ (x = 0x23 → Completes s q (.swr a x) { g with frec := g.frec / 2 ^ 32 * 2 ^ 32 + v.toNat }))
    ∧ (x.toNat < 0x18 ∨ (0x1A < x.toNat ∧ x.toNat < 0x20) ∨ 0x23 < x.toNat → Traps s g (.swr a x) cIllegalOperand)

/-- NOP changes nothing; DLY of n = sa + imm12 beats (the low 32 bits of x and imm12 after an EXT) completes and holds the
group n beats beyond its stall count, and not at all for 0; YIELD completes and holds the group; BACKOFF lowers the
group's priority by one, at most seven in all, and remembers its own address.
Where the model chooses or infers: log entry 122 (DEDUCED). -/
def Obligations.HintsAndDelays : Prop :=
  ∀ (s : State) (q : Issue) (g : Group) (a : BitVec 6) (v : BitVec 12) (n : Nat), Issues s q g →
    Completes s q .nop g
    ∧ (Usable g (usesS [] [a.toNat]) → n = (g.sreg a.toNat + q.immediate (v.zeroExtend 32) (fun x => (x ++ v).extractLsb' 0 32)).toNat →
      exec (.dly a v) s = .next (s.putGroup { g.onward s.clk q with
        wait := if n = 0 then .none else .dly (s.clk + 4 * (1 + q.sc) + 4 * n) }))
    ∧ exec .yield s = .next (s.putGroup { g.onward s.clk q with wait := .yield s.clk })
    ∧ Completes s q .backoff { g with lower := min 7 (g.lower + 1), anchor := some g.pc }

/-- A trap in a group outside its handler, whose context has one, lands the pending fixed-latency results, sets EPC,
ECAUSE, EMASK and FREC, saves exec, fmt, the stacks, U, DEPTH and the mode, and enters the handler at offset 0 in
supervisor mode with empty stacks and exec = EMASK, with no stall count left to wait for. In the handler it ends the
context with HANDLER_TRAP, and without a handler with NO_HANDLER.
Where the model chooses or infers: log entry 10 (DEDUCED). -/
def Obligations.TrapEntry : Prop :=
  ∀ (s : State) (g : Group) (code : Nat) (info epc emask : Word) (frec : Nat) (lane : Bool) (c : Ctx),
    s.ctx? g.ctx = some c →
    let t := s.trapEntry g code info epc emask frec lane
    let h := g.landing.foldl Group.land g
    (g.handler = none → c.handler ≠ 0 → t = s.putGroup { h with
        landing := [], epc := epc, ecause := BitVec.ofNat 32 code ||| (info <<< 8), emask := emask, frec := frec,
        handler := some ⟨g.reissue.getD g.exec, g.fmt, g.path, g.loops, g.u, g.depth, g.super, code, lane⟩
        exec := emask, super := true, path := [], loops := [], u := 0, depth := 0, pc := 0, reissue := none, wait := .none,
        park := none, readyAt := (g.lastIssue.map (· + 4)).getD g.readyAt })
    ∧ (g.handler = none → c.handler = 0 → t = (s.putGroup { h with landing := [] }).endContext g.ctx 0x20 epc.toNat)
    ∧ (g.handler ≠ none → t = (s.putGroup { h with landing := [] }).endContext g.ctx 0x21 epc.toNat)

/-- TRAP and BRK make their end check and enter the handler with SOFTWARE or BREAK, their imm18 in ECAUSE above bit 8, and
EPC the address the end check selects. ERET traps PROTECTION in user mode, ILLEGAL_OPERAND outside a handler and
MISALIGNED with an odd EPC; in a handler it restores what the entry saved and goes on at EPC, after a per-lane cause
under exec = EMASK with the saved exec given back when the instruction completes, or past the instruction at EPC when
EMASK is 0; where that instruction cannot be fetched it traps there, and while it lies on a page in a move ERET issues
again 4 clk later, the model's choice. FPOST traps PROTECTION in user mode, and in supervisor mode posts the records
of its lanes that do not park and parks the group after it, issuing again 4 clk later, the model's choice, while a
page of those records moves.
Where the model chooses or infers: log entries 19 (DEDUCED), 87 (DESIGN CHOICE), 99 (DEDUCED), 117 (DEDUCED), 124
(DEDUCED), 125 (DEDUCED), 141 (DESIGN CHOICE). -/
def Obligations.SoftwareTraps : Prop :=
  ∀ (s : State) (q : Issue) (g : Group) (v : BitVec 18), Issues s q g →
    let h := (g.stamp s.clk 0).advance q.len
    exec (.trap v) s = .next (s.trapEntry h cSoftware (v.zeroExtend 32) h.pc g.exec 0 false)
    ∧ exec (.brk v) s = .next (s.trapEntry h cBreak (v.zeroExtend 32) h.pc g.exec 0 false)
    ∧ (g.super = false → Traps s g .eret cProtection ∧ Traps s g .fpost cProtection)
    ∧ (g.super = true → g.handler = none → Traps s g .eret cIllegalOperand)
    ∧ (g.super = true → g.handler ≠ none → g.epc.toNat % 2 = 1 → Traps s g .eret cMisaligned)
    ∧ (∀ k : SavedCtx, g.super = true → g.handler = some k → g.epc.toNat % 2 = 0 →
      let r : Group := { (g.stamp s.clk q.sc).settle with
        fmt := k.fmt, path := k.path, loops := k.loops, u := k.u, depth := k.depth, super := k.super, handler := none, park := none,
        wait := .none, pc := g.epc }
      (k.perLane = false → exec .eret s = .next (s.putGroup { r with exec := k.exec, reissue := none }))
      ∧ (k.perLane = true → g.emask ≠ 0 → exec .eret s = .next (s.putGroup { r with exec := g.emask, reissue := some k.exec }))
      ∧ (∀ n, k.perLane = true → g.emask = 0 → s.lenAt { r with exec := k.exec, reissue := none } g.epc = .ok n →
          exec .eret s = .next (s.putGroup (({ r with exec := k.exec, reissue := none } : Group).advance n)))
      ∧ (∀ c, k.perLane = true → g.emask = 0 → s.lenAt { r with exec := k.exec, reissue := none } g.epc = .error c →
          if c = cMoving then Retries s g .eret
          else exec .eret s = .next (s.trapEntry { r with exec := k.exec, reissue := none } c 0 g.epc k.exec 0 false)))
    ∧ (g.super = true → s.failsMove g = true → Retries s g .fpost)
    ∧ (g.super = true → s.failsMove g = false →
      let t := s.each ((s.readFails g).filter fun f => !f.parkable) fun s f => s.postFault g.die g.ctx f.va f.access f.mapId [g.gid]
      exec .fpost s = .next (t.putGroup { (g.onward t.clk q).settle with
        park := some { pc := (g.onward t.clk q).pc, lanes := g.emask, fails := s.readFails g, posted := true, since := t.clk } }))

/-- COMMIT and END mark the group's team committed at this point and make final the pops it issued before; the group then
waits until the clk is over and no earlier operation is held in the commit buffer. LAUNCH holds its kick-register
write in the team's commit buffer and goes on, and traps ILLEGAL_OPERAND for an odd pair, DEPTH_LIMIT at NEST 10 and
COMMIT_FULL with 64 entries held. GCLR makes a guard unresolved. GSET to true, after the group's earlier stores are
performed at DEVICE, or to false, resolves an unresolved guard or leaves one of its own value, lets the team's jobs
and waits go on, and traps ILLEGAL_OPERAND for another value or a guard that holds the other.
Where the model chooses or infers: log entries 23 (DESIGN CHOICE), 123 (DEDUCED). -/
def Obligations.EndAndCommit : Prop :=
  (∀ (s : State) (q : Issue) (g : Group) (t : Team), Issues s q g → s.team? g.tid = some t →
    ∀ isEnd : Bool, ∃ u : State, exec (if isEnd then .endI else .commit) s = .next u
      ∧ (∃ t', u.team? g.tid = some t' ∧ t'.committed = true ∧ t'.commitTurn = max t.commitTurn (s.issueTurn g) ∧ t'.held = t.held
          ∧ t'.releasing = t.releasing ++ [(s.issueTurn g, s.nextId)])
      ∧ (∀ k ∈ u.queues, ∀ e ∈ k.tents, e.tid = g.tid → s.issueTurn g ≤ e.turn)
      ∧ SameBytes s u
      ∧ u.group? g.gid = some { g.stamp s.clk (if isEnd then 0 else q.sc) with wait := .commit (s.issueTurn g) isEnd }
      ∧ ∀ (v : State) (k : Group) (t' : Team), v.group? k.gid = some k → k.wait = .commit (s.issueTurn g) isEnd → v.team? k.tid = some t' →
        (v.waitOver k = true ↔ s.clk < v.clk ∧ ∀ e ∈ t'.held, s.issueTurn g ≤ e.turn))
  ∧ (∀ (s : State) (q : Issue) (g : Group) (t : Team) (a b : BitVec 6) (k : BitVec 4) (v : BitVec 2), Issues s q g → s.team? g.tid = some t →
    (Usable g (usesS [] (pairRegs a.toNat ++ [b.toNat])) →
      if a.toNat % 2 = 1 then Traps s g (.launch a b) cIllegalOperand
      else if 10 ≤ g.nest then Traps s g (.launch a b) cDepthLimit
      else if 64 ≤ t.held.length then Traps s g (.launch a b) cCommitFull
      else exec (.launch a b) s = .next ((({ s with nextId := s.nextId + 1 } : State).putTeam { t with held := (insertHeld
          { id := s.nextId, turn := s.issueTurn g, gid := g.gid, pc := g.pc, exec := g.exec,
            what := .kick [((g.pair a.toNat).toNat, g.sreg b.toNat)] g.nest } t.held) }).putGroup
        (g.onward s.clk q)))
    ∧ (∀ (e : HeldEntry) (l : List HeldEntry), (∀ x ∈ l, x.turn ≤ e.turn) → insertHeld e l = l ++ [e])
    ∧ exec (.gclr k) s = .next ((s.putTeam { t with guards := t.guards.set k.toNat 0 }).putGroup (g.onward s.clk q))
    ∧ (v = 0 ∨ v = 3 → Traps s g (.gset k v) cIllegalOperand)
    ∧ (v = 1 ∨ v = 2 → t.guards.getD k.toNat 0 ≠ 0 → t.guards.getD k.toNat 0 ≠ v.toNat → Traps s g (.gset k v) cIllegalOperand)
    ∧ (v = 1 ∨ v = 2 → t.guards.getD k.toNat 0 = v.toNat ∨ (v = 2 ∧ t.guards.getD k.toNat 0 = 0) →
      exec (.gset k v) s = .next ((((s.putTeam { t with guards := t.guards.set k.toNat v.toNat }).pumpJobs g.tid t.jobs.length).putGroup
        (g.onward s.clk q)).wakeTeam g.tid))
    ∧ (∀ (h : Group) (t' : Team), t.guards.getD k.toNat 0 = 0 →
      let r := s.release g.gid s.nextId 3
      r.group? g.gid = some h → h.tid = g.tid → r.team? g.tid = some t' →
      if r.performedAt g.gid r.nextId 3 then
        exec (.gset k 1) s = .next ((((r.putTeam { t' with guards := t'.guards.set k.toNat 1 }).pumpJobs g.tid t'.jobs.length).putGroup
          (h.onward r.clk q)).wakeTeam g.tid)
      else exec (.gset k 1) s = .next (r.putGroup { h with wait := .retry 3 })))

/-- With a scope, a width and a hint that exist, a valid translation register and every lane in exec passing its check
phase, LD puts one access of those lanes on the load counter, with the destination, width and acquire scope that its
fields give, changes no register, no byte and no other group, and goes on or waits for the end of the check phase. A
reserved width or hint, sx with a width above 2 bytes, and an INVALID register trap ILLEGAL_OPERAND.
Where the model chooses or infers: log entries 12 (DEDUCED), 15 (DESIGN CHOICE), 19 (DEDUCED), 24 (DEDUCED), 25
(DEDUCED), 40 (DEDUCED). -/
def Obligations.LoadAccess : Prop :=
  ∀ (s : State) (q : Issue) (g : Group) (d : BitVec 7) (b : BitVec 3) (o : BitVec 7) (w h : BitVec 3) (x : BitVec 1) (rs : List LaneReq) (k : Group), Issues s q g →
    k = s.refresh g b.toNat →
    Usable g { vN := regsFrom d.toNat (accRegs w) ++ [o.toNat], sN := [], vR := [o.toNat], sR := [] } →
    (5 ≤ w.toNat ∨ h = 7 ∨ (x = 1 ∧ 2 ≤ w.toNat) ∨ (g.breg b.toNat).state = .invalid → Traps s g (.ld d b o w h x) cIllegalOperand)
    ∧ (w.toNat < 5 → h ≠ 7 → (x = 1 → w.toNat < 2) → (g.breg b.toNat).state = .filling →
      Retries s g (.ld d b o w h x))
    ∧ (w.toNat < 5 → h ≠ 7 → (x = 1 → w.toNat < 2) → (g.breg b.toNat).state = .valid ∨ (g.breg b.toNat).state = .stale →
      LanesPass (s.checkLanes k (k.breg b.toNat) o.toNat (2 ^ w.toNat) .rd (fun _ => 0) (fun _ => 0)) rs →
      ∃ t, exec (.ld d b o w h x) s = .next t ∧ t.stores = s.stores
        ∧ Entered s t q k { Access.make s.nextId k 0 (if g.exec = 0 then .nothing else .ld) s.clk with
            dst := d.toNat, width := 2 ^ w.toNat, sx := decide (x = 1), op := h.toNat, acq := hintScope h,
            scope := (hintScope h).getD 0, lanes := rs } (fastPath (k.breg b.toNat) ((lanesOf g.exec).map fun l => (g.vlane o.toNat l).toNat)))

/-- With a width and a hint that exist, a valid translation register, every lane in exec passing its check phase and none
at a kick register, ST puts one store per lane into the group's buffer, of the lane's bytes of vs and only the highest
lane's where two lanes have one address, performed nowhere yet and with the release scope of the hint; no byte of
memory, no register and no other group changes. A reserved width or hint and an INVALID register trap ILLEGAL_OPERAND.
Where the model chooses or infers: log entries 12 (DEDUCED), 15 (DESIGN CHOICE), 19 (DEDUCED), 24 (DEDUCED), 25
(DEDUCED), 40 (DEDUCED). -/
def Obligations.StoreAccess : Prop :=
  ∀ (s : State) (q : Issue) (g : Group) (v : BitVec 7) (b : BitVec 3) (o : BitVec 7) (w h : BitVec 3) (rs : List LaneReq) (k : Group), Issues s q g →
    k = s.refresh g b.toNat →
    Usable g { vN := regsFrom v.toNat (accRegs w) ++ [o.toNat], sN := [], vR := regsFrom v.toNat (accRegs w) ++ [o.toNat],
               sR := [] } →
    (5 ≤ w.toNat ∨ h = 7 ∨ (g.breg b.toNat).state = .invalid → Traps s g (.st v b o w h) cIllegalOperand)
    ∧ (w.toNat < 5 → h ≠ 7 → (g.breg b.toNat).state = .filling → (∀ z ∈ s.checkLanes g (g.breg b.toNat) o.toNat (2 ^ w.toNat) .wr (fun _ => 0) (fun _ => 0),
        ∀ r, z = .pass r → r.loc.sp ≠ .kick g.ctx) → Retries s g (.st v b o w h))
    ∧ (w.toNat < 5 → h ≠ 7 → (g.breg b.toNat).state = .valid ∨ (g.breg b.toNat).state = .stale → (∀ r ∈ rs, r.loc.sp ≠ .kick g.ctx) →
      LanesPass (s.checkLanes k (k.breg b.toNat) o.toNat (2 ^ w.toNat) .wr (fun _ => 0) (fun _ => 0)) rs →
      let a : Access := { Access.make s.nextId k 1 (if g.exec = 0 then .nothing else .st) s.clk with
            width := 2 ^ w.toNat, scope := (hintScope h).getD 0, lanes := rs.map fun r => { r with finished := true } }
      ∃ t, exec (.st v b o w h) s = .next t ∧ Entered s t q k a (fastPath (k.breg b.toNat) ((lanesOf g.exec).map fun l => (g.vlane o.toNat l).toNat))
        ∧ Buffered s t k a (hintScope h) ((rs.filter fun r => !rs.any fun y => decide (r.lane < y.lane) && decide (r.loc = y.loc)).map fun r =>
            (r.lane, .mem r.loc, storeBytes g v.toNat (2 ^ w.toNat) r.lane)))

/-- With a scope that exists, a valid translation register and every lane in exec passing its check phase, each of the
thirteen functions of ATOM puts one access on the atomic counter that carries its operation, its operands (a CAS also
v(d+1), the new value) and its scope, which host or peer memory makes SYSTEM; a reserved scope or an INVALID register
traps ILLEGAL_OPERAND. The new word of each operation is the one of Table A.58: ADD.F adds as VADD.F does with fmt 0
(nearest even, subnormals kept), MAX.F and MIN.F are those of VMAX.F and VMIN.F.
Where the model chooses or infers: log entries 12 (DEDUCED), 15 (DESIGN CHOICE), 19 (DEDUCED), 24 (DEDUCED), 25
(DEDUCED), 40 (DEDUCED). -/
def Obligations.AtomAccess : Prop :=
  (∀ (s : State) (q : Issue) (g : Group) (d : BitVec 7) (b : BitVec 3) (o : BitVec 7) (c : BitVec 3) (rs : List LaneReq) (k : Group), Issues s q g →
    k = s.refresh g b.toNat →
    ∀ (op : Nat) (i : Instr), (op, i) ∈ [
        (0, .atomAdd d b o c), (1, .atomMinS d b o c), (2, .atomMaxS d b o c), (3, .atomMinZ d b o c),
        (4, .atomMaxZ d b o c), (5, .atomAnd d b o c), (6, .atomOr d b o c), (7, .atomXor d b o c),
        (8, .atomXchg d b o c), (9, .atomCas d b o c), (10, .atomAddF d b o c), (11, .atomMaxF d b o c),
        (12, .atomMinF d b o c)] →
    let regs := if op = 9 then [d.toNat, d.toNat + 1] else [d.toNat]
    Usable g { vN := regs ++ [o.toNat], sN := [], vR := regs ++ [o.toNat], sR := [] } →
    (5 ≤ c.toNat ∨ (g.breg b.toNat).state = .invalid → Traps s g i cIllegalOperand)
    ∧ (c.toNat < 5 → (g.breg b.toNat).state = .filling → Retries s g i)
    ∧ (c.toNat < 5 → (g.breg b.toNat).state = .valid ∨ (g.breg b.toNat).state = .stale →
      LanesPass (s.checkLanes k (k.breg b.toNat) o.toNat 4 (.at_ op) (g.vlane d.toNat)
        (fun l => if op = 9 then g.vlane (d.toNat + 1) l else 0)) rs →
      ∃ t, exec i s = .next t ∧ t.stores = s.stores
        ∧ Entered s t q k { Access.make s.nextId k 3 (if g.exec = 0 then .nothing else .atom) s.clk with
            dst := d.toNat, width := 4, op := op, scope := sysScope c.toNat rs, lanes := rs } (fastPath (k.breg b.toNat) ((lanesOf g.exec).map fun l => (g.vlane o.toNat l).toNat))))
  ∧ (∀ m x y : Word, atomNew 0 m x y = m + x ∧ atomNew 1 m x y = (if m.toInt ≤ x.toInt then m else x)
    ∧ atomNew 2 m x y = (if m.toInt ≤ x.toInt then x else m) ∧ atomNew 3 m x y = (if m.toNat ≤ x.toNat then m else x)
    ∧ atomNew 4 m x y = (if m.toNat ≤ x.toNat then x else m) ∧ atomNew 5 m x y = m &&& x ∧ atomNew 6 m x y = m ||| x
    ∧ atomNew 7 m x y = m ^^^ x ∧ atomNew 8 m x y = x ∧ atomNew 9 m x y = (if m = x then y else m)
    ∧ atomNew 10 m x y = fadd 0 m x ∧ atomNew 11 m x y = f32Max m x ∧ atomNew 12 m x y = f32Min m x)

/-- With a valid translation register, an even register where a pair is named, and the address base + 4 × imm12 (after an
EXT, 4 × the low 32 bits of x and imm12) passing its check phase, each of the eight SMEM instructions puts one access
on its counter (loads and polls, stores, atomics) with its destination, its operands and its acquire or scope, and SST
and SST64 one store of the register or pair; an INVALID register and an odd pair trap ILLEGAL_OPERAND. An SST, or a
vector ST one of whose lanes, at a kick register of the group's context is held in the commit buffer when it has room:
one entry of the register's number and the word (of each such lane, in lane order, for ST), and the other lanes' bytes
join the group's buffer as stores; no byte of memory changes. With 64 entries held it traps COMMIT_FULL. An SST64 in
the kick page, which takes 32-bit stores alone, stores nothing and fails its check phase with PROTECTION.
Where the model chooses or infers: log entries 12 (DEDUCED), 15 (DESIGN CHOICE), 19 (DEDUCED), 24 (DEDUCED), 25
(DEDUCED), 40 (DEDUCED). -/
def Obligations.ScalarMemoryAccess : Prop :=
  (∀ (s : State) (q : Issue) (g : Group) (d : BitVec 6) (b : BitVec 3) (v : BitVec 12) (w : Word) (r : LaneReq) (k : Group), Issues s q g → k = s.refresh g b.toNat →
    w = q.immediate (v.zeroExtend 32) (fun x => (x ++ v).extractLsb' 0 32) →
    (Usable g { vN := [], sN := [d.toNat], vR := [], sR := [] } →
      ((g.breg b.toNat).state = .invalid → Traps s g (.sld d b v) cIllegalOperand)
      ∧ ((g.breg b.toNat).state = .filling → Retries s g (.sld d b v))
      ∧ ((g.breg b.toNat).state = .valid ∨ (g.breg b.toNat).state = .stale → s.checkLane k (k.breg b.toNat) 0 (4 * w.toNat) 4 .rd true 0 0 = .pass r →
        ∃ t, exec (.sld d b v) s = .next t ∧ t.stores = s.stores
          ∧ Entered s t q k { Access.make s.nextId k 0 .sld s.clk with dst := d.toNat, width := 4, lanes := [r] } (fastPath (k.breg b.toNat) [4 * w.toNat])))
    ∧ (Usable g { vN := [], sN := [d.toNat, d.toNat + 1], vR := [], sR := [] } →
      ((g.breg b.toNat).state = .invalid ∨ d.toNat % 2 = 1 → Traps s g (.sld64 d b v) cIllegalOperand)
      ∧ ((g.breg b.toNat).state = .filling → d.toNat % 2 = 0 → Retries s g (.sld64 d b v))
      ∧ ((g.breg b.toNat).state = .valid ∨ (g.breg b.toNat).state = .stale → d.toNat % 2 = 0 → s.checkLane k (k.breg b.toNat) 0 (4 * w.toNat) 8 .rd true 0 0 = .pass r →
        ∃ t, exec (.sld64 d b v) s = .next t ∧ t.stores = s.stores
          ∧ Entered s t q k { Access.make s.nextId k 0 .sld64 s.clk with dst := d.toNat, width := 8, lanes := [r] } (fastPath (k.breg b.toNat) [4 * w.toNat])))
    ∧ (Usable g { vN := [], sN := [d.toNat], vR := [], sR := [] } →
      ((g.breg b.toNat).state = .invalid → Traps s g (.sldacq d b v) cIllegalOperand)
      ∧ ((g.breg b.toNat).state = .filling → Retries s g (.sldacq d b v))
      ∧ ((g.breg b.toNat).state = .valid ∨ (g.breg b.toNat).state = .stale → s.checkLane k (k.breg b.toNat) 0 (4 * w.toNat) 4 .rd true 0 0 = .pass r →
        ∃ t, exec (.sldacq d b v) s = .next t ∧ t.stores = s.stores
          ∧ Entered s t q k { Access.make s.nextId k 0 .sldacq s.clk with dst := d.toNat, width := 4, lanes := [r], acq := some (sysScope 3 [r]) } (fastPath (k.breg b.toNat) [4 * w.toNat])))
    ∧ (Usable g { vN := [], sN := [d.toNat], vR := [], sR := [d.toNat] } →
      ((g.breg b.toNat).state = .invalid → Traps s g (.satadd d b v) cIllegalOperand)
      ∧ ((g.breg b.toNat).state = .filling → Retries s g (.satadd d b v))
      ∧ ((g.breg b.toNat).state = .valid ∨ (g.breg b.toNat).state = .stale → s.checkLane k (k.breg b.toNat) 0 (4 * w.toNat) 4 (.at_ 0) true (g.sreg d.toNat) 0 = .pass r →
        ∃ t, exec (.satadd d b v) s = .next t ∧ t.stores = s.stores
          ∧ Entered s t q k { Access.make s.nextId k 3 .satadd s.clk with dst := d.toNat, width := 4, lanes := [r], op := 0, scope := sysScope 3 [r] } (fastPath (k.breg b.toNat) [4 * w.toNat])))
    ∧ (Usable g { vN := [], sN := [d.toNat, d.toNat + 1], vR := [], sR := [d.toNat, d.toNat + 1] } →
      ((g.breg b.toNat).state = .invalid ∨ d.toNat % 2 = 1 → Traps s g (.satcas d b v) cIllegalOperand)
      ∧ ((g.breg b.toNat).state = .filling → d.toNat % 2 = 0 → Retries s g (.satcas d b v))
      ∧ ((g.breg b.toNat).state = .valid ∨ (g.breg b.toNat).state = .stale → d.toNat % 2 = 0 → s.checkLane k (k.breg b.toNat) 0 (4 * w.toNat) 4 (.at_ 9) true (g.sreg d.toNat) (g.sreg (d.toNat + 1)) = .pass r →
        ∃ t, exec (.satcas d b v) s = .next t ∧ t.stores = s.stores
          ∧ Entered s t q k { Access.make s.nextId k 3 .satcas s.clk with dst := d.toNat, width := 4, lanes := [r], op := 9, scope := sysScope 3 [r] } (fastPath (k.breg b.toNat) [4 * w.toNat])))
    ∧ (Usable g { vN := [], sN := [d.toNat], vR := [], sR := [d.toNat] } →
      ((g.breg b.toNat).state = .invalid → Traps s g (.spollne d b v) cIllegalOperand)
      ∧ ((g.breg b.toNat).state = .filling → Retries s g (.spollne d b v))
      ∧ ((g.breg b.toNat).state = .valid ∨ (g.breg b.toNat).state = .stale → s.checkLane k (k.breg b.toNat) 0 (4 * w.toNat) 4 .rd true 0 0 = .pass r →
        let a : Access := { Access.make s.nextId k 0 .spollne s.clk with
          dst := d.toNat, width := 4, lanes := [r], acq := some (sysScope 3 [r]), cmp := g.sreg d.toNat }
        let h : Group := s.watchOne { k with acc := k.acc ++ [a] } a
        ∃ t, exec (.spollne d b v) s = .next t ∧ t.stores = s.stores ∧ OnlyAccess s t g.gid ∧ SameBytes s t
          ∧ t.group? g.gid = some (if fastPath (k.breg b.toNat) [4 * w.toNat] then h.onward s.clk q else { h.stamp s.clk q.sc with wait := .check (s.clk + 4) q.len [] })))
    ∧ (Usable g { vN := [], sN := [d.toNat], vR := [], sR := [d.toNat] } →
      ((g.breg b.toNat).state = .invalid → Traps s g (.sst d b v) cIllegalOperand)
      ∧ ((g.breg b.toNat).state = .filling → (∀ z, s.checkLane g (g.breg b.toNat) 0 (4 * w.toNat) 4 .wr true 0 0 = .pass z → z.loc.sp ≠ .kick g.ctx) → Retries s g (.sst d b v))
      ∧ ((g.breg b.toNat).state = .valid ∨ (g.breg b.toNat).state = .stale → r.loc.sp ≠ .kick g.ctx →
        s.checkLane k (k.breg b.toNat) 0 (4 * w.toNat) 4 .wr true 0 0 = .pass r →
        let a : Access := { Access.make s.nextId k 1 .st s.clk with width := 4, lanes := [{ r with finished := true }] }
        ∃ t, exec (.sst d b v) s = .next t ∧ Entered s t q k a (fastPath (k.breg b.toNat) [4 * w.toNat])
          ∧ Buffered s t k a none [(0, .mem r.loc, leBytes 4 (g.sreg d.toNat).toNat)]))
    ∧ (Usable g { vN := [], sN := [d.toNat, d.toNat + 1], vR := [], sR := [d.toNat, d.toNat + 1] } →
      ((g.breg b.toNat).state = .invalid ∨ d.toNat % 2 = 1 → Traps s g (.sst64 d b v) cIllegalOperand)
      ∧ ((g.breg b.toNat).state = .filling → d.toNat % 2 = 0 → (∀ z, s.checkLane g (g.breg b.toNat) 0 (4 * w.toNat) 8 .wr true 0 0 = .pass z → z.loc.sp ≠ .kick g.ctx) → Retries s g (.sst64 d b v))
      ∧ ((g.breg b.toNat).state = .valid ∨ (g.breg b.toNat).state = .stale → d.toNat % 2 = 0 → r.loc.sp ≠ .kick g.ctx →
        s.checkLane k (k.breg b.toNat) 0 (4 * w.toNat) 8 .wr true 0 0 = .pass r →
        let a : Access := { Access.make s.nextId k 1 .st s.clk with width := 8, lanes := [{ r with finished := true }] }
        ∃ t, exec (.sst64 d b v) s = .next t ∧ Entered s t q k a (fastPath (k.breg b.toNat) [4 * w.toNat])
          ∧ Buffered s t k a none [(0, .mem r.loc, leBytes 4 (g.sreg d.toNat).toNat ++ leBytes 4 (g.sreg (d.toNat + 1)).toNat)])))
  ∧ ((∀ (s : State) (q : Issue) (g : Group) (t : Team) (d : BitVec 6) (b : BitVec 3) (v : BitVec 12) (w : Word) (r : LaneReq) (k : Group), Issues s q g →
    k = s.refresh g b.toNat → w = q.immediate (v.zeroExtend 32) (fun x => (x ++ v).extractLsb' 0 32) → s.team? g.tid = some t →
    (g.breg b.toNat).state = .valid ∨ (g.breg b.toNat).state = .stale → r.loc.sp = .kick g.ctx →
    (Usable g { vN := [], sN := [d.toNat], vR := [], sR := [d.toNat] } →
      s.checkLane k (k.breg b.toNat) 0 (4 * w.toNat) 4 .wr true 0 0 = .pass r →
      if 64 ≤ t.held.length then Traps s g (.sst d b v) cCommitFull
      else ∃ u t', exec (.sst d b v) s = .next u ∧ u.team? g.tid = some t' ∧ u.stores = s.stores ∧ SameBytes s u
        ∧ t'.held = insertHeld ⟨s.nextId + 1, s.issueTurn g, g.gid, g.pc, g.exec, .kick [(r.va, g.sreg d.toNat)] g.nest⟩ t.held)
    ∧ (Usable g { vN := [], sN := [d.toNat, d.toNat + 1], vR := [], sR := [d.toNat, d.toNat + 1] } → d.toNat % 2 = 0 →
      ∀ perm sup, s.through g.ctx (k.breg b.toNat) (4 * w.toNat) = .ok r.loc perm sup →
      exec (.sst64 d b v) s = .next (({ s with nextId := s.nextId + 1 } : State).finishCheck
        ({ k with acc := k.acc ++ [{ Access.make s.nextId k 1 .st s.clk with width := 8, lanes := [] }] } |>.stamp s.clk q.sc) q.len
        (fastPath (k.breg b.toNat) [4 * w.toNat])
        [s.laneFail k 0 ((k.breg b.toNat).base.toNat + 4 * w.toNat) cProtection 1 8])))
  ∧ (∀ (s : State) (q : Issue) (g : Group) (t : Team) (v : BitVec 7) (b : BitVec 3) (o : BitVec 7) (w h : BitVec 3) (rs : List LaneReq) (k : Group), Issues s q g →
    k = s.refresh g b.toNat → s.team? g.tid = some t →
    Usable g { vN := regsFrom v.toNat (accRegs w) ++ [o.toNat], sN := [], vR := regsFrom v.toNat (accRegs w) ++ [o.toNat], sR := [] } →
    w.toNat < 5 → h ≠ 7 → (g.breg b.toNat).state = .valid ∨ (g.breg b.toNat).state = .stale →
    LanesPass (s.checkLanes k (k.breg b.toNat) o.toNat (2 ^ w.toNat) .wr (fun _ => 0) (fun _ => 0)) rs →
    let at_ : LaneReq → Bool := fun r => decide (r.loc.sp = .kick g.ctx)
    rs.any at_ = true →
    if 64 ≤ t.held.length then Traps s g (.st v b o w h) cCommitFull
    else ∃ u t', exec (.st v b o w h) s = .next u ∧ u.team? g.tid = some t' ∧ SameBytes s u
      ∧ t'.held = insertHeld ⟨s.nextId + 1, s.issueTurn g, g.gid, g.pc, g.exec,
          .kick ((rs.filter at_).map fun r => (r.va, g.vlane v.toNat r.lane)) g.nest⟩ t.held
      ∧ ∃ new : List Store, u.stores = s.stores ++ new ∧ new.map (fun x => (x.lane, x.tgt, x.data))
          = ((rs.filter fun r => !at_ r).filter fun r => !(rs.filter fun r => !at_ r).any fun y => decide (r.lane < y.lane) && decide (r.loc = y.loc)).map
              fun r => (r.lane, .mem r.loc, storeBytes g v.toNat (2 ^ w.toNat) r.lane)))

/-- With every lane in exec passing its check at va + 4 × imm6 (after an EXT, of 30 bits) in the team window, SPLD, SPLDQ,
SPATADD and SPATADD.F put one access of those lanes on the scratchpad counter, and SPST and SPSTQ also one store per
lane, and each goes on at once; no byte, no register and no other group changes yet. -/
def Obligations.ScratchpadAccess : Prop :=
  ∀ (s : State) (q : Issue) (g : Group) (d a : BitVec 7) (v : BitVec 6) (w : Word) (rs : List LaneReq), Issues s q g →
    w = q.immediate (v.zeroExtend 32) (fun x => (x ++ v).zeroExtend 32) →
    (Usable g { vN := regsFrom d.toNat 1 ++ [a.toNat], sN := [], vR := [] ++ [a.toNat], sR := [] } →
      LanesPass ((lanesOf g.exec).map fun l => s.checkSpad g l (g.vlane a.toNat l + w * 4).toNat 4 0 (g.vlane d.toNat l)) rs →
      ∃ t, exec (.spld d a v) s = .next t ∧ t.stores = s.stores
        ∧ Entered s t q g { Access.make s.nextId g 2 (if g.exec = 0 then .nothing else .spld) s.clk with
            dst := d.toNat, width := 4, lanes := rs } true)
    ∧ (Usable g { vN := regsFrom d.toNat 4 ++ [a.toNat], sN := [], vR := [] ++ [a.toNat], sR := [] } →
      LanesPass ((lanesOf g.exec).map fun l => s.checkSpad g l (g.vlane a.toNat l + w * 4).toNat 16 0 (g.vlane d.toNat l)) rs →
      ∃ t, exec (.spldq d a v) s = .next t ∧ t.stores = s.stores
        ∧ Entered s t q g { Access.make s.nextId g 2 (if g.exec = 0 then .nothing else .spld) s.clk with
            dst := d.toNat, width := 16, lanes := rs } true)
    ∧ (Usable g { vN := regsFrom d.toNat 1 ++ [a.toNat], sN := [], vR := regsFrom d.toNat 1 ++ [a.toNat], sR := [] } →
      LanesPass ((lanesOf g.exec).map fun l => s.checkSpad g l (g.vlane a.toNat l + w * 4).toNat 4 2 (g.vlane d.toNat l)) rs →
      ∃ t, exec (.spatadd d a v) s = .next t ∧ t.stores = s.stores
        ∧ Entered s t q g { Access.make s.nextId g 2 (if g.exec = 0 then .nothing else .spatadd) s.clk with
            dst := d.toNat, width := 4, lanes := rs } true)
    ∧ (Usable g { vN := regsFrom d.toNat 1 ++ [a.toNat], sN := [], vR := regsFrom d.toNat 1 ++ [a.toNat], sR := [] } →
      LanesPass ((lanesOf g.exec).map fun l => s.checkSpad g l (g.vlane a.toNat l + w * 4).toNat 4 2 (g.vlane d.toNat l)) rs →
      ∃ t, exec (.spataddF d a v) s = .next t ∧ t.stores = s.stores
        ∧ Entered s t q g { Access.make s.nextId g 2 (if g.exec = 0 then .nothing else .spataddF) s.clk with
            dst := d.toNat, width := 4, lanes := rs } true)
    ∧ (Usable g { vN := regsFrom d.toNat 1 ++ [a.toNat], sN := [], vR := regsFrom d.toNat 1 ++ [a.toNat], sR := [] } →
      LanesPass ((lanesOf g.exec).map fun l => s.checkSpad g l (g.vlane a.toNat l + w * 4).toNat 4 1 0) rs →
      let x : Access := { Access.make s.nextId g 2 (if g.exec = 0 then .nothing else .spst) s.clk with
            width := 4, lanes := rs.map fun r => { r with finished := true } }
      ∃ t, exec (.spst d a v) s = .next t ∧ Entered s t q g x true
        ∧ Buffered s t g x none ((rs.filter fun r => !rs.any fun y => decide (r.lane < y.lane) && decide (r.loc = y.loc)).map fun r => (r.lane, .mem r.loc, storeBytes g d.toNat 4 r.lane)))
    ∧ (Usable g { vN := regsFrom d.toNat 4 ++ [a.toNat], sN := [], vR := regsFrom d.toNat 4 ++ [a.toNat], sR := [] } →
      LanesPass ((lanesOf g.exec).map fun l => s.checkSpad g l (g.vlane a.toNat l + w * 4).toNat 16 1 0) rs →
      let x : Access := { Access.make s.nextId g 2 (if g.exec = 0 then .nothing else .spst) s.clk with
            width := 16, lanes := rs.map fun r => { r with finished := true } }
      ∃ t, exec (.spstq d a v) s = .next t ∧ Entered s t q g x true
        ∧ Buffered s t g x none ((rs.filter fun r => !rs.any fun y => decide (r.lane < y.lane) && decide (r.loc = y.loc)).map fun r => (r.lane, .mem r.loc, storeBytes g d.toNat 16 r.lane)))

/-- VTAGLK looks up the key va + imm6 (after an EXT, of 30 bits) of each lane in exec and leaves the table; TAGCLR removes
the entries of the keys in lane order; TAGSET puts the keys at the entries vd names, in lane order, and traps
ILLEGAL_OPERAND when an entry is outside the table or not of its key's set. Each puts one access on the scratchpad
counter, and the access carries for each lane its entry on a hit and all ones on a miss, as the table stands after the
lanes before it. While a JOIN that pops holds the group's accesses back, or an earlier tag function of the group has
not acted, the table is left and the access carries the keys and entries.
Where the model chooses or infers: log entries 27 (DEDUCED), 88 (DEDUCED). -/
def Obligations.TagTable : Prop :=
  ∀ (s : State) (q : Issue) (g : Group) (t : Team) (d a : BitVec 7) (v : BitVec 6) (w : Word), Issues s q g → s.team? g.tid = some t →
    w = q.immediate (v.zeroExtend 32) (fun x => (x ++ v).zeroExtend 32) →
    let lane := fun (l : Nat) (u : Team) => ({
      lane := l, loc := ⟨.win g.tid, 0⟩, va := 0, y := 0, finished := false, poisoned := false, lost := none, stale := false, x := ((u.tagFind (g.vlane a.toNat l + w)).map (BitVec.ofNat 32)).getD 0xFFFFFFFF } : LaneReq)
    let after : Nat → Team → List LaneReq → Answer := fun op u rs => .next ((({ s.putTeam u with nextId := s.nextId + 1 } : State)).putGroup
      (({ g with acc := g.acc ++ [{ Access.make s.nextId g 2 (if g.exec = 0 then .nothing else .tag) s.clk with
        dst := d.toNat, width := 4, op := op, lanes := rs }] } : Group).onward s.clk q))
    let clear : Team → Nat → Team := fun u l => match u.tagFind (g.vlane a.toNat l + w) with
      | some j => { u with tags := u.tags.filter fun e => e.1 ≠ j }
      | none => u
    let set_ : Team → Nat → Team := fun u l => u.tagPut (g.vlane d.toNat l).toNat (g.vlane a.toNat l + w)
    let held : Bool := !s.joinClear g.gid g.epoch || g.tagHeld s.nextId
    let waits : Nat → Answer := fun op => after op t ((lanesOf g.exec).map fun l => { lane l t with
      va := if op = 1 then (g.vlane d.toNat l).toNat else 0, x := (g.vlane a.toNat l + w), y := 1 })
    let each : (Team → Nat → Team) → Team × List LaneReq := fun f => ((lanesOf g.exec).foldl f t,
      (lanesOf g.exec).zipIdx.map fun x => lane x.1 (((lanesOf g.exec).take x.2).foldl f t))
    (Usable g { vN := [d.toNat, a.toNat], sN := [], vR := [a.toNat], sR := [] } →
      exec (.vtaglk d a v) s = (if held then waits 0 else after 0 t ((lanesOf g.exec).map fun l => lane l t))
      ∧ exec (.tagclr d a v) s = (if held then waits 2 else after 2 (each clear).1 (each clear).2))
    ∧ (Usable g { vN := [d.toNat, a.toNat], sN := [], vR := [d.toNat, a.toNat], sR := [] } →
      (t.tagN ≠ 0 → (∀ l ∈ lanesOf g.exec, (g.vlane d.toNat l).toNat < t.tagN
          ∧ (g.vlane d.toNat l).toNat / 8 = tagSet t.tagN (g.vlane a.toNat l + w)) →
        exec (.tagset d a v) s = (if held then waits 1 else after 1 (each set_).1 (each set_).2))
      ∧ ((∃ l ∈ lanesOf g.exec, t.tagN = 0 ∨ t.tagN ≤ (g.vlane d.toNat l).toNat
          ∨ (g.vlane d.toNat l).toNat / 8 ≠ tagSet t.tagN (g.vlane a.toNat l + w)) → Traps s g (.tagset d a v) cIllegalOperand))

/-- FENCE of a scope up to SYSTEM and a kind up to release goes on, with its acquire, when the group's earlier stores and
atomics are performed at the scope and its earlier loads have returned, each as its kind asks, and otherwise waits;
WAITCNT goes on when its counter is at most sa, WAITK in the producer when the token is not BUSY, BARW when the
barrier has opened since the group's last wait; reserved fields trap ILLEGAL_OPERAND and WAITK elsewhere COPY_RIGHTS. -/
def Obligations.WaitInstructions : Prop :=
  ∀ (s : State) (q : Issue) (g : Group) (t : Team) (c : BitVec 3) (k : BitVec 2) (p : BitVec 3) (a : BitVec 6) (b : BitVec 4), Issues s q g →
    s.awake? g.gid = some g → s.team? g.tid = some t → q.len = 4 →
    (if 5 ≤ c.toNat ∨ k = 3 then Traps s g (.fence c k) cIllegalOperand
      else if (k ≠ 1 → s.performedAt g.gid s.nextId c.toNat)
          ∧ (k ≠ 2 → ∀ x ∈ g.acc, x.id < s.nextId → x.fenceWaits = false) then
        Completes s q (.fence c k) (if k = 2 then g else s.acquired g c.toNat)
      else Waits s q (.fence c k) g (.fence c.toNat k.toNat s.nextId))
    ∧ (Usable g (usesS [] [a.toNat]) →
      if 5 ≤ p.toNat then Traps s g (.waitcnt p a) cIllegalOperand
      else if g.count p.toNat ≤ (g.sreg a.toNat).toNat then
        (g.poison.all fun r => r.path != p.toNat) → Completes s q (.waitcnt p a) g
      else Waits s q (.waitcnt p a) g (.waitcnt p.toNat (g.sreg a.toNat).toNat))
    ∧ (if t.producer ≠ g.grp then Traps s g (.waitk c) cCopyRights
      else if (t.token c.toNat).state = 1 then Waits s q (.waitk c) g (.waitk c.toNat)
      else Completes s q (.waitk c) (s.acquired g 3))
    ∧ (if t.seenGen g b.toNat = (g.bar b.toNat).obs then Waits s q (.barw b) g (.barw b.toNat)
      else Completes s q (.barw b) (s.acquired (g.putBar b.toNat { g.bar b.toNat with obs := t.seenGen g b.toNat }) 0))

/-- BARA counts one arrival of the group in the barrier's generation and goes on, and BARS then waits; a second arrival in
one generation traps ILLEGAL_OPERAND; the last one opens the barrier: the generation rises and the count returns to 0.
BARI sets the expected count and SET mode while no arrival is counted, and traps ILLEGAL_OPERAND for a count above 255
or TSIZE or with arrivals counted. GBAR in a grid without barriers traps, and otherwise waits after its release at
DEVICE. XLATE starts a fill of b from an even pair below 2^52, and XINV makes b INVALID.
Where the model chooses or infers: log entries 23 (DESIGN CHOICE), 129 (DEDUCED). -/
def Obligations.BarrierInstructions : Prop :=
  ∀ (s : State) (q : Issue) (g : Group) (t : Team) (n : BitVec 2) (a : BitVec 6) (b : BitVec 4) (k : BitVec 3), Issues s q g → s.team? g.tid = some t →
    let x := t.bar b.toNat
    ((g.bar b.toNat).arr = some x.gen → Traps s g (.bara b) cIllegalOperand ∧ Traps s g (.bars b) cIllegalOperand)
    ∧ ((g.bar b.toNat).arr ≠ some x.gen →
      let h := (g.stamp s.clk q.sc).putBar b.toNat { g.bar b.toNat with arr := some x.gen, arrId := s.nextId }
      let y : Barrier := { x with arrived := x.arrived + 1, reach := if coreOf g.die g.core = t.home then x.reach else s.clk + 8 }
      let r : State := (({ s with nextId := s.nextId + 1 } : State).putTeam (t.putBar b.toNat y)).putGroup h
      (r.barrierReady (t.putBar b.toNat y) b.toNat = false →
        exec (.bara b) s = .next (r.putGroup (h.advance q.len))
        ∧ (s.awake? g.gid = some g → t.seenGen g b.toNat = (g.bar b.toNat).obs →
          g.bars.length = 16 → exec (.bars b) s = .next (r.putGroup { h with wait := .barw b.toNat })))
      ∧ (r.barrierReady (t.putBar b.toNat y) b.toNat = true → b.toNat < t.bars.length →
        ∃ u t', exec (.bara b) s = .next u ∧ u.team? g.tid = some t' ∧ (t'.bar b.toNat).gen = x.gen + 1
          ∧ (t'.bar b.toNat).arrived = 0))
    ∧ (Usable g (usesS [] [a.toNat]) →
      if 256 ≤ (g.sreg a.toNat).toNat ∨ g.tsize < (g.sreg a.toNat).toNat ∨ x.arrived ≠ 0 then Traps s g (.bari b a) cIllegalOperand
      else exec (.bari b a) s = .next ((s.putTeam (t.putBar b.toNat { x with expect := (g.sreg a.toNat).toNat, isSet := true })).putGroup
        (g.onward s.clk q)))
    ∧ (s.gridBars g = false → Traps s g (.gbar n) cIllegalOperand)
    ∧ (∀ h, s.gridBars g = true → (s.release g.gid s.nextId 3).group? g.gid = some h →
      exec (.gbar n) s = .next ((s.release g.gid s.nextId 3).putGroup
        { h.stamp (s.release g.gid s.nextId 3).clk q.sc with wait := .gbar n.toNat }))
    ∧ (Usable g (usesS [] (pairRegs a.toNat)) →
      if a.toNat % 2 = 1 ∨ 2 ^ 52 ≤ (g.pair a.toNat).toNat then Traps s g (.xlate k a) cIllegalOperand
      else exec (.xlate k a) s = .next (({ s with nextId := s.nextId + 1 } : State).putGroup
        (({ g with b := g.b.set k.toNat { g.breg k.toNat with base := BitVec.ofNat 52 (g.pair a.toNat).toNat, state := .filling },
                   acc := g.acc ++ [{ Access.make s.nextId g 0 .xlate s.clk with dst2 := k.toNat }] } : Group).onward s.clk q)))
    ∧ Completes s q (.xinv k) { g with b := g.b.set k.toNat { g.breg k.toNat with state := .invalid } }

/-- QBIND of a width that exists and a handle of a live MSG, EXPERT, REORDER or STREAM queue of the context with entries
of that width binds the register, and QUNBIND of such a register unbinds it, each at once when no pop issued through
the register is outstanding and otherwise after a wait; a width of 3 and a handle of no such queue trap
ILLEGAL_OPERAND, and a BATCH or CHAIN binding or handle, or unbinding an unbound register, traps QUEUE_KIND. QSTAT
reads a bound register's queue.
Where the model chooses or infers: log entry 30 (DEDUCED). -/
def Obligations.QueueBindings : Prop :=
  ∀ (s : State) (q : Issue) (g : Group) (r : BitVec 4) (n : BitVec 2) (d : BitVec 6) (x : Queue) (code : Nat), Issues s q g → s.awake? g.gid = some g → q.len = 4 →
    let idle := ∀ a ∈ g.acc, a.op = r.toNat → a.kind ≠ .qget ∧ a.kind ≠ .qtry ∧ a.kind ≠ .qtryp
    let held := (g.qreg r.toNat).kind = .batch ∨ (g.qreg r.toNat).kind = .chain
    (Usable g (usesS [] [d.toNat]) →
      (n = 3 → Traps s g (.qbind r n d) cIllegalOperand)
      ∧ (n ≠ 3 → s.queueOf (g.sreg d.toNat) = none → (g.sreg d.toNat).toNat / 2 ^ 28 ≠ 3 → (g.sreg d.toNat).toNat / 2 ^ 28 ≠ 6 →
          Traps s g (.qbind r n d) cIllegalOperand)
      ∧ (n ≠ 3 → (g.sreg d.toNat).toNat / 2 ^ 28 = 3 ∨ (g.sreg d.toNat).toNat / 2 ^ 28 = 6 → Traps s g (.qbind r n d) cQueueKind)
      ∧ ((x.kind, code) ∈ [(QKind.msg, 1), (.expert, 2), (.reorder, 4), (.stream, 5)] → s.queueOf (g.sreg d.toNat) = some x →
        x.ctx = g.ctx → (g.sreg d.toNat).toNat / 2 ^ 28 = code → n ≠ 3 →
        if held then Traps s g (.qbind r n d) cQueueKind
        else if x.entryN2 ≠ n then Traps s g (.qbind r n d) cIllegalOperand
        else
          let b : QBind := { kind := x.kind, n2 := n, handle := g.sreg d.toNat, aux := 0 }
          (idle → Completes s q (.qbind r n d) { g with q := g.q.set r.toNat b })
          ∧ (¬idle → Waits s q (.qbind r n d) g (.bind r.toNat b))))
    ∧ (if (g.qreg r.toNat).kind = .unbound ∨ held then Traps s g (.qunbind r) cQueueKind
      else (idle → Completes s q (.qunbind r) { g with q := g.q.set r.toNat QBind.none })
        ∧ (¬idle → Waits s q (.qunbind r) g (.bind r.toNat QBind.none)))
    ∧ (Usable g (usesS [d.toNat] []) →
      if (g.qreg r.toNat).kind = .unbound then Traps s g (.qstat r d) cQueueKind
      else Completes s q (.qstat r d) (g.setS d.toNat (s.qstat g (g.qreg r.toNat))))

/-- On a binding that may pop, of the width named, each pop enters one access on the queue-read counter with its registers
and, for QTRY and QTRYP, its status register; with exec not 0 on a MSG or STREAM queue the pop joins the queue's
waiting pops in order, and the group goes on. Width 3 and another width than the binding's trap ILLEGAL_OPERAND, and a
binding that may not pop QUEUE_KIND. A QGET of a link also waits for its entry, and in the folded form, while the link
is empty, does not issue.
Where the model chooses or infers: log entries 31 (DEDUCED), 128 (DEDUCED). -/
def Obligations.QueuePops : Prop :=
  ∀ (s : State) (q : Issue) (g : Group) (r : BitVec 4) (v : BitVec 7) (n : BitVec 2) (d : BitVec 6) (b : QBind), Issues s q g → b = g.qreg r.toNat →
    let a : AKind → Nat → Access := fun kind d2 => { Access.make s.nextId g 4 (if g.exec = 0 then .nothing else kind) s.clk with
      dst := v.toNat, dst2 := d2, width := 2 ^ n.toNat, op := r.toNat, bind := b, turn := s.issueTurn g }
    let joined : State := { s with nextId := s.nextId + 1, queues := s.queues.map fun x =>
      if g.exec ≠ 0 ∧ (b.kind = .msg ∨ b.kind = .stream) ∧ x.handle = b.handle then { x with pops := x.pops ++ [s.nextId] } else x }
    let after : Access → Answer := fun x => .next (joined.putGroup (({ g with acc := g.acc ++ [x] } : Group).onward s.clk q))
    (Usable g { vN := regsFrom v.toNat (min 4 (2 ^ n.toNat)), sN := [], vR := [], sR := [] } →
      (n = 3 → Traps s g (.qget r v n) cIllegalOperand)
      ∧ (n ≠ 3 → b.pops = false → Traps s g (.qget r v n) cQueueKind)
      ∧ (n ≠ 3 → b.pops = true → b.n2 ≠ n → Traps s g (.qget r v n) cIllegalOperand)
      ∧ (n ≠ 3 → b.pops = true → b.n2 = n → b.kind ≠ .chain ∨ g.exec = 0 →
        exec (.qget r v n) s = after (a .qget 0)))
    ∧ (Usable g { vN := regsFrom v.toNat (min 4 (2 ^ n.toNat)), sN := [d.toNat], vR := [], sR := [] } →
      (n = 3 → Traps s g (.qtry r v n d) cIllegalOperand)
      ∧ (n ≠ 3 → b.pops = false → Traps s g (.qtry r v n d) cQueueKind)
      ∧ (n ≠ 3 → b.pops = true → b.n2 ≠ n → Traps s g (.qtry r v n d) cIllegalOperand)
      ∧ (n ≠ 3 → b.pops = true → b.n2 = n →
        exec (.qtry r v n d) s = after (a .qtry d.toNat)))
    ∧ (Usable g { vN := regsFrom v.toNat (min 4 (2 ^ n.toNat)), sN := [d.toNat], vR := [], sR := [] } →
      (n = 3 → Traps s g (.qtryp r v n d) cIllegalOperand)
      ∧ (n ≠ 3 → b.pops = false → Traps s g (.qtryp r v n d) cQueueKind)
      ∧ (n ≠ 3 → b.pops = true → b.n2 ≠ n → Traps s g (.qtryp r v n d) cIllegalOperand)
      ∧ (n ≠ 3 → b.pops = true → b.n2 = n →
        exec (.qtryp r v n d) s = after (a .qtryp d.toNat)))
    ∧ (∀ c, Usable g { vN := regsFrom v.toNat (min 4 (2 ^ n.toNat)), sN := [], vR := [], sR := [] } → n ≠ 3 → b.kind = .chain → b.handle = 0 →
      b.n2 = n → g.exec ≠ 0 → s.chainOf g = some c →
      if c.folded = true ∧ (c.link b.aux).entries = [] ∧ c.stageEnded b.aux = false then exec (.qget r v n) s = .next (s.blockOn g c .qget)
      else exec (.qget r v n) s = .next (joined.putGroup { ({ g with acc := g.acc ++ [a .qget 0] } : Group).stamp s.clk q.sc with
        wait := .chainPop s.nextId }))

/-- On a binding that may push, of the width named, QPUT with exec not 0 holds one entry of the registers' lanes in exec,
0 in the others, in the team's commit buffer with room, or into its chain's link with room, and counts it REFUSED
where the next stage has ended; with exec 0 it only goes on. Width 3, another width, and a REORDER entry whose word 2
is out of range trap ILLEGAL_OPERAND; a binding that may not push QUEUE_KIND; a full commit buffer COMMIT_FULL.
Where the model chooses or infers: log entry 128 (DEDUCED). -/
def Obligations.QueuePushes : Prop :=
  ∀ (s : State) (q : Issue) (g : Group) (r : BitVec 4) (v : BitVec 7) (n : BitVec 2) (b : QBind) (t : Team), Issues s q g → b = g.qreg r.toNat → s.team? g.tid = some t →
    Usable g { vN := regsFrom v.toNat (min 4 (2 ^ n.toNat)), sN := [], vR := regsFrom v.toNat (min 4 (2 ^ n.toNat)), sR := [] } →
    let regs := (List.range (2 ^ n.toNat)).map fun i => vmk fun l => if g.exec.getLsbD l then g.vlane (v.toNat + i) l else 0
    let ranged := b.kind = .reorder → ∀ l, l < 32 → g.exec.getLsbD l = true → g.vlane (v.toNat + 2) l &&& 0xFFFFFF88 = 0
      ∧ (g.vlane (v.toNat + 2) l).toNat % 8 ≤ (g.vlane (v.toNat + 2) l).toNat / 16 % 8
    (n = 3 → Traps s g (.qput r v n) cIllegalOperand)
    ∧ (n ≠ 3 → b.pushes = false → Traps s g (.qput r v n) cQueueKind)
    ∧ (n ≠ 3 → b.pushes = true → b.n2 ≠ n ∨ ¬ranged → Traps s g (.qput r v n) cIllegalOperand)
    ∧ (n ≠ 3 → b.pushes = true → b.n2 = n → ranged →
      (g.exec = 0 → Completes s q (.qput r v n) g)
      ∧ (g.exec ≠ 0 → b.kind ≠ .chain →
        if 64 ≤ t.held.length then Traps s g (.qput r v n) cCommitFull
        else exec (.qput r v n) s = .next ((({ s with nextId := s.nextId + 1 } : State).putTeam { t with held := (insertHeld
          { id := s.nextId, turn := s.issueTurn g, gid := g.gid, pc := g.pc, exec := g.exec,
            what := .push b.handle b.kind g.exec regs } t.held) }).putGroup (g.onward s.clk q)))
      ∧ (∀ c, g.exec ≠ 0 → b.kind = .chain → s.chainOf g = some c →
        if c.stageEnded (b.aux + 1) then exec (.qput r v n) s = .next ((s.countRefused c.slot 1).putGroup (g.onward s.clk q))
        else if c.room ≤ (c.link b.aux).entries.length then exec (.qput r v n) s = .next (s.blockOn g c .qput)
        else exec (.qput r v n) s = .next ((s.putChain (c.setLink b.aux { c.link b.aux with entries := (c.link b.aux).entries ++
          [{ regs := regs, readyAt := if c.folded then 0 else s.clk + 16 }] })).putGroup (g.onward s.clk q))))

/-- In the team's producer KSTAT reads the token's state and its SKIPPED bit, KBYTES its landed bytes into an even pair,
and KCLR clears a token that is not BUSY; elsewhere they trap COPY_RIGHTS, KBYTES of an odd register ILLEGAL_OPERAND,
and KCLR of a BUSY token COPY_OPERAND. -/
def Obligations.TokenInstructions : Prop :=
  ∀ (s : State) (q : Issue) (g : Group) (t : Team) (k : BitVec 3) (a : BitVec 6), Issues s q g → s.team? g.tid = some t →
    (Usable g (usesS [a.toNat] []) →
      if t.producer ≠ g.grp then Traps s g (.kstat k a) cCopyRights
      else Completes s q (.kstat k a)
        (g.setS a.toNat (BitVec.ofNat 32 ((t.token k.toNat).state + if (t.token k.toNat).skipped then 8 else 0))))
    ∧ (Usable g (usesS (pairRegs a.toNat) []) →
      if a.toNat % 2 = 1 then Traps s g (.kbytes k a) cIllegalOperand
      else if t.producer ≠ g.grp then Traps s g (.kbytes k a) cCopyRights
      else Completes s q (.kbytes k a) (g.setPair a.toNat (BitVec.ofNat 64 (t.token k.toNat).landed)))
    ∧ (if t.producer ≠ g.grp then Traps s g (.kclr k) cCopyRights
      else if (t.token k.toNat).state = 1 then Traps s g (.kclr k) cCopyOperand
      else exec (.kclr k) s = .next ((s.putTeam { t with tokens := t.tokens.mapIdx fun i x =>
          if i = k.toNat then { x with state := 0, landed := 0, skipped := false } else x }).putGroup (g.onward s.clk q)))

/-- In the producer, with a card that passes its check phase and the checks of R179, a token that is not BUSY, a
completion area that can be written, no code to write, and nothing of the group's left to perform at the job's scope,
CPY gives the token to a new queued job of the card and goes on after the check phase; KREPLAY of a PARTIAL token does
so for the card the token records. With stores or accesses of the group left, CPY first releases what the group stored
at the job's scope: until all of it is performed the group waits and issues CPY again, and then the job is made. A
STALE register is translated afresh, and CPY acts as with the register then. A card in host memory is a device access
to its page, and while a page of the completion area moves the instruction issues again 4 clk later, the model's
choice. Elsewhere they trap COPY_RIGHTS, and with a bad card or token COPY_OPERAND.
Where the model chooses or infers: log entries 15 (DESIGN CHOICE), 19 (DEDUCED), 25 (DEDUCED), 34 (DEDUCED), 38
(DEDUCED), 87 (DESIGN CHOICE). -/
def Obligations.CopyInstructions : Prop :=
  (∀ (s : State) (q : Issue) (g : Group) (t : Team) (k b : BitVec 3) (a : BitVec 6) (n : BitVec 4) (v : BitVec 1) (loc : PAddr) (va : Nat) (c : List Nat),
      Issues s q g → s.team? g.tid = some t → (∀ x ∈ s.stores, x.gid ≠ g.gid) → g.acc = [] →
    let h : State := if loc.sp = .host then s.migTouch g.ctx va else s
    c = h.readCard g loc →
    let sound := cardOk c = true ∧ h.mcastOk t c = true ∧ h.keyOk g.ctx c = true
    let moves := h.movingIn g.ctx (cardCmpl c) (cardArea c)
    let bad : Prop := ¬sound ∨ (moves = false ∧ h.areaAbroad g c = true)
    let good : Prop := sound ∧ moves = false ∧ h.areaAbroad g c = false ∧ h.codeFails g c = []
    let again : Answer := .next (h.putGroup { g with readyAt := h.clk + 4 })
    let made : Option Nat → Token → Job := fun guard tok =>
      { h.makeJob g t k.toNat guard c h.nextId with jid := h.nextId, tok := k.toNat, skipped := tok.skipped }
    (Usable g (usesS [] [a.toNat]) → (g.sreg a.toNat).msb = true → b = 0 →
      if t.producer ≠ g.grp then Traps s g (.cpy k b a n v) cCopyRights
      else s.cardInWindow g ((g.sreg a.toNat).toNat % 2 ^ 31) = .ok loc va →
        (bad ∨ (t.token k.toNat).state = 1 → exec (.cpy k b a n v) s = .next (h.trap g cCopyOperand))
        ∧ (sound → (t.token k.toNat).state ≠ 1 → moves = true → exec (.cpy k b a n v) s = again)
        ∧ (good → (t.token k.toNat).state ≠ 1 → h.areaFails g c = [] →
          exec (.cpy k b a n v) s = .next ((({ h with nextId := h.nextId + 1 } : State).enqueueJob t
              (made (if v = 1 then some n.toNat else none) { t.token k.toNat with skipped := false })
              { state := 1, landed := 0, skipped := false, cardLoc := va, cardSpad := true, card := c, job := h.nextId }).putGroup
            { g.stamp s.clk q.sc with wait := .check (s.clk + 4) q.len [] })))
    ∧ (Usable g (usesS [] [a.toNat]) → (g.sreg a.toNat).msb = true → b ≠ 0 → Traps s g (.cpy k b a n v) cIllegalOperand)
    ∧ (Usable g (usesS [] [a.toNat]) → (g.sreg a.toNat).msb = false → (g.breg b.toNat).state = .invalid →
        Traps s g (.cpy k b a n v) cIllegalOperand)
    ∧ (Usable g (usesS [] [a.toNat]) → (g.sreg a.toNat).msb = false → (g.breg b.toNat).state = .valid → t.producer = g.grp →
        s.cardInMemory g (g.breg b.toNat) (g.sreg a.toNat).toNat = .ok loc va →
        (bad ∨ (t.token k.toNat).state = 1 → exec (.cpy k b a n v) s = .next (h.trap g cCopyOperand))
        ∧ (sound → (t.token k.toNat).state ≠ 1 → moves = true → exec (.cpy k b a n v) s = again)
        ∧ (good → (t.token k.toNat).state ≠ 1 → h.areaFails g c = [] →
          exec (.cpy k b a n v) s = .next ((({ h with nextId := h.nextId + 1 } : State).enqueueJob t
              (made (if v = 1 then some n.toNat else none) { t.token k.toNat with skipped := false })
              { state := 1, landed := 0, skipped := false, cardLoc := va, cardSpad := false, card := c, job := h.nextId }).putGroup
            { g.stamp s.clk q.sc with wait := .check (s.clk + 4) q.len [] })))
    ∧ (if t.producer ≠ g.grp then Traps s g (.kreplay k) cCopyRights
      else if (t.token k.toNat).state ≠ 3 then Traps s g (.kreplay k) cCopyOperand
      else (if (t.token k.toNat).cardSpad then s.cardInWindow g (t.token k.toNat).cardLoc
          else s.cardInMemory g (plainReg (t.token k.toNat).cardLoc) 0) = .ok loc va →
        (bad ∨ (t.token k.toNat).card ≠ c → exec (.kreplay k) s = .next (h.trap g cCopyOperand))
        ∧ (sound → (t.token k.toNat).card = c → moves = true → exec (.kreplay k) s = again)
        ∧ (∀ o, good → (t.token k.toNat).card = c → h.job? (t.token k.toNat).job = some o →
          exec (.kreplay k) s = .next ((({ h with nextId := h.nextId + 1 } : State).enqueueJob t
              { made none (t.token k.toNat) with fmt := o.fmt, replay := true, wrote := o.wrote, landedBefore :=
                  (List.range (cardSectors c)).filter fun x => !o.missingSectors.contains x }
              { t.token k.toNat with state := 1, job := h.nextId }).putGroup
            { g.stamp s.clk q.sc with wait := .check (s.clk + 4) q.len [] }))))
  ∧ (∀ (s : State) (q : Issue) (g : Group) (t : Team) (k b : BitVec 3) (a : BitVec 6) (n : BitVec 4) (v : BitVec 1) (loc : PAddr) (va : Nat) (c : List Nat),
      Issues s q g → s.team? g.tid = some t → t.producer = g.grp → Usable g (usesS [] [a.toNat]) →
      (if (g.sreg a.toNat).msb = true then b = 0 ∧ s.cardInWindow g ((g.sreg a.toNat).toNat % 2 ^ 31) = .ok loc va
        else (g.breg b.toNat).state = .valid ∧ s.cardInMemory g (g.breg b.toNat) (g.sreg a.toNat).toNat = .ok loc va) →
      g.accessBefore s.nextId loc 64 = false →
    let h : State := if loc.sp = .host then s.migTouch g.ctx va else s
    c = h.readCard g loc → cardOk c = true → h.mcastOk t c = true → h.keyOk g.ctx c = true → (t.token k.toNat).state ≠ 1 →
    h.movingIn g.ctx (cardCmpl c) (cardArea c) = false → h.areaAbroad g c = false → h.areaFails g c = [] → h.codeFails g c = [] →
    let u := h.release g.gid h.nextId (jobScope c)
    let r := (u.group? g.gid).getD g
    (u.performedAt g.gid u.nextId (jobScope c) = false →
      exec (.cpy k b a n v) s = .next (u.putGroup { r with wait := .retry (jobScope c) }))
    ∧ (∀ t', u.performedAt g.gid u.nextId (jobScope c) = true → u.team? g.tid = some t' →
      exec (.cpy k b a n v) s = .next ((({ u with nextId := u.nextId + 1 } : State).enqueueJob t'
          (u.makeJob r t' k.toNat (if v = 1 then some n.toNat else none) c u.nextId)
          { state := 1, landed := 0, skipped := false, cardLoc := va, cardSpad := (g.sreg a.toNat).msb, card := c, job := u.nextId }).putGroup
        { r.stamp u.clk q.sc with wait := .check (u.clk + 4) q.len [] })))
  ∧ ∀ (s : State) (q : Issue) (g : Group) (k b : BitVec 3) (a : BitVec 6) (n : BitVec 4) (v : BitVec 1), Issues s q g → (g.sreg a.toNat).msb = false →
      (g.breg b.toNat).state = .stale →
    exec (.cpy k b a n v) s = exec (.cpy k b a n v) (s.putGroup { g with b := g.b.set b.toNat (s.fill g.ctx (g.breg b.toNat).base.toNat) })

/-- With every lane in exec inside a region that the group's team declares, PLD puts one access of those lanes on the
scratchpad counter; PST, in the region's step group, also one plane write per lane into the group's buffer and counts
in the current step; PSTEP, with nothing of the group's left to perform, arrives in its clk and waits; PQRY writes
each lane's next value and its C and W, two beats later. A region that is not declared, and PST or PSTEP outside the
step group, trap ILLEGAL_OPERAND.
Where the model chooses or infers: log entry 28 (DEDUCED). -/
def Obligations.PlaneInstructions : Prop :=
  ∀ (s : State) (q : Issue) (g : Group) (p : BitVec 3) (v o : BitVec 7) (r : Plane), Issues s q g →
    (∀ x ∈ s.stores, x.gid ≠ g.gid) → g.acc = [] →
    (Usable g (usesV [v.toNat] [o.toNat]) →
      (s.region g p.toNat = none → Traps s g (.pld p v o) cIllegalOperand)
      ∧ (s.region g p.toNat = some r → (∀ l ∈ lanesOf g.exec, (g.vlane o.toNat l).toNat < r.size) →
        ∃ t, exec (.pld p v o) s = .next t ∧ t.stores = s.stores
          ∧ Entered s t q g { Access.make s.nextId g 2 (if g.exec = 0 then .nothing else .pld) s.clk with
              dst := v.toNat, width := 4, op := p.toNat, lanes := (lanesOf g.exec).map fun l =>
                { lane := l, loc := ⟨.plane g.tid r.id, 4 * (g.vlane o.toNat l).toNat⟩, va := (g.vlane o.toNat l).toNat, x := 0, y := 0, finished := false, poisoned := false,
                  lost := none, stale := false } } true))
    ∧ (Usable g (usesV [] [v.toNat, o.toNat]) →
      (s.region g p.toNat = none → Traps s g (.pst p v o) cIllegalOperand)
      ∧ (s.region g p.toNat = some r → r.members.testBit g.grp = false → Traps s g (.pst p v o) cIllegalOperand)
      ∧ (s.region g p.toNat = some r → r.members.testBit g.grp = true → (∀ l ∈ lanesOf g.exec, (g.vlane o.toNat l).toNat < r.size) →
        ∃ t h x, exec (.pst p v o) s = .next t ∧ t.group? g.gid = some h ∧ h.acc = [x] ∧ x.path = 2 ∧ x.id = s.nextId
          ∧ h.pstCount p.toNat = g.pstCount p.toNat + 1 ∧ h.pc = (g.onward s.clk q).pc ∧ OnlyAccess s t g.gid ∧ SameBytes s t
          ∧ Buffered s t g x none ((lanesOf g.exec).map fun l =>
              (l, .plane g.tid p.toNat (g.vlane o.toNat l).toNat l (g.pstCount p.toNat), leBytes 4 (g.vlane v.toNat l).toNat))))
    ∧ (s.region g p.toNat = none → Traps s g (.pstep p) cIllegalOperand)
    ∧ (s.region g p.toNat = some r → r.members.testBit g.grp = false → Traps s g (.pstep p) cIllegalOperand)
    ∧ (s.region g p.toNat = some r → r.members.testBit g.grp = true → s.awake? g.gid = some g →
      Waits s q (.pstep p) g (.pstep p.toNat (some s.clk)))
    ∧ (Usable g { vN := [v.toNat, v.toNat + 1, o.toNat], sN := [], vR := [o.toNat], sR := [] } →
      (s.region g p.toNat = none → Traps s g (.pqry p v o) cIllegalOperand)
      ∧ (s.region g p.toNat = some r → (∀ l ∈ lanesOf g.exec, (g.vlane o.toNat l).toNat < r.size) →
        Completes s q (.pqry p v o) ((g.writeLanes s.clk 2 v.toNat g.exec (vmk fun l => (r.query (g.vlane o.toNat l).toNat).1)).writeLanes s.clk 2
          (v.toNat + 1) g.exec (vmk fun l => (r.query (g.vlane o.toNat l).toNat).2))))

/-- MFMT takes the fmt of a group of the team and traps ILLEGAL_OPERAND for a number of TSIZE or above; MLOOP pushes its
loop, or skips its body for a count of 0, and stops on an end before the body or a fifth entry; MEND ends the stream;
MNOP goes on; MZERO clears its tile and retires in the clk after it issues, or after the last of the stream's earlier
MMAs and MZEROs to that tile retires, whichever is later; MWAITB goes on when the barrier has opened since the
stream's last wait and otherwise waits, ending the stream when no group of the team is left to open it; MSIGB opens
the barrier. A stop writes the stream fault record and ends the stream's issue.
Where the model chooses or infers: log entries 33 (DESIGN CHOICE), 129 (DEDUCED). -/
def Obligations.StreamWords : Prop :=
  ∀ (s : State) (q : Issue) (t : Team) (m : Stream) (n : BitVec 8) (b : BitVec 4) (c : BitVec 8) (e : BitVec 12) (x : Group),
      StreamIssues s q t m →
    let put : Team → Stream → Answer := fun u k => .next (s.putTeam { u with stream := some (k.stamp s.clk false) })
    let stops : Instr → Nat → Prop := fun i cause => exec i s = .next (s.stopStream t m cause 0xFF (s.streamWord t m))
    let stop : Word := m.pc + 4 * e.zeroExtend 32
    (if t.tsize ≤ n.toNat then stops (.mfmt n) cIllegalOperand
      else s.teamGroup t.tid n.toNat = some x → exec (.mfmt n) s = put t { m.advance with fmt := x.fmt })
    ∧ (if stop.toNat < (m.pc + 4).toNat then stops (.mloop c e) cIllegalOperand
      else if c = 0 then exec (.mloop c e) s = put t { m with pc := stop + 4 }
      else if 4 ≤ m.loops.length then stops (.mloop c e) cLoopOverflow
      else exec (.mloop c e) s = put t { m with
        pc := m.pc + 4, loops := { start := m.pc + 4, stop := stop, count := c.zeroExtend 32 } :: m.loops })
    ∧ exec .mend s = put t { m with ended := true }
    ∧ exec .mnop s = put t m.advance
    ∧ (∃ due, (∀ o ∈ m.inFlight, o.tile = b.toNat → o.due + 1 ≤ due) ∧ s.clk + 1 ≤ due
      ∧ (due = s.clk + 1 ∨ ∃ o ∈ m.inFlight, o.tile = b.toNat ∧ due = o.due + 1)
      ∧ exec (.mzero b) s = put (t.setTile b.toNat (List.replicate 32 (List.replicate 32 0)))
          { m.advance with inFlight := m.inFlight ++ [{ tile := b.toNat, issued := s.clk, zero := true, due := due }] })
    ∧ ((t.bar b.toNat).seen = m.obs.getD b.toNat 0 → exec (.mwaitb b) s = put t { m with
        wait := .bar b.toNat, ended := s.groups.all fun g => g.tid != t.tid || g.ended })
    ∧ ((t.bar b.toNat).seen ≠ m.obs.getD b.toNat 0 → exec (.mwaitb b) s = put t { m.advance with
        obs := m.obs.set b.toNat (t.bar b.toNat).seen, readyAt := max m.readyAt (s.landedBy t.tid) })
    ∧ exec (.msigb b) s = .next ((s.putTeam { t with stream := some (m.advance.stamp s.clk false) }).openBarrier t.tid b.toNat)

/-- With the lease and fragments of the sides and shapes that the formats ask for, MMA adds the products of its fragments
to its tile, row by row in K-blocks, counts on the lease, and retires 16 clk after it issues, or up to 24 clk later
with a fragment on the partner core; without the lease it waits, and a pair of formats outside Table A.35 or a
fragment of another side or shape stops the stream. In a team with a stream whose tile is idle, ACCRD and ACCRDC write
a row to lanes in exec (two and three beats) and ACCWR writes the lanes in exec of a row; a busy tile makes them issue
again 4 clk later, with the first attempt kept, the model's choice, and a team without a stream traps ACC_RANGE.
Where the model chooses or infers: log entries 29 (DESIGN CHOICE), 32 (DEDUCED), 33 (DESIGN CHOICE), 87 (DESIGN
CHOICE). -/
def Obligations.MatrixWords : Prop :=
  (∀ (s : State) (q : Issue) (t : Team) (m : Stream) (d : BitVec 4) (a b : BitVec 8), StreamIssues s q t m →
    (s.takeLease t = none → exec (.mma d a b) s = .next (s.putTeam { t with stream := some { m with waiting := some (m.waiting.getD s.clk) } }))
    ∧ (∀ l, s.takeLease t = some l →
      if mmaPair (fmtAF m.fmt) (fmtBF m.fmt) = false ∨ (t.frag a.toNat).side ≠ 0 ∨ (t.frag b.toNat).side ≠ 1
          ∨ (t.frag a.toNat).shape ≠ fragShape (fmtAF m.fmt) ∨ (t.frag b.toNat).shape ≠ fragShape (fmtBF m.fmt) then
        exec (.mma d a b) s = .next (s.stopStream t m cIllegalOperand d.toNat (s.streamWord t m))
      else ∀ ga gb, s.teamGroup t.tid (t.frag a.toNat).group = some ga → s.teamGroup t.tid (t.frag b.toNat).group = some gb →
        ∃ u t' k, exec (.mma d a b) s = .next u ∧ u.team? t.tid = some t' ∧ t'.stream = some k ∧ k.pc = m.advance.pc
          ∧ (∃ o, k.inFlight = m.inFlight ++ [o] ∧ o.tile = d.toNat ∧ o.issued = s.clk ∧ s.clk + 16 ≤ o.due ∧ o.due ≤ s.clk + 40
            ∧ (coreOf ga.die ga.core = t.home → coreOf gb.die gb.core = t.home → o.due = s.clk + 16))
          ∧ t'.tiles = t.tiles.set d.toNat (mmaTile m.fmt (t.tile d.toNat)
              (fun i lane => ga.fragLane s.freeCount ((t.frag a.toNat).base + i) lane)
              (fun i lane => gb.fragLane (s.freeCount + 8192) ((t.frag b.toNat).base + i) lane))
          ∧ (u.core t.home).lease = { l with issued := l.issued + 1, lastMma := some s.clk }))
  ∧ (∀ (s : State) (q : Issue) (g : Group) (t : Team) (d : BitVec 4) (v : BitVec 7) (r : BitVec 5), Issues s q g → s.team? g.tid = some t →
    let row := (t.tile d.toNat).getD r.toNat []
    let cf := fmtCF g.fmt
    let blk : List Nat := if cf = 5 ∨ cf = 6 then [v.toNat, v.toNat + 1] else [v.toNat]
    (Usable g (usesV [v.toNat] []) →
      (s.streamOf g = none → Traps s g (.accrd d v r) cAccRange)
      ∧ (s.streamOf g ≠ none → s.tileBusy g d.toNat = true → exec (.accrd d v r) s = .next (s.putGroup
          { g with tried := some (g.tried.getD s.clk), readyAt := s.clk + 4 }))
      ∧ (s.streamOf g ≠ none → s.tileBusy g d.toNat = false → exec (.accrd d v r) s = .next ((s.putTeam t).putGroup
          ((g.writeV s.clk 2 v.toNat row).onward s.clk q))))
    ∧ (Usable g (usesV [] [v.toNat]) →
      (s.streamOf g = none → Traps s g (.accwr d v r) cAccRange)
      ∧ (s.streamOf g ≠ none → s.tileBusy g d.toNat = true → exec (.accwr d v r) s = .next (s.putGroup
          { g with tried := some (g.tried.getD s.clk), readyAt := s.clk + 4 }))
      ∧ (s.streamOf g ≠ none → s.tileBusy g d.toNat = false → exec (.accwr d v r) s = .next ((s.putTeam
          { t with tiles := t.tiles.set d.toNat ((t.tile d.toNat).set r.toNat (vmk fun l =>
              if g.exec.getLsbD l then g.vlane v.toNat l else vget row l)) }).putGroup (g.onward s.clk q))))
    ∧ (Usable g (usesV blk []) →
      (cf = 0 ∨ 8 ≤ cf → Traps s g (.accrdc d v r) cIllegalOperand)
      ∧ (cf = 5 ∨ cf = 6 → blockAny (cf == 5) g.exec 0 = true → blockAll (cf == 5) g.exec 0 = false →
          Traps s g (.accrdc d v r) cIllegalOperand)
      ∧ (0 < cf → cf < 8 → (cf = 5 ∨ cf = 6 → blockAny (cf == 5) g.exec 0 = true → blockAll (cf == 5) g.exec 0 = true) →
        (s.streamOf g = none → Traps s g (.accrdc d v r) cAccRange)
        ∧ (s.streamOf g ≠ none → s.tileBusy g d.toNat = true → exec (.accrdc d v r) s = .next (s.putGroup
            { g with tried := some (g.tried.getD s.clk), readyAt := s.clk + 4 }))
        ∧ (s.streamOf g ≠ none → s.tileBusy g d.toNat = false →
          let sd := if g.exec = 0 then g.seed else advanceSeed g.seed
          exec (.accrdc d v r) s = .next ((s.putTeam t).putGroup
            (({ g with seed := sd }.writeVs s.clk 3 v.toNat (accResult cf g.fmt sd row)).onward s.clk q))))))

/-- PERFORM widens the reach of a store that program order, JOIN and its release allow; READ of a lane of a load takes the
bytes that the group may read into its registers, and a tag function that a JOIN has held back acts on the table;
ATOMIC reads, computes and writes the word of a lane; FILL puts the last stores of a block without poison into an L1
line and EVICT drops it; a watch of SPOLLNE returns the word it has taken, or the word at its home once that has
changed and is not older than what its group has read or stored, when no earlier access of the group to the word is
left to read or update it; it ends with the word read then, and on a host or peer page takes a changed word at a
reread; the end of a check phase translates the lanes again whose page was shot down meanwhile, and advances the group
or fails its lanes; a translation register is filled; a line joins an instruction cache, and one of host memory
touches its page; due results land.
Where the model chooses or infers: log entries 14 (DESIGN CHOICE), 18 (DEDUCED), 23 (DESIGN CHOICE), 72 (DEDUCED). -/
def Obligations.OrderingSteps : Prop :=
  (∀ (s : State) (x : Store), s.stores.find? (fun y => y.sid == s.arg.a) = some x → s.mayPerform x = true →
    Steps .perform s ((s.performOne x).follow x.gid))
  ∧ (∀ (s : State) (g : Group) (a : Access) (l : LaneReq), s.access? s.arg.a = some (g, a) → a.lanes.find? (fun y => y.lane == s.arg.b) = some l → s.arg.flag2 = false → s.arg.c = 0 →
    l.finished = false → s.joinClear g.gid a.epoch = true → s.laneAway g.ctx l = false →
    (a.kind = .tag → l.y = 0 → Steps .read s (s.takeRead g a l [l.x] []))
    ∧ (a.kind = .tag → l.y ≠ 0 → g.tagHeld a.id = false → ∀ t, s.team? g.tid = some t →
      let go := t.tagLanes a.op a.lanes
      Steps .read s ((s.putTeam go.1).putGroup (g.putAcc { a with lanes := go.2 })))
    ∧ (a.kind = .pld → (∀ y ∈ a.lanes, g.accessBefore a.id y.loc 4 = false) → Steps .read s (s.readPlane g a))
    ∧ (a.kind = .ld ∨ a.kind = .sld ∨ a.kind = .sld64 ∨ a.kind = .spld ∨ a.kind = .sldacq → g.accessBefore a.id l.loc a.width = false →
      (∀ c, l.loc.sp = .kick c → ∀ line, s.loadLane g a l line = some ((s.refusedBytes c l.loc.a a.width).map fun b => (0, b)))
      ∧ ((∀ c, l.loc.sp ≠ .port c) → Steps .read s
        (match s.loadLane g a l (s.arg.flag && a.mayUseLine) with
         | none => s.poisonRead g a l
         | some bs => s.takeRead g a l (loadWords a.width a.sx (bs.map Prod.snd)) bs)))
    ∧ (a.kind = .spollne → l.y ≠ 0 → Steps .read s (s.takeRead g a l [l.x] []))
    ∧ (a.kind = .spollne → s.mayWatch g a l = true → l.loc.sp = .dev → s.anyPoison l.loc 4 = false →
      ∀ bs, s.watchBytes g a l = some bs →
      let w := (loadWords 4 false (bs.map Prod.snd)).getD 0 0
      Steps .read s (if w = a.cmp then s else s.takeRead g a l [w] bs)))
  ∧ (∀ (s : State) (g : Group) (a : Access) (l : LaneReq), s.access? s.arg.a = some (g, a) → a.lanes.find? (fun y => y.lane == s.arg.b) = some l → a.pendingAtomic = true → s.mayAtomic g a l = true →
    Steps .atomic s (if s.anyPoison l.loc 4 && !s.poisonPolicy g.ctx l.va l.loc then s.endContext g.ctx 0x24 0
      else (s.atomicLane g a l).follow g.gid))
  ∧ (∀ s : State, cached s.arg.loc.sp = true → s.enabled s.arg.a = true → s.anyPoison (blockOf s.arg.loc) 16 = false → ∃ (t : State) (b : L1Block), Steps .fill s t
    ∧ t = { s with opStep := s.opStep + 1, l1 := t.l1 }
    ∧ t.l1 = s.l1.filter (fun y => !(y.core == s.arg.a && decide (y.loc = blockOf s.arg.loc))) ++ [b]
    ∧ b.core = s.arg.a ∧ b.loc = blockOf s.arg.loc
    ∧ b.bytes = (List.range 16).map fun i =>
        (s.seen 0 (s.arg.a % 40 / 4) (dieOfCore s.arg.a) 0 ((blockOf s.arg.loc).plus i)).2)
  ∧ (∀ s : State, s.l1.any (fun y => y.core == s.arg.a && decide (y.loc = blockOf s.arg.loc)) = true →
    ∃ t : State, Steps .evict s t ∧ t = { s with opStep := s.opStep + 1, l1 := t.l1 }
    ∧ ∀ y, y ∈ t.l1 ↔ y ∈ s.l1 ∧ ¬(y.core = s.arg.a ∧ y.loc = blockOf s.arg.loc))
  ∧ (∀ (s : State) (g : Group) (a : Access) (l : LaneReq), s.access? s.arg.a = some (g, a) → ∀ rest, a.lanes = l :: rest → a.kind = .spollne →
    l.finished = false → l.y = 0 → (a.issued + 1880 ≤ s.clk ∨ ∃ t, s.team? g.tid = some t ∧ t.state = .stopping) →
    s.joinClear g.gid a.epoch = true → g.accessBefore a.id l.loc a.width = false → s.laneAway g.ctx l = false →
    Steps .spollneWindowEnd s (match s.loadLane g a l false with
      | none => s.poisonRead g a l
      | some bs => s.takeRead g a l (loadWords 4 false (bs.map Prod.snd)) bs))
  ∧ (∀ (s : State) (g : Group) (a : Access) (l : LaneReq), s.access? s.arg.a = some (g, a) → ∀ rest, a.lanes = l :: rest → s.mayWatch g a l = true →
    l.loc.sp ≠ .dev → (s.clk - a.issued) % 256 = 0 → s.laneAway g.ctx l = false →
    Steps .spollneReread s (match s.loadLane g a l false with
      | none => s.poisonRead g a l
      | some bs => if (loadWords 4 false (bs.map Prod.snd)).getD 0 0 = a.cmp then s else s.putGroup (s.capture g a bs)))
  ∧ (∀ (s : State) (g : Group) (due len : Nat) (fails : List LaneFail), s.group? s.arg.a = some g →
    g.wait = .check due len fails → due ≤ s.clk →
    (∀ x, s.retranslate g = some x →
      let k := (x.1.group? g.gid).getD g
      Steps .checkPhaseEnd s ((if fails ++ x.2 = [] then x.1.putGroup (k.advance len)
        else x.1.failLanes { k with wait := .none } (fails ++ x.2)).follow g.gid))
    ∧ ((∀ a, g.checked = some a → ∀ l ∈ a.lanes, l.stale = false) → s.retranslate g = some (s, [])))
  ∧ (∀ (s : State) (g : Group) (a : Access), s.access? s.arg.a = some (g, a) → a.kind = .xlate → a.returned = false →
    (g.breg a.dst2).state = .filling →
    (∀ y ∈ g.acc, y.kind = .xlate → y.dst2 = a.dst2 → a.id < y.id → y.returned = true) →
    s.translate g.ctx (g.breg a.dst2).base.toNat ≠ .moving →
    Steps .xlateFillEnd s ((s.putGroup { g.putAcc { a with returned := true } with
      b := g.b.set a.dst2 (s.fill g.ctx (g.breg a.dst2).base.toNat) }).follow g.gid))
  ∧ (∀ s : State, s.arg.b ∉ (s.core s.arg.a).icache → ∃ t : State, Steps .icacheFill s t
    ∧ t = ({ s with cores := t.cores } : State).migTouch s.arg.c s.arg.d ∧ s.arg.b ∈ (t.core s.arg.a).icache
    ∧ ∀ y ∈ (t.core s.arg.a).icache, y = s.arg.b ∨ y ∈ (s.core s.arg.a).icache)
  ∧ (∀ (s : State) (g : Group), s.group? s.arg.a = some g → g.landing.any (fun w => decide (w.due ≤ s.clk)) = true →
    Steps .writeLands s (s.putGroup (g.landDue s.clk)))

/-- A word that decodes to no instruction traps ILLEGAL_INSTRUCTION, or MATRIX_STREAM when it is a word of the other
stream; the waits of DLY and YIELD end; a released group advances with its acquire when its wave is due; a complete
barrier opens, and its opening reaches the groups of each core when it is due; a group at END with nothing outstanding
ends; a die whose groups all wait forwards its arrival at a grid barrier and the package releases it; a plane step
swaps in the clk after every live member's arrival has reached the home core, and a collision cancels it; the oldest
due product retires; a lease that is over with no other team waiting renews; the oldest due entry of a link becomes
poppable; a pop takes the head of its queue.
Where the model chooses or infers: log entries 53 (DEDUCED), 107 (DEDUCED), 127 (DESIGN CHOICE), 129 (DEDUCED). -/
def Obligations.GroupSteps : Prop :=
  (∀ (s : State) (q : Issue) (g : Group) (bs : List Byte), Issues s q g → s.groupBytes g g.pc = .ok bs →
    Steps .illegalInstruction s (s.trap g
      (if leNat bs % 2 == 1 && fld (leNat bs) 3 5 == 0x1C then cMatrixStream else cIllegalInstruction)))
  ∧ (∀ (s : State) (q : Issue) (t : Team) (m : Stream), StreamIssues s q t m → Steps .illegalInstruction s (s.stopStream t m
      (if s.streamWord t m % 2 == 1 && fld (s.streamWord t m) 3 5 == 0x1C then cIllegalInstruction else cMatrixStream)
      0xFF (s.streamWord t m)))
  ∧ (∀ (s : State) (g : Group) (t : Nat), s.awake? s.arg.a = some g → g.wait = .dly t → t ≤ s.clk →
    (∀ x, s.team? g.tid = some x → x.state = .running) →
    Steps .dlyEnd s (s.putGroup { g with wait := .none }))
  ∧ (∀ (s : State) (g : Group) (t : Nat), s.awake? s.arg.a = some g → g.wait = .yield t → t + 32 ≤ s.clk →
    Steps .yieldEnd s (s.putGroup { g with wait := .none }))
  ∧ (∀ (s : State) (g : Group) (due scope : Nat), s.awake? s.arg.a = some g → g.wait = .wave due scope → due ≤ s.clk →
    Steps .barrierWave s (s.putGroup ((s.acquired g scope).advance 4)))
  ∧ (∀ (s : State) (t : Team), s.awakeTeam? s.arg.a = some t → 
    (s.barrierReady t s.arg.b = true → Steps .barrierOpen s (s.openBarrier t.tid s.arg.b))
    ∧ (∀ o, s.barrierReady t s.arg.b = false → (t.bar s.arg.b).opens.find? (fun o => decide (o.due ≤ s.clk)) = some o →
      Steps .barrierOpen s (s.showOpening t s.arg.b o)))
  ∧ (∀ (s : State) (g : Group), s.awake? s.arg.a = some g → g.wait = .endDrain → g.acc = [] → 
    (∀ p r, g.poison = p :: r → Steps .groupEnd s (s.poisonTrap { g with wait := .none } p))
    ∧ (∀ p r, g.poison = [] → g.pend = p :: r → Steps .groupEnd s (s.takePend { g with wait := .none } p))
    ∧ (g.poison = [] → g.pend = [] → Steps .groupEnd s (s.endGroup g)))
  ∧ (∀ (s : State) (l : Launch), s.launch? s.arg.a = some l → l.gbar = true → s.arg.c < 4 →
    s.arg.b ∉ l.gbDies.getD s.arg.c [] → s.dieTeams l.lid s.arg.b ≠ [] →
    (∀ t ∈ s.dieTeams l.lid s.arg.b, s.teamAtGbar t s.arg.c = true) →
    Steps .gbarDieArrival s (s.putLaunch
      { l with gbDies := l.gbDies.set s.arg.c (l.gbDies.getD s.arg.c [] ++ [s.arg.b]) }))
  ∧ (∀ (s : State) (l : Launch), s.launch? s.arg.a = some l → l.gbar = true →
    let ts := s.teams.filter fun t => t.launch == l.lid && t.state != .retired
    (∃ g ∈ s.groups, g.wait = .gbar s.arg.b ∧ ∃ t ∈ ts, t.tid = g.tid) →
    (∀ t ∈ ts, t.state ≠ .saved ∧ dieOfCore t.home ∈ l.gbDies.getD s.arg.b []) →
    Steps .gbarRelease s ((s.putLaunch { l with gbDies := l.gbDies.set s.arg.b [] }).each ts
      fun u t => u.releaseWaves t 3 (s.clk + 1) fun g => g.wait == Wait.gbar s.arg.b))
  ∧ (∀ (s : State) (t : Team) (p : Plane), s.awakeTeam? s.arg.a = some t → t.plane? s.arg.b = some p →
    let ms := s.groups.filter fun g => g.tid == t.tid && p.member g && !g.ended
    ms ≠ [] →
    (∀ g ∈ ms, ∃ c, g.wait = .pstep p.id (some c) ∧ (if coreOf g.die g.core = t.home then c else c + 8) < s.clk) →
    Steps .swap s (if p.rule = 5 ∧ p.next.any (fun e => e.coll.isSome) = true then s.cancelSwap t p ms
      else s.completeSwap t p))
  ∧ (∀ (s : State) (t : Team) (m : Stream) (o : MmaOp), s.team? s.arg.a = some t → t.stream = some m →
    m.inFlight.find? (fun o => decide (o.due ≤ s.clk)) = some o →
    Steps .mmaRetire s (s.putStream t { m with inFlight := m.inFlight.erase o }))
  ∧ (∀ (s : State) (t : Team) (m : Stream), (s.core s.arg.a).lease.holder = some t.tid → s.leaseOver (s.core s.arg.a).lease = true →
    s.leaseQueue (s.core s.arg.a).core (some t.tid) = [] → s.team? t.tid = some t → t.stream = some m → m.ended = false →
    m.stopped = none → Steps .leaseEnd s (s.putCore { s.core s.arg.a with
      lease := { (s.core s.arg.a).lease with issued := 0, began := s.clk, quantum := s.quantum t.ctx } }))
  ∧ (∀ (s : State) (x : Nat × Stream) (r : List (Nat × Stream)), let c := s.core s.arg.a
    c.lease.holder ≠ none → s.leaseOver c.lease = true → s.leaseQueue c.core c.lease.holder = x :: r →
    let w := r.foldl (fun (m y : Nat × Stream) => if leaseBefore y.2 m.2 then y else m) x
    ∃ t : State, Steps .leaseEnd s t
      ∧ t.cores = (s.putCore { c with lease := ⟨some w.1, 0, s.clk, ((s.team? w.1).map fun t => s.quantum t.ctx).getD 4096,
          c.lease.lastMma, (c.lease.lastMma.map (· + 32)).getD s.clk⟩ }).cores
      ∧ t.teams = s.teams.map fun y => if y.home == c.core && y.tid != w.1 then
          { y with stream := y.stream.map fun m => if m.waiting.isSome then { m with passed := m.passed + 1 } else m } else y)
  ∧ (∀ (s : State) (c : Chain) (i : Nat), s.chain? s.arg.a = some c →
    let l := c.link s.arg.b
    l.entries.findIdx? (fun e => decide (e.readyAt ≠ 0) && decide (e.readyAt ≤ s.clk)) = some i →
    ∃ l', Steps .linkEntryReady s (s.putChain (c.setLink s.arg.b l')) ∧ l' = { l with entries := l'.entries }
      ∧ l'.entries.length = l.entries.length
      ∧ ∀ j e, l.entries[j]? = some e → l'.entries[j]? = some (if j = i then { e with readyAt := 0 } else e))
  ∧ (∀ (s : State) (g : Group) (a : Access), s.access? s.arg.a = some (g, a) → a.returned = false → g.popBefore a = false →
    s.joinClear g.gid a.epoch = true → a.kind = .qget ∨ a.kind = .qtry ∨ a.kind = .qtryp →
    (a.bind.kind = .batch → Steps .pop s (s.popBatch g a))
    ∧ (a.bind.kind = .chain → ∀ u, s.popLink g a = some u → Steps .pop s u)
    ∧ (a.bind.kind = .msg ∨ a.bind.kind = .stream → ∀ u, s.popQueue g a = some u → Steps .pop s u))
  ∧ (∀ (s : State) (g : Group) (a : Access) (q : Queue) (e : QEntry) (r : List QEntry), s.access? s.arg.a = some (g, a) →
    a.returned = false → s.joinClear g.gid a.epoch = true → a.bind.kind = .msg ∨ a.bind.kind = .stream →
    s.queueOf a.bind.handle = some q → q.entries = e :: r → q.paused = false → s.firstPop q = some a.id →
    let tents := if s.popFinal g a then q.tents else q.tents ++ [{ tid := g.tid, turn := a.turn, entry := e }]
    (a.kind = .qtryp → Steps .pop s (s.endPop g a e.regs 1))
    ∧ (a.kind = .qget ∨ a.kind = .qtry → Steps .pop s
        ((s.putQueue { q with entries := r, tents := tents }).endPop g a e.regs 1)))

/-- A job whose order unit holds no earlier job that its footprints meet starts; a running job reads a run, padding as
zeros, and keeps its converted bytes; it writes the run to its targets; and with every run done it ends in its state.
Where the model chooses or infers: log entries 19 (DEDUCED), 35 (DEDUCED), 36 (DEDUCED), 37 (DEDUCED), 38 (DEDUCED),
39 (DEDUCED), 91 (DEDUCED), 120 (DEDUCED). -/
def Obligations.JobSteps : Prop :=
  (∀ (s : State) (j : Job), s.job? s.arg.a = some j → j.state = .waiting →
    (∀ k ∈ (s.core j.core).order.takeWhile (· ≠ j.jid), ∀ x, s.job? k = some x → j.after x = false) → s.startMoves j = false →
    let iv := match s.readVa j.ctx (cardCmpl j.card + 0x10) 12 with
      | .ok b => b
      | .error _ => []
    Steps .jobStart s (s.putJob { j with
      state := .running, iv := iv, failed := j.failed || decide (cardCrypt j.card ≠ 0 ∧ iv = []) || s.intakeAbroad j }))
  ∧ (∀ (s : State) (j : Job), s.job? s.arg.a = some j → j.state = .running → j.failed = false → j.needs s.arg.b = true →
    s.arg.b ∉ j.runsRead →
    ((runOffsets (cardLoops j.card) s.arg.b).2.2 = true → Steps .jobRead s
      (s.putJob (j.take s.arg.b (List.replicate (cardRun j.card) 0) fun _ => false)))
    ∧ ((runOffsets (cardLoops j.card) s.arg.b).2.2 = false →
      (∀ ps, s.srcSpan j s.arg.b = .ok ps → s.spanPoisons j.ctx ps = true → Steps .jobRead s
        (s.putJob (j.take s.arg.b (s.spanBytes ps) fun i => (s.spanBad ps).getD i false)))
      ∧ (∀ ps, s.srcSpan j s.arg.b = .ok ps → s.spanPoisons j.ctx ps = false → Steps .jobRead s
        ((s.finishJob { j with failed := true } 4).endContext j.ctx 0x24 0))
      ∧ (∀ vas, s.srcSpan j s.arg.b = .wrong vas → Steps .jobRead s ((s.jobFaults j 5 vas).putJob (j.failRun s.arg.b vas)))
      ∧ (∀ vas, s.srcSpan j s.arg.b = .fault vas → Steps .jobRead s ((s.jobFaults j 5 vas).putJob (j.faultRun s.arg.b vas)))))
  ∧ (∀ (s : State) (j : Job) (b : Nat × List Byte × List Nat), s.job? s.arg.a = some j → j.state = .running →
    s.arg.b ∉ j.runsDone → s.arg.b ∉ j.runsFaulted → j.bufs.find? (fun y => y.1 == s.arg.b) = some b →
    Steps .jobWrite s (s.writeRun j s.arg.b b))
  ∧ (∀ (s : State) (j : Job), s.job? s.arg.a = some j → j.state = .running →
    (∀ r ∈ j.runsRead, r ∈ j.runsDone ∨ r ∈ j.runsFaulted) →
    (j.failed = true ∨ ∀ r < cardRuns j.card, j.needs r = true → r ∈ j.runsDone ∨ r ∈ j.runsFaulted) → s.endMoves j = false →
    let x := (s.jobTouches j).endCrypto j
    Steps .jobEnd s ((x.1.finishJob x.2 (if x.2.failed then 4 else if x.2.poisoned then 5
      else if x.2.missingSectors ≠ [] then 3 else 2)).wakeTeam j.tid)
    ∧ (cardCrypt j.card = 0 → x = (s.jobTouches j, j)))

/-- A launch that is open and ready takes tickets for its next team on a die, or for all of its teams when it is placed
whole: over a span of one or two dies each die takes a contiguous range, over more each takes batches of eight from
the launch's counter; its placed teams start together; an EXPERT queue that may fire, and whose PROGRAM passes the
launch's checks, launches it with a batch taken from its head, and the largest head age is kept; a complete token at
NEXT goes to its result queue; a held push or kick is performed once it is covered; a team that may retire retires and
completes grids; a request marks a unit of which no group is on a halted core, which stops when no other does, or is
refused without room to save it, and the drained unit is saved or discarded; a saved team resumes in its place; a
chain moves at an equivalence point and then runs in its new form; POLICY asks for a form.
Where the model chooses or infers: log entries 45 (DEDUCED), 46 (DEDUCED), 48 (DESIGN CHOICE), 49 (DESIGN CHOICE), 50
(DEDUCED), 51 (DESIGN CHOICE), 54 (DESIGN CHOICE), 55 (DEDUCED), 56 (DEDUCED), 57 (DESIGN CHOICE), 58 (DESIGN CHOICE),
110 (DEDUCED), 113 (DESIGN CHOICE), 114 (DESIGN CHOICE), 115 (DESIGN CHOICE), 119 (DEDUCED), 123 (DEDUCED), 130
(DEDUCED), 138 (DEDUCED), 140 (DEDUCED), 150 (DESIGN CHOICE), 159 (DESIGN CHOICE), 163 (DESIGN CHOICE), 164 (DESIGN
CHOICE). -/
def Obligations.LaunchSteps : Prop :=
  (∀ (s : State) (l0 l l' : Launch) (x : State × List Nat), s.launch? s.arg.a = some l0 → s.spanned l0 s.arg.nats = some l →
    l.open_ = true → s.launchReady l = true → s.launchPaused l = false → s.offeredAfter l = false →
    let todo := l.todo s.arg.pairs
    todo ≠ [] → s.arg.pairs.length = todo.length →
    (l.sheaf = true → ∃ c, (∀ p ∈ s.arg.pairs, p.1 / 4 = c) ∧ ∀ t ∈ s.teams, t.launch = l.lid → t.cluster = c) →
    l.claimAll (todo.zip s.arg.pairs) = some l' → s.placeAll l (todo.zip s.arg.pairs) = some x →
    Steps .ticketClaim s (((x.1.newChains l x.2).putLaunch { l' with again := l'.again.filter fun i => !todo.contains i }).takeTicket
      l.die todo.length))
  ∧ ((∀ (l : Launch) (span : List Nat), 0 < span.length → span.length ≤ 2 → (l.withSpan span).next = l.total
      ∧ (l.withSpan span).parts.map (fun p => p.die) = span
      ∧ (∀ p ∈ (l.withSpan span).parts, p.next = p.start ∧ p.start ≤ p.stop ∧ p.stop ≤ l.total)
      ∧ ∀ i < l.total, ∃ p ∈ (l.withSpan span).parts, p.start ≤ i ∧ i < p.stop)
    ∧ (∀ (l : Launch) (d : Nat), l.dealt = true → l.next ∉ l.again → d ∈ l.span → l.next < l.total →
      (∀ p ∈ l.parts, p.die = d → p.stop ≤ p.next) →
      l.claim l.next d = some { l with next := min (l.next + 8) l.total, parts := l.parts ++
        [{ die := d, start := l.next, next := l.next + 1, stop := min (l.next + 8) l.total }] })
    ∧ (∀ (l m : Launch) (i d : Nat), l.dealt = true → i ∉ l.again → l.claim i d = some m → l.nextOn d = some i))
  ∧ (∀ (s : State) (l : Launch), s.launch? s.arg.a = some l → s.launchPaused l = false →
    let ts := s.teams.filter fun t => t.launch == l.lid && t.state == .placed
    ts ≠ [] → Steps .teamStart s (s.startTeams l (ts.map Team.tid)))
  ∧ ((∀ s : State, s.queues.filter (fun q => q.die == s.arg.a && s.fires q) = [] → Steps .expertFire s s)
    ∧ ∀ (s : State) (x : Queue) (r : List Queue) (p : Rec) (l : Launch),
    s.queues.filter (fun q => q.die == s.arg.a && s.fires q) = x :: r →
    let q := r.foldl (fun (m y : Queue) => if s.firesBefore y m then y else m) x
    s.programOf q.ctx q.prog = some p → s.imageMoves p.ctx (w64 p.launchBody 0) = false →
    let n := min q.batch (q.ripe s.clk)
    s.ringMoves q q.ringHead (min q.spilled.length (n + q.cap)) = false →
    let u := (s.newId.2).newId.2
    let out := u.programLaunch p p.launchBody q.die (s.nextId + 1) (.firing q.slot s.nextId)
    (out = .ok l → ∃ t, Steps .expertFire s t ∧ t.launches = (u.takeBatch q n).2.launches ++ [l]
      ∧ t.batches = (u.takeBatch q n).2.batches ++ [{ bid := s.nextId, queue := q.slot, all := (u.takeBatch q n).1,
                                                       left := (u.takeBatch q n).1 }]
      ∧ t.queues = (u.takeBatch q n).2.queues)
    ∧ (q.spilled = [] → n ≤ q.entries.length → u.takeBatch q n
        = ((q.entries.take n).map QEntry.words, u.putQueue { q with entries := q.entries.drop n })))
  ∧ (∀ (s : State) (q : Queue), s.queue? s.arg.a = some q → q.kind = .expert → q.entries ≠ [] →
    let age := s.headAge q / ageUnit
    q.ageT ≤ age → (s.record q.slot).maxAge < age →
    Steps .expertAgeLimit s (s.setRecord { s.record q.slot with maxAge := age }))
  ∧ ((∀ (s u : State) (q : Queue), s.queue? s.arg.a = some q → s.takeWaiting q = some u → Steps .reorderRelease s u)
    ∧ ∀ (s : State) (q : Queue) (x : RSeq) (u : State) (t : RToken), s.queue? s.arg.a = some q → q.kind = .reorder →
    s.takeWaiting q = none → s.seqMoves q s.arg.b = false → (∃ y ∈ q.rtoks, y.seq = s.arg.b) → s.seqOf q s.arg.b = (x, u) → q.token? x.seq x.next = some t → t.complete = true →
    (u.queues.find? (fun m => m.handle == x.handle && m.kind == .msg && m.n2 == 0) = none →
      Steps .reorderRelease s ((u.refusePush q.slot 1).advanceSeq q x))
    ∧ (∀ m, u.queues.find? (fun m => m.handle == x.handle && m.kind == .msg && m.n2 == 0) = some m →
      (m.closed = true → Steps .reorderRelease s ((u.refusePush m.slot 1).advanceSeq q x))
      ∧ (m.closed = false → m.entries.length < m.cap →
        Steps .reorderRelease s ((u.enqueue m [t.entry] []).advanceSeq q x))))
  ∧ (∀ (s : State) (t : Team) (e : HeldEntry) (r : List HeldEntry) (turn id : Nat), s.awakeTeam? s.arg.a = some t → t.held = e :: r →
    t.covering e = some (turn, id) → turn / 8 < s.clk → (s.beforeRelease t e id).2 = true →
    let u := (s.beforeRelease t e id).1
    (∀ handle kind lanes regs v, e.what = .push handle kind lanes regs →
      u.releasePush t e turn handle kind lanes regs = some v → Steps .heldEntryRelease s (v.wakeTeam t.tid))
    ∧ (∀ ks nest, e.what = .kick ks nest → (∀ k ∈ ks, u.kickWaits t k = false) → (u.kicks t nest ks).2 = none →
      Steps .heldEntryRelease s (((u.kicks t nest ks).1.dropHeld t.tid e.id).wakeTeam t.tid))
    ∧ (∀ ks nest c, e.what = .kick ks nest → (∀ k ∈ ks, u.kickWaits t k = false) → (u.kicks t nest ks).2 = some c →
      Steps .heldEntryRelease s ((((u.kicks t nest ks).1.pendTo t e.gid turn
        { code := c, emask := e.exec, frec := 0, recs := [], perLane := false }).stopRelease t e.id turn).wakeTeam t.tid)))
  ∧ (∀ (s : State) (t : Team), s.team? s.arg.a = some t → s.mayRetire t = true → Steps .teamRetire s
    (State.completeGrids State.relaunch ((s.retireTeam t).launches.length + 1) (s.retireTeam t)))
  ∧ ((∀ (s : State) (t : Team), s.team? s.arg.a = some t → t.state = .running → t.stop ≠ .asked → s.unitHalted t = false →
      Steps .preempt s { s with
        teams := s.teams.map fun x => if ((s.unitOf t).map Team.tid).contains x.tid then { x with stop := .asked } else x })
    ∧ ∀ (s : State) (t : Team), (∀ x ∈ s.unitOf t, x.state = .running) →
    let ids := (s.unitOf t).map Team.tid
    let need := sumNat ((s.unitOf t).map s.saveBytes)
    let left := match s.ctx? t.ctx with
      | some c => c.saveLeft
      | none => 0
    let u := s.beginStop t
    (t.committed = true ∧ left < need → u = ({ s with
        teams := s.teams.map fun x => if ids.contains x.tid then { x with stop := .refused } else x } : State).emit (.refused t.tid))
    ∧ (¬(t.committed = true ∧ left < need) →
      (∀ x ∈ u.teams, x.tid ∈ ids → x.state = .stopping ∧ x.stop = .none)
      ∧ u.groups = s.groups.map (fun g => if ids.contains g.tid then g.stop s.clk else g)
      ∧ ∀ c, s.ctx? t.ctx = some c → u.ctx? t.ctx = some (if t.committed then { c with saveLeft := c.saveLeft - need } else c)))
  ∧ (∀ (s : State) (t : Team), s.team? s.arg.a = some t → t.state = .stopping →
    let u := s.each ((s.stoppingOf t).map Team.tid) State.flushTeam
    (∀ x ∈ s.stoppingOf t, u.drained x.tid = true ∧ ∀ p ∈ x.planes, u.stepDue x p (u.clk + 9) = false) →
    Steps .preempt s (u.each (u.stoppingOf t) fun s x => if t.committed then s.saveTeam x else s.discardAgain x))
  ∧ (∀ (s : State) (t : Team) (l : Launch) (sl : List Nat × List Nat), s.team? s.arg.a = some t → t.state = .saved →
    s.launch? t.launch = some l → s.launchPaused l = false → s.resumePlace t s.arg.b s.arg.c = some sl →
    Steps .teamResume s (s.resumeTeam t s.arg.b s.arg.c sl))
  ∧ (∀ (s : State) (c : Chain) (l : Launch) (core slot : Nat) (more : List Nat), s.chain? s.arg.a = some c → c.request = some true →
    s.launch? c.launch = some l → c.folded = false → c.movingTo = none → c.foldable = true → s.chainTeams c ≠ [] →
    (∀ t ∈ s.chainTeams c, t.state = .running) → s.equivalence c = true → s.arg.pairs.map Prod.fst = [core] →
    (c.mst.isSome = true → (s.holders.filter fun x => x.home == core && x.stream.isSome).length < 4) →
    s.coreTakes l.ctx core (c.stages.map fun st => (0, { Role.none with budget := st.win })) true =
      some (slot :: more) →
    Steps .chainMove s (s.fold c l core slot))
  ∧ (∀ (s : State) (c : Chain) (l : Launch) (t : Team) (slots : List Nat), s.chain? s.arg.a = some c → c.request = some false →
    s.launch? c.launch = some l → c.folded = true → c.movingTo = none → s.chainTeams c = [t] → t.state = .running →
    s.equivalence c = true → s.arg.pairs.length = (s.liveStages c).length →
    (∀ p ∈ s.arg.pairs, ∀ p' ∈ s.arg.pairs, p.1 / 4 = p'.1 / 4) →
    s.sheafSlots l.ctx (l.inForm false) []
      ((((s.liveStages c).zip (s.arg.pairs.map Prod.fst))).map fun x => (x.1.2, x.1.1, x.2)) = some slots →
    Steps .chainMove s (s.unfold c l t ((s.arg.pairs.map Prod.fst).zip slots)))
  ∧ (∀ (s : State) (c : Chain) (form : Bool), s.chain? s.arg.a = some c → c.movingTo = some form →
    Steps .chainMoveDone s (s.endMove c form))
  ∧ (∀ s : State, let r := s.record s.arg.a
    r.live = true → r.kind = 4 → r.deleting = false → r.everConverged = true → bits (w32 r.launchBody 8) 16 2 = 2 →
    (∃ c ∈ s.chains, c.slot = some r.slot) ∨ (∃ l ∈ s.launches, l.isOf r = true) → Steps .formPolicyChoice s (s.requestForm r.slot s.arg.flag))

/-- A group that posted its fault resumes when its pages are applied, and a parked one issues again when its pages are
usable; a pending fault of 20 µs sends its batch; a fault of FWAIT ms and a host absence of HOSTABS end their context;
the oldest first-touch request is settled with its outcome, and STATUS returns it; the arbiter settles each 1 µs the
requests of its pages that no move, shoot-down or running job holds; a move whose shoot-down is acknowledged lands; a
hold ends after 10 ms.
Where the model chooses or infers: log entries 52 (DESIGN CHOICE), 65 (DESIGN CHOICE), 79 (DEDUCED), 80 (DEDUCED), 117
(DEDUCED), 161 (DESIGN CHOICE), 166 (DESIGN CHOICE). -/
def Obligations.FaultSteps : Prop :=
  (∀ (s : State) (g : Group) (p : Park), s.awake? s.arg.a = some g → g.park = some p → p.posted = true →
    (∀ f ∈ p.fails, if f.parkable then s.usable g.ctx f.va = true
      else ∀ x ∈ s.faults, ¬(x.ctx = g.ctx ∧ page64 x.va = page64 f.va)) →
    (g.handler = none → Steps .fpostResume s (s.putGroup { g with park := none }))
    ∧ (∀ v, g.handler = some v → g.epc.toNat % 2 = 0 → s.eretWaits g v = false → Steps .fpostResume s (s.eret g v))
    ∧ (g.handler ≠ none → g.epc.toNat % 2 = 1 → Steps .fpostResume s (s.trap { g with park := none } cMisaligned)))
  ∧ (∀ (s : State) (g : Group) (p : Park), s.awake? s.arg.a = some g → g.park = some p → p.posted = false →
    (∀ f ∈ p.fails, s.usable g.ctx f.va = true) →
    Steps .parkReplay s (s.putGroup { g with
      park := none, pc := p.pc, reissue := some (g.reissue.getD g.exec), exec := p.lanes, readyAt := s.clk }))
  ∧ (∀ (s : State) (f : PostedFault), f ∈ s.faults → f.die = s.arg.a → f.sent = false → f.posted + 18800 ≤ s.clk →
    Steps .faultBatchAge s (s.writeBatch s.arg.a))
  ∧ (∀ (s : State) (c : Ctx) (f : PostedFault), s.ctx? s.arg.a = some c → c.live = true → c.fwait ≠ 0 → f ∈ s.faults →
    f.ctx = c.ctx → f.posted + 940000 * c.fwait ≤ s.clk → Steps .faultTimeout s (s.endContext c.ctx 0x22 0))
  ∧ (∀ (s : State) (c : Ctx) (t : Nat), s.ctx? s.arg.a = some c → c.absentSince = some t → c.live = true → c.hostabs ≠ 0 →
    t + 940000 * c.hostabs ≤ s.clk → Steps .hostAbsence s (s.endContext c.ctx 0x23 0))
  ∧ (∀ (s : State) (c : Ctx) (gid va : Nat) (rest : List (Nat × Nat)), s.ctx? s.arg.a = some c → c.ftReqs = (gid, va) :: rest →
    let c' : Ctx := { c with ftReqs := rest }
    let u := s.putCtx c'
    (u.covering? c.ctx va = none → Steps .firstTouchRequest s (u.ftOutcome c' gid 2))
    ∧ (∀ r, u.covering? c.ctx va = some r →
      (bits (w32 r.body 0xC) 10 2 ≠ 1 ∨ 2 ^ 52 ≤ va → Steps .firstTouchRequest s (u.ftOutcome c' gid 2))
      ∧ (bits (w32 r.body 0xC) 10 2 = 1 → va < 2 ^ 52 →
        (∀ p, u.page? c.ctx va = some p → Steps .firstTouchRequest s (u.ftOutcome c' gid (if p.moving then 4 else 1)))
        ∧ (u.page? c.ctx va = none → u.poolPages c' = [] → Steps .firstTouchRequest s (u.ftOutcome c' gid 3))
        ∧ (∀ f fs, u.page? c.ctx va = none → u.poolPages c' = f :: fs → Steps .firstTouchRequest s
          ((((u.mapFirstTouch c' r va f).ftOutcome c' gid 0).writeStanding c.slot).writeStanding r.slot)))))
  ∧ (∀ (s : State) (g : Group) (a : Access) (l : LaneReq) (rest : List LaneReq) (cx : Ctx) (code c : Nat),
    s.access? s.arg.a = some (g, a) → a.lanes = l :: rest → l.loc.sp = .port c → l.finished = false →
    s.joinClear g.gid a.epoch = true → s.ctx? c = some cx → (∀ r ∈ cx.ftReqs, r.1 ≠ g.gid) →
    (∀ x ∈ s.stores, x.gid = g.gid → x.sid < a.id → ∀ p, x.tgt = .mem p → p.sp ≠ .port c) →
    cx.ftStat.find? (fun e => e.1 == g.gid) = some (g.gid, code) →
    Steps .firstTouchStatus s (s.takeRead g a l [BitVec.ofNat 32 code] []))
  ∧ (∀ s : State, s.clk % 940 = 0 →
    let mine := s.pages.filter fun p =>
      s.settles p && (match s.lockAt p.ctx (s.pageLock p) with
        | some (loc, _) => homeDie loc.a == s.arg.a
        | none => s.arg.a == 0)
    mine ≠ [] → Steps .migrationCycle s (s.each mine State.settlePage))
  ∧ (∀ (s : State) (m : Move) (p : Page), s.moves.find? (fun m => m.mv == s.arg.a) = some m →
    (∀ x ∈ s.shoots, ¬(x.ctx = m.ctx ∧ x.va = m.va)) →
    s.pages.find? (fun p => p.ctx == m.ctx && p.va == m.va && p.moving) = some p →
    let u : State := { s with moves := s.moves.filter fun x => x.mv ≠ m.mv }
    let body := (s.record p.slot).body
    let pa := mapPa body + (p.va - mapVa body)
    (m.toHost = true → Steps .moveDone s
      (((u.copyFrame ⟨p.sp, p.frame⟩ ⟨.host, pa⟩ p.size).landPage m p .host pa).freeFrame p.frame p.size))
    ∧ (m.toHost = false → ∀ f v, u.allocFrame (mapBack body) p.size p.ctx = some (f, v) → Steps .moveDone s
      ((v.copyFrame ⟨p.sp, p.frame⟩ ⟨.dev, f⟩ p.size).landPage m p .dev f))
    ∧ (m.toHost = false → u.allocFrame (mapBack body) p.size p.ctx = none → Steps .moveDone s
      ((u.putPage p { p with moving := false }).setLock m.ctx m.lockVa fun l => { l with moving := false })))
  ∧ (∀ (s : State) (h : Hold), s.holds.find? (fun h => h.ctx == s.arg.a && h.va == s.arg.b && decide (h.expires ≤ s.clk)) = some h →
    let u := ({ s with holds := s.holds.filter fun x => !(x.ctx == h.ctx && x.va == h.va) } : State).setLock h.ctx h.lockVa
      fun l => { l with pinned := false, remote := false }
    Steps .lockHoldExpiry s (match u.page? h.ctx h.va with
      | some p => u.writeStanding p.slot
      | none => u))

/-- Capture accepts or refuses the oldest publish and zeroes its claim word; a context is admitted when the device can
hold it, allocated, bound, and ended by the first step of its deletion; the page at the cursor is applied, narrowed
(once it is in no move) or, from the last that is still mapped, released, each with the shoot-down that the rule asks
for; an acknowledged shoot-down completes its step.
Where the model chooses or infers: log entries 62 (DEDUCED), 63 (DEDUCED), 64 (DEDUCED), 65 (DESIGN CHOICE), 67
(DEDUCED), 68 (DEDUCED), 72 (DEDUCED), 75 (DEDUCED), 77 (DEDUCED), 78 (DESIGN CHOICE), 139 (DEDUCED), 160 (DESIGN
CHOICE), 162 (DESIGN CHOICE). -/
def Obligations.HarrowContexts : Prop :=
  (∀ (s : State) (p : Publish) (rest : List Publish), s.publishes = p :: rest →
    let u : State := { s with publishes := rest }
    let e := editOf p.slot (u.slotBytes p.slot)
    let code := u.checkEdit e p
    Steps .capture s ((if code = 0 then u.acceptEdit e else u.refuseEdit e code).unitStore
      ⟨.dev, harrowBase + 0x100 * p.slot + 0x20⟩ (leBytes 8 0)).showBlocked)
  ∧ (∀ (s : State) (r : Rec), Turn s r 1 → r.goal = .create → r.cursor = 0 →
    let u := s.begun r
    let b := r.body
    (u.ctx? r.ctx = none → r.ctx < u.ctxLimit → u.hasClusters (w64 b 0x20) = true →
      poolBytes b + frBytes + launchBytes ≤ u.freeBytes 0 →
      saveAreaBytes b + u.privCount b * privBytes b ≤ u.freeBytes 1 →
      Steps .contextAdmit s ((u.putCtx (newCtx r)).stepDone r.slot 3).showBlocked)
    ∧ (u.ctx? r.ctx = none → u.ctxLimit ≤ r.ctx ∨ u.freeBytes 0 < poolBytes b + frBytes + launchBytes →
      Steps .contextAdmit s (u.failRecord r.slot eCapacity).showBlocked)
    ∧ (u.hasClusters (w64 b 0x20) = false → Steps .contextAdmit s (u.failRecord r.slot eCapacity).showBlocked))
  ∧ (∀ (s : State) (r : Rec), Turn s r 1 → r.goal = .create → r.cursor = 1 →
    let u := s.begun r
    let b := r.body
    let pv := u.privCount b * privBytes b
    ∀ c p1 u1 p2 u2 p3 u3 p4 u4 p5 u5, u.ctx? r.ctx = some c → c.areas = [] → u.allocArea 0 (poolBytes b) = some (p1, u1) →
    u1.allocArea 0 frBytes = some (p2, u2) → u2.allocArea 0 launchBytes = some (p3, u3) →
    u3.allocArea 1 (saveAreaBytes b) = some (p4, u4) → u4.allocArea 1 pv = some (p5, u5) →
    let c' : Ctx := { c with
      pool := w32 b 0x28, poolBase := p1, saveLeft := saveAreaBytes b, blockCount := u.privCount b, privFrame := p5,
      areas := [(p1, poolBytes b), (p2, frBytes), (p3, launchBytes), (p4, saveAreaBytes b), (p5, pv)] }
    Steps .contextAllocate s
      (({ u5.putCtx c' with pages := u5.pages ++ c'.areaPages p2 p3 p5 } : State).stepDone r.slot 3).showBlocked)
  ∧ (∀ (s : State) (r : Rec), Turn s r 1 → r.goal = .create → r.cursor = 2 →
    let u := s.begun r
    ∀ c, u.ctx? r.ctx = some c →
    (c.conf = false ∨ (u.tdi c.tdi).state = 3 ∧ (u.tdi c.tdi).ide = c.ide → Steps .contextBind s
      ((u.putCtx { c with clmask := (newCtx r).clmask, pceil := (newCtx r).pceil, leaseq := (newCtx r).leaseq }).stepDone
        r.slot 3).showBlocked)
    ∧ (c.conf = true → (u.tdi c.tdi).state ≠ 3 ∨ (u.tdi c.tdi).ide ≠ c.ide →
      Steps .contextBind s (u.failRecord r.slot eApplyFault).showBlocked))
  ∧ (∀ (s : State) (r : Rec), Turn s r 1 → r.goal = .delete →
    let u := s.begun r
    ∀ c, u.ctx? r.ctx = some c → c.slot = r.slot → Steps .contextDelete s
      ((if r.cursor = 0 then u.endContext r.ctx 0x25 0 else u).stepDone r.slot 3).showBlocked)
  ∧ (∀ (s : State) (r : Rec), Turn s r 2 → r.goal = .create → r.waiting = false →
    let u := s.begun r
    let b := r.body
    let p := r.cursor
    let fin := State.showBlocked
    (∀ g, u.recPage r p = some g → g.perm &&& ~~~(mapPerm b) = 0 → Steps .mappingPageApply s (fin (({ u with
      pages := u.pages.map fun x => if x = g then { x with perm := mapPerm b, revoked := false } else x } : State).pageApplied
        r.begun p)))
    ∧ (u.recPage r p = none →
      (u.overlaps r (r.pageVa p) (mapSize b) = true → Steps .mappingPageApply s (fin (u.failRecord r.slot 0x16)))
      ∧ (u.overlaps r (r.pageVa p) (mapSize b) = false →
        (mapPolicy b = 1 → Steps .mappingPageApply s (fin (u.pageApplied r.begun p)))
        ∧ (mapPolicy b = 0 → mapBack b = 2 → Steps .mappingPageApply s (fin (({ u with
          pages := u.pages ++ [r.page p .host (mapPa b + p * mapSize b)] } : State).pageApplied r.begun p)))
        ∧ (mapPolicy b = 0 → mapBack b < 2 → 
          (u.allocFrame (mapBack b) (mapSize b) r.ctx = none → Steps .mappingPageApply s (fin (u.failRecord r.slot eCapacity)))
          ∧ (∀ f v, u.allocFrame (mapBack b) (mapSize b) r.ctx = some (f, v) → Steps .mappingPageApply s (fin (({ v with
            pages := v.pages ++ [r.page p .dev f] } : State).pageApplied r.begun p)))))))
  ∧ (∀ (s : State) (r : Rec), Turn s r 2 → r.goal = .create → r.waiting = false →
    let u := s.begun r
    ∀ g, u.recPage r r.cursor = some g → g.perm &&& ~~~(mapPerm r.body) ≠ 0 →
    Steps .mappingPermNarrow s (if g.moving then u.showBlocked else (({ u with pages := u.pages.map fun x => if x = g then { x with perm := x.perm &&& mapPerm r.body } else x }
      : State).shootStep r.slot false g)).showBlocked)
  ∧ (∀ (s : State) (r : Rec), Turn s r 2 → r.goal = .delete → r.waiting = false →
    let u := s.begun r
    let n := u.madeTop r.begun
    (n = 0 → Steps .mappingPageRelease s (u.entomb r.slot r.cursor).showBlocked)
    ∧ (∀ g, n ≠ 0 → u.recPage r (n - 1) = some g → ∃ v : State, Steps .mappingPageRelease s (v.shootStep r.slot true g).showBlocked
      ∧ v = { u with pages := u.pages.filter (fun x => x ≠ g), moves := v.moves, holds := v.holds, migReqs := v.migReqs })
    ∧ (n ≠ 0 → u.recPage r (n - 1) = none → Steps .mappingPageRelease s (u.unmade r.begun (n - 1)).showBlocked))
  ∧ (∀ (s : State) (x : Shoot), s.shoots.find? (fun x => x.sd == s.arg.a) = some x → s.shootAcked x = true →
    let u : State := { s with shoots := s.shoots.filter fun y => y.sd ≠ x.sd }
    let v := if x.release then u.releaseFrame x else u
    let due := fun r : Rec => r.kind == 2 && r.waiting && r.shoot == some x.sd
    (v.recs.find? due = none → Steps .shootdownAck s v)
    ∧ (∀ r, v.recs.find? due = some r →
      let n := (x.va - mapVa r.body) / mapSize r.body
      (∀ g, x.release = false → v.recPage r n = some g → r.phase = .applying → r.goal = .create → Steps .shootdownAck s
        ((({ v with pages := v.pages.map fun y => if y = g then { y with perm := mapPerm r.body, revoked := false } else y } : State).stepDone
          r.slot (mapPages r.body)).showBlocked))
      ∧ (x.release = true → r.phase = .applying → r.goal = .delete → Steps .shootdownAck s (v.unmade r n).showBlocked)))

/-- A queue record is admitted, its handle is published and its queue opens; an MSG queue closes, is released once
drained, and ends; an EXPERT queue is deleted; a link is admitted, takes the peer's presentation, and at its turn
connects with a matching peer; a program is admitted, chooses its variant, loads its image, binds its queues and
launches its grid, whose first team's start ends the step unless the program is paused; the pause and unpause steps
converge; PROGRAM, LINK, REORDER and STREAM records are deleted step by step.
Where the model chooses or infers: log entries 45 (DEDUCED), 49 (DESIGN CHOICE), 59 (DEDUCED), 60 (DEDUCED), 66
(DESIGN CHOICE), 69 (DEDUCED), 70 (DEDUCED), 71 (DEDUCED), 73 (DESIGN CHOICE), 74 (DEDUCED), 114 (DESIGN CHOICE), 137
(DESIGN CHOICE), 151 (DEDUCED), 163 (DESIGN CHOICE). -/
def Obligations.HarrowRecords : Prop :=
  (∀ (s : State) (r : Rec), Turn s r 3 → r.goal = .create → r.cursor = 0 →
    let u := s.begun r
    (r.sub = 1 ∨ r.sub = 4 → Steps .queueAdmit s
      ((u.putRecord { u.record r.slot with made := max r.made 1, die := none }).stepDone r.slot 3).showBlocked)
    ∧ (∀ d, r.sub = 2 → u.expertDie r.begun = some d → Steps .queueAdmit s
      ((u.putRecord { u.record r.slot with made := max r.made 1, die := some d }).stepDone r.slot 3).showBlocked)
    ∧ (r.sub = 2 → u.expertDie r.begun = none → Steps .queueAdmit s (u.failRecord r.slot eCapacity).showBlocked)
    ∧ (r.sub = 5 → let port := bits (w64 r.body 8) 16 3
      (u.portFree port true r.slot = true → streamHeld r.body = true → let v := u.putPort { u.port port with ethernet := true }
        Steps .queueAdmit s ((v.putRecord { v.record r.slot with made := max r.made 1, die := none }).stepDone r.slot 3).showBlocked)
      ∧ (u.portFree port true r.slot = false ∨ streamHeld r.body = false → Steps .queueAdmit s (u.failRecord r.slot eCapacity).showBlocked)))
  ∧ (∀ (s : State) (r : Rec), Turn s r 3 → r.goal = .create → r.cursor = 1 → r.handle = 0 →
    let u := s.begun r
    let h : Word := BitVec.ofNat 32 (r.sub * 2 ^ 28 + r.gen % 256 * 2 ^ 20 + r.slot)
    let v := u.putQueue (newQueue r h (r.die.getD 0))
    (r.sub ≠ 2 ∨ r.die ≠ none → Steps .handlePublish s
      ((v.putRecord { v.record r.slot with handle := h, made := max r.made 2 }).stepDone r.slot 3).showBlocked)
    ∧ (r.sub = 2 → r.die = none → Steps .handlePublish s (u.failRecord r.slot eCapacity).showBlocked))
  ∧ (∀ (s : State) (r : Rec), Turn s r 3 → r.goal = .create → r.cursor = 2 →
    let u := s.begun r
    ∀ q, u.queue? r.slot = some q →
    let v := u.retake q r.sub r.body
    u.ringMoves q q.ringHead q.spilled.length = false → Steps .queueOpen s (((v.putRecord { v.record r.slot with made := 3 }).stepDone r.slot 3).pauseQueue r.slot).showBlocked)
  ∧ (∀ (s : State) (r : Rec), Turn s r 3 → r.sub = 1 → r.goal = .delete → r.cursor = 0 →
    let u := s.begun r
    let v := u.closeQueue r.slot
    Steps .queueClose s (((if (w32 r.body 4).testBit 2 then v.dropEntries r.slot else v).returnPops r.slot).stepDone r.slot 3).showBlocked)
  ∧ (∀ (s : State) (r : Rec), Turn s r 3 → r.sub = 1 → r.goal = .delete → r.cursor = 1 →
    let u := s.begun r
    Steps .queueRelease s (if u.queueDrained r.slot = true then (u.withdrawQueue r.slot).stepDone r.slot 3
      else u.stepWaits r.slot).showBlocked)
  ∧ (∀ (s : State) (r : Rec), Turn s r 3 → r.sub = 1 → r.goal = .delete → r.cursor = 2 →
    let u := s.begun r
    Steps .queueEndAdmission s (u.stepDone r.slot 3).showBlocked)
  ∧ (∀ (s : State) (r : Rec), Turn s r 3 → r.sub = 2 → r.goal = .delete →
    let u := s.begun r
    (∀ q, r.cursor = 0 → u.queue? r.slot = some q → (r.dropsTokens = true → u.ringMoves q q.ringHead q.spilled.length = false) →
      let v := u.putQueue { q with closed := true, drop := r.dropsTokens }
      Steps .expertQueueDelete s ((if r.dropsTokens then v.returnTokens r.slot else v).stepDone r.slot 3).showBlocked)
    ∧ (r.cursor = 1 → Steps .expertQueueDelete s (if r.dropsTokens = true ∨ u.awaited r.begun = true
        then ((u.withdrawQueue r.slot).keepFirings r.slot).stepDone r.slot 3
        else u.stepWaits r.slot).showBlocked)
    ∧ (r.cursor = 2 → Steps .expertQueueDelete s (u.stepDone r.slot 3).showBlocked))
  ∧ (∀ (s : State) (r : Rec), Turn s r 5 → r.goal = .create → r.cursor = 0 →
    let u := s.begun r
    ((∀ p ∈ linkPorts r.body, u.portFree p false r.slot = true) →
      let v := u.each (linkPorts r.body) fun s p => s.putPort { s.port p with ethernet := false }
      Steps .linkAdmit s ((v.putRecord { v.record r.slot with made := max r.made 1 }).stepDone r.slot 2).showBlocked)
    ∧ ((∃ p ∈ linkPorts r.body, u.portFree p false r.slot = false) →
      Steps .linkAdmit s (u.failRecord r.slot eCapacity).showBlocked))
  ∧ (∀ (s : State) (r : Rec), s.record s.arg.a = r → r.live = true → r.kind = 5 → s.portsDown (.peer r.slot) = false → s.arg.nats.length = 5 →
    Steps .linkConnect s (s.putRecord { r with presented := some (s.arg.flag, s.arg.nats) }))
  ∧ (∀ (s : State) (r : Rec), Turn s r 5 → r.goal = .create → r.cursor = 1 → s.arg.nats.length ≠ 5 →
    let u := s.begun r
    (r.peerExp ≠ [] → Steps .linkConnect s (u.stepDone r.slot 2).showBlocked)
    ∧ (r.peerExp = [] → r.presented = none → Steps .linkConnect s (u.stepWaits r.slot).showBlocked)
    ∧ (∀ names ctx ports crypt expva explen, r.peerExp = [] → r.presented = some (names, [ctx, ports, crypt, expva, explen]) →
      let d := w64 r.body 8
      Steps .linkConnect s (if names = true ∧ ctx = r.ctx ∧ ports = bits d 0 8 ∧ crypt = bits d 16 1
        then (u.putRecord { u.record r.slot with peerExp := [expva, explen], made := 2, presented := none }).stepDone r.slot 2
        else (u.putRecord { u.record r.slot with presented := none }).failRecord r.slot 0x1A).showBlocked))
  ∧ (∀ (s : State) (r : Rec), Turn s r 4 → r.goal = .create → r.cursor = 0 →
    let u := s.begun r
    u.imageMoves r.ctx (w64 r.body 0) = false →
    let origin : Origin := if u.isExpertProgram r.begun then .firing r.slot 0 else .program r.slot
    Steps .programAdmit s (match u.programLaunch r.begun r.body 0 0 origin with
      | .error e => if e = eCapacity then u.failRecord r.slot eCapacity else u.stepDone r.slot 5
      | .ok _ => u.stepDone r.slot 5).showBlocked)
  ∧ (∀ (s : State) (r : Rec), Turn s r 4 → r.goal = .create → r.cursor = 1 →
    let u := s.begun r
    u.imageMoves r.ctx (w64 r.body 0) = false →
    (∀ e, u.readVa r.ctx (w64 r.body 0) 64 = .error e → Steps .selectVariant s (u.failRecord r.slot e).showBlocked)
    ∧ (∀ b vs, u.readVa r.ctx (w64 r.body 0) 64 = .ok b → let i := imgOf (w64 r.body 0) b
      allOk ((List.range (min i.nvar 64)).map (u.imgVariant r.ctx i)) = .ok vs →
      (chooseVariant u.defectSignature vs = none → Steps .selectVariant s (u.failRecord r.slot eNoVariant).showBlocked)
      ∧ (∀ n v ps, chooseVariant u.defectSignature vs = some n → vs[n]? = some v → u.imgPlaces r.ctx i v = .ok ps →
        Steps .selectVariant s (if ps.all (fun p => u.admitted r.ctx p.2.2) = true
          then (u.putRecord { u.record r.slot with variant := some n }).stepDone r.slot 5
          else u.failRecord r.slot eCapacity).showBlocked)))
  ∧ (∀ (s : State) (r : Rec), Turn s r 4 → r.goal = .create → r.cursor = 2 →
    let u := s.begun r
    let va := w64 r.body 0
    let n := bits (w32 r.body 8) 0 16
    let form := bits (w32 r.body 8) 16 2
    u.imageMoves r.ctx va = false →
    (∀ e, u.loadChecks r.ctx va = .error e → Steps .loadImage s (u.failRecord r.slot e).showBlocked)
    ∧ (∀ i k, u.loadChecks r.ctx va = .ok i → n < i.kernels → u.imgKernel r.ctx i n = .ok k →
      (k.isChain = true ∨ form = 0) → (k.isChain = true → form = 1 → u.chainFoldable r.ctx i k = true) →
      Steps .loadImage s (match (if u.isLoaded r.ctx va (i.base + i.code) then (.ok u : Except Nat State) else u.relocate r.ctx i) with
        | .error e => u.failRecord r.slot e
        | .ok v =>
          let v := v.addImage r.ctx (i.base + i.code) i.codeSize
          let old := (v.record r.slot).loaded
          (v.putRecord { v.record r.slot with loaded := if va ∈ old then old else old ++ [va] }).stepDone r.slot 5).showBlocked))
  ∧ (∀ (s : State) (r : Rec), Turn s r 4 → r.goal = .create → r.cursor = 3 →
    let u := s.begun r
    ((∀ h ∈ programHandles r.body, ∃ q, u.queueOf (BitVec.ofNat 32 h) = some q ∧ q.ctx = r.ctx) →
      Steps .bindQueues s (u.stepDone r.slot 5).showBlocked)
    ∧ ((∃ h ∈ programHandles r.body, u.queueOf (BitVec.ofNat 32 h) = none) →
      Steps .bindQueues s (u.failRecord r.slot eApplyFault).showBlocked))
  ∧ (∀ (s : State) (r : Rec), Turn s r 4 → r.goal = .create → r.cursor = 4 →
    let u := s.begun r
    (r.waiting = true → Steps .programLaunch s (u.stepDone r.slot 5).showBlocked)
    ∧ (∀ e, r.waiting = false → u.imageMoves r.ctx (w64 r.body 0) = false → u.isExpertProgram r.begun = true →
      u.programLaunch { r.begun with launchVariant := r.variant } r.body 0 0 (.firing r.slot 0) = .error e →
      Steps .programLaunch s (u.failRecord r.slot e).showBlocked)
    ∧ ∀ c, r.waiting = false → u.ctx? r.ctx = some c → u.imageMoves r.ctx (w64 r.body 0) = false → u.isExpertProgram r.begun = false →
      u.gridRunning r.begun = false → Steps .programLaunch s (match u.launchGrid { r.begun with launchVariant := r.variant } r.body with
        | .error e => u.failRecord r.slot e
        | .ok v => if r.pauseBit = true ∨ c.paused = true then v.stepDone r.slot 5 else v.stepStarts r.slot).showBlocked)
  ∧ (∀ (s : State) (r : Rec), s.turn = some r → r.slot = s.arg.a →
    (r.goal = .pause → Steps .pauseStep s ((s.setRecord r.begun).converge r.slot 1).showBlocked)
    ∧ (r.goal = .unpause → Steps .unpauseStep s ((s.setRecord r.begun).converge r.slot 1).showBlocked)
    ∧ (r.goal ≠ .delete → r.undoing = true → r.waiting = true → Steps .deletionStep s (s.undone r).showBlocked))
  ∧ (∀ (s : State) (r : Rec), s.turn = some r → r.slot = s.arg.a → r.goal = .delete →
    let u := s.begun r
    (r.kind = 4 → (r.cursor ≠ 0 → Steps .deletionStep s (u.stepDone r.slot 5).showBlocked)
      ∧ (r.cursor = 0 → u.awaited r = true → Steps .deletionStep s ((u.undone r).stepDone r.slot 5).showBlocked)
      ∧ (r.cursor = 0 → u.awaited r = false → Steps .deletionStep s (u.undoWaits r.slot).showBlocked))
    ∧ (r.kind = 5 → let v := u.cutLink r.slot
      Steps .deletionStep s ((if r.cursor = 0 then v.putRecord { v.record r.slot with peerExp := [] } else u).stepDone r.slot
        2).showBlocked)
    ∧ (r.kind = 3 → r.sub = 4 → Steps .deletionStep s ((if r.cursor = 0 then u.closeQueue r.slot
        else if r.cursor = 1 then (u.dropEntries r.slot).withdrawQueue r.slot else u).stepDone r.slot 3).showBlocked)
    ∧ (r.kind = 3 → r.sub = 5 → Steps .deletionStep s ((if r.cursor = 0 then (u.closeQueue r.slot).returnPops r.slot
        else if r.cursor = 1 then (u.dropEntries r.slot).withdrawQueue r.slot else u).stepDone r.slot 3).showBlocked))

/-- Registers that the host writes take their values; host writes and reads reach device and host memory; a warm restart
revokes every translation to host memory, fails the MAPPING records that have such pages, takes every interface out of
its run state, ends the live confidential contexts with code 0x26 and masks every vector; an interface changes state,
with at most eight selective streams in all, and its owner loads keys in its secure session; debug requests act on a
halted core; a firmware image is staged and verified, with its event; a signature uses the next leaf; ports lose and
regain lock, and links go down; inbound jobs and accesses reach the exported window, and the arrival word counts a job
at its last piece when none of its pieces was refused; stream packets and deadlines are taken; PTP locks to a source
and its time, and runs on when the lock is lost.
Where the model chooses or infers: log entries 17 (DESIGN CHOICE), 81 (DEDUCED), 82 (DEDUCED), 83 (DEDUCED), 84
(DESIGN CHOICE), 89 (DEDUCED), 90 (DEDUCED), 91 (DEDUCED), 92 (DEDUCED), 93 (DEDUCED), 116 (DEDUCED), 134 (PRESUMED),
135 (DEDUCED), 152 (DEDUCED), 153 (DEDUCED), 159 (DESIGN CHOICE), 165 (DESIGN CHOICE). -/
def Obligations.HostAndPortSteps : Prop :=
  (∀ s : State, (∃ t ∈ s.pendingNotes, t + 940 * s.nhold ≤ s.clk) → Steps .notifyHoldExpiry s s.coalesce)
  ∧ (∀ s : State, s.arg.a ∈ s.masked →
    let u : State := { s with masked := s.masked.filter fun x => x ≠ s.arg.a }
    Steps .msixUnmask s (if s.heldMsix.contains s.arg.a = true
      then ({ u with heldMsix := s.heldMsix.filter (fun x => x ≠ s.arg.a),
                     pendingNotes := if s.noteHeld = some s.arg.a then [] else s.pendingNotes,
                     noteHeld := if s.noteHeld = some s.arg.a then none else s.noteHeld } : State).emit (.msix s.arg.a) else u))
  ∧ (∀ s : State, Steps .notifyConsWrite s (s.setCons (BitVec.ofNat 32 s.arg.a))
    ∧ Steps .faultRingConsWrite s (s.setFcons (BitVec.ofNat 32 s.arg.a))
    ∧ Steps .ncountWrite s (({ s with ncount := if s.arg.a % 4096 = 0 then 1 else s.arg.a % 4096 } : State).coalesce)
    ∧ Steps .nholdWrite s (({ s with nhold := min 1000 (max 1 (s.arg.a % 1024)) } : State).coalesce))
  ∧ (∀ s : State,
    (s.arg.a = 1 → Steps .registerWrite s { s with nvector := s.arg.b % 65536 })
    ∧ (s.arg.a = 2 → Steps .registerWrite s { s with fvector := s.arg.b % 65536 })
    ∧ (∀ c < 40, s.arg.a = 0x100 + c → Steps .registerWrite s (s.putCslr (cslrOf c s.arg.b)))
    ∧ (∀ i < 640, s.arg.a = 0x1000 + i → Steps .registerWrite s (s.putIsland ((s.island i).write s.arg.b)))
    ∧ (∀ v < 64, s.arg.a = 0x2000 + v → s.arg.b % 2 = 1 → v ∉ s.masked →
      Steps .registerWrite s { s with masked := s.masked ++ [v] }))
  ∧ (∀ s : State, s.arg.nats = [] →
    (s.arg.flag = false → Steps .hostWrite s (s.hostWrite s.arg.a s.arg.bytes))
    ∧ (s.arg.flag = true → Steps .hostWrite s (s.newId.2.storeHome ⟨.host, s.arg.a⟩ s.arg.bytes s.nextId true true 0)))
  ∧ (∀ s : State,
    (s.arg.flag = true → Steps .hostRead s (s.emit (.hostData s.arg.a (s.bytesAt ⟨.host, s.arg.a⟩ s.arg.b) false)))
    ∧ (s.arg.flag = false → covers s.arg.a s.arg.b 0xC01000 1 = false → Steps .hostRead s (s.emit (.hostData s.arg.a
      ((List.range s.arg.b).map fun i => (s.hostByte (s.arg.a + i)).1)
      ((List.range s.arg.b).any fun i => (s.hostByte (s.arg.a + i)).2))))
    ∧ (s.arg.flag = false → covers s.arg.a s.arg.b 0xC01000 1 = true → ∃ t : State, Steps .hostRead s { t with
        crashRead := some (s.crashRead.getD s.boots) }
      ∧ t = s.emit (.hostData s.arg.a ((List.range s.arg.b).map fun i => (s.hostByte (s.arg.a + i)).1)
        ((List.range s.arg.b).any fun i => (s.hostByte (s.arg.a + i)).2))))
  ∧ (∀ s : State,
    let u : State := { s.revokeHost.cutHost with tdisp := s.revokeHost.cutHost.tdisp.map fun t => { t with state := 0 } }
    let v := u.each (u.ctxs.filter fun c => c.live && c.conf) fun s c => s.endContext c.ctx 0x26 0
    Steps .hostWarmRestart s { v with masked := List.range 64 }
    ∧ (∀ p ∈ s.revokeHost.pages, p.kind = .mapping → p.sp = .host → p.revoked = true)
    ∧ (∀ t ∈ u.tdisp, t.state = 0)
    ∧ (∀ i, (s.record i).live = true → (s.record i).kind = 2 →
      (∃ p ∈ s.pages, p.kind = .mapping ∧ p.sp = .host ∧ p.revoked = false ∧ p.slot = i) → (s.revokeHost.record i).phase = .failed))
  ∧ (∀ s : State, 1 ≤ s.arg.a → s.arg.a ≤ 64 →
    let used := s.ideStreams s.arg.a
    Steps .tdispRequest s (if s.arg.b = 0 ∨ s.arg.c ∈ used ∨ used.length < 8
      then s.putTdi { tdi := s.arg.a, state := s.arg.b, ide := s.arg.c, owner := s.arg.d } else s.emit (.refused 2)))
  ∧ (∀ (s : State) (c : Ctx), s.ctx? s.arg.b = some c →
    Steps .keyset s (if s.arg.flag = true ∧ c.live = true ∧ c.conf = true ∧ c.tdi = s.arg.a ∧ (s.tdi s.arg.a).state = 3
        ∧ (s.tdi s.arg.a).owner = s.arg.d ∧ s.arg.c < 256 ∧ s.arg.bytes.length = 32
      then s.putCtx { c with keys := putKey Prod.fst (s.arg.c, s.arg.bytes) c.keys } else s.emit (.refused 2)))
  ∧ (∀ s : State, let k := coreOf s.arg.a s.arg.b
    (s.arg.flag = true → s.enabled k = true → s.arg.a < s.dieCount → s.arg.b < 40 →
      (∀ g ∈ s.groupsOn k, ∀ c, s.ctx? g.ctx = some c → c.conf = false) →
      let u : State := { s with groups := s.groups.map fun g => if (s.groupsOn k).any (fun x => x.gid == g.gid) then g.settle else g }
      Steps .dbgHalt s (u.putCore { u.core k with halted := true, stepSlot := none }))
    ∧ (s.arg.flag = true → (s.core k).halted = true →
      Steps .dbgResume s (s.putCore { s.core k with halted := false, stepSlot := none }))
    ∧ (s.arg.flag = false → Steps .dbgHalt s (s.emit (.refused 1)) ∧ Steps .dbgRead s (s.emit (.refused 1))
      ∧ Steps .dbgWrite s (s.emit (.refused 1)) ∧ Steps .dbgStep s (s.emit (.refused 1)) ∧ Steps .dbgResume s (s.emit (.refused 1)))
    ∧ (∀ g, s.dbgGroup = some g →
      (∀ h i v, s.dbgPlace g s.arg.d s.arg.e = some (h, i) → s.dbgItem h s.arg.d i = some v → Steps .dbgRead s (s.emit (.dbg v)))
      ∧ (∀ h i g', s.dbgPlace g s.arg.d s.arg.e = some (h, i) → s.dbgPut h s.arg.d i s.arg.nats = some g' →
        Steps .dbgWrite s (s.putGroup g'))
      ∧ Steps .dbgStep s (s.putCore { s.core k with stepSlot := some (g.slot, g.lastIssue) })))
  ∧ (∀ s : State, s.arg.flag = true → s.arg.bytes.length ≤ 4096 →
    let image := (if s.fwReady then [] else s.fwStaged) ++ s.arg.bytes
    (s.arg.flag2 = false → Steps .fwstage s { s with fwStaged := image, fwReady := false })
    ∧ (s.arg.flag2 = true → Steps .fwstage s ((if firmwareVerify image = true ∧ s.fwMin ≤ Config.firmwareVersion image
      then { s with fwStaged := image, fwReady := true } else { s with fwStaged := [], fwReady := false }).logEvent
        9 0 0xFF 0 0xFF 0xFF 0 0 0)))
  ∧ (∀ s : State, Steps .spdmSign s (if 2 ^ 30 ≤ s.leafIndex then s.emit (.refused 3)
      else ({ s with leafIndex := s.leafIndex + 1 } : State).emit (.signature (identitySign s.leafIndex s.arg.bytes))))
  ∧ (∀ s : State, let p := s.port s.arg.a
    (p.up = true → s.arg.a < s.portCount → Steps .portLossOfLock s (s.putPort { p with up := false, lostAt := some s.clk }))
    ∧ (p.up = false → p.isLost s.clk = false ∨ s.linksOn s.arg.a = [] →
      Steps .retrainingDone s (s.putPort { p with up := true, lostAt := none }))
    ∧ (p.isLost s.clk = true → s.linksOn s.arg.a ≠ [] →
      Steps .linkDown s (s.each (s.linksOn s.arg.a) fun s r => (s.loseLink r.slot).failRecord r.slot 0x19)))
  ∧ (∀ (s : State) (r : Rec), s.linkUp s.arg.a = some r → let n := s.arg.bytes.length
    (s.movingIn r.ctx (w64 r.body 0x20) 8 = false →
      (r.exports s.arg.b n = false → Steps .inboundRemoteJob s ((s.emit (.peerRefused r.slot)).endPiece r.slot s.arg.d s.arg.c true))
      ∧ (∀ ps, r.exports s.arg.b n = true → s.movingIn r.ctx s.arg.b n = false → s.inboundPieces r.ctx s.arg.b n = some ps →
        Steps .inboundRemoteJob s ((s.landInbound s.arg.flag (if s.arg.flag2 then 1 else 0) ps s.arg.bytes).endPiece r.slot s.arg.d
          s.arg.c false)))
    ∧ (∀ u : State, let e := (u.record r.slot).refusedJobs
      ∃ v : State, v = u.putRecord { u.record r.slot with refusedJobs := (v.record r.slot).refusedJobs }
        ∧ (∀ j, j ∈ (v.record r.slot).refusedJobs ↔ (j ≠ s.arg.d ∧ j ∈ e)
          ∨ (j = s.arg.d ∧ s.arg.c ≠ 0 ∧ (s.arg.flag = true ∨ s.arg.d ∈ e)))
        ∧ (u.endPiece r.slot s.arg.d s.arg.c s.arg.flag = if s.arg.c = 0 ∧ s.arg.flag = false ∧ s.arg.d ∉ e
          then v.arrival (u.record r.slot) else v))
    ∧ (∀ ps, s.arg.b = 0 → r.exports s.arg.c s.arg.e = true → s.movingIn r.ctx s.arg.c s.arg.e = false → s.inboundPieces r.ctx s.arg.c s.arg.e = some ps →
      Steps .inboundAccess s (s.emit (.peerData r.slot
        (ps.flatMap fun p => (List.range p.2).map fun i => s.systemByte (p.1.plus i)))))
    ∧ (∀ ps, s.arg.b = 1 → r.exports s.arg.c n = true → s.movingIn r.ctx s.arg.c n = false → s.inboundPieces r.ctx s.arg.c n = some ps →
      Steps .inboundAccess s (s.landInbound false 0 ps s.arg.bytes))
    ∧ (∀ p ps, s.arg.b = 2 → s.arg.d ≠ 9 → r.exports s.arg.c 4 = true → s.movingIn r.ctx s.arg.c 4 = false → s.inboundPieces r.ctx s.arg.c 4 = some (p :: ps) →
      Steps .inboundAccess s ((s.emit (.peerData r.slot (leBytes 4 (s.wordAt p.1).toNat))).unitStore p.1
        (leBytes 4 (atomNew s.arg.d (s.wordAt p.1) (BitVec.ofNat 32 (w32 s.arg.bytes 0)) (BitVec.ofNat 32 (w32 s.arg.bytes 4))).toNat))))
  ∧ (∀ (s : State) (q : Queue), s.queue? s.arg.a = some q →
    (∀ source, s.arg.nats = [source, q.group, q.udp, q.port, q.sub] → q.kind = .stream → q.isOpen = true → q.closed = false →
      q.source = 0 ∨ q.source = source → (s.port q.port).up = true → s.movingIn q.ctx q.bufVa (q.slotSz * max q.nbuf 1) = false → Steps .streamPacket s
      (s.takePacket q.slot (BitVec.ofNat 32 s.arg.b) s.arg.c s.ptpNow s.arg.e s.arg.f s.arg.bytes))
    ∧ (∀ f, q.frame = some f → f.opened + 940 * q.deadline ≤ s.clk → Steps .streamDeadline s (s.closeFrame q.slot true)))
  ∧ (∀ s : State, Steps .ptpLock s { s with
      ptpLocked := true, ptpNs := s.arg.c, ptpSet := s.clk, ptpPort := s.arg.a, ptpSub := s.arg.b, ptpDomain := s.arg.d } ∧ Steps .ptpLockLoss s { s with ptpLocked := false })

/-- A scrub corrects one flipped bit and poisons a granule of more, ending its owner under END; a window of an island ends
as R370 gives, its other fields kept; the bar of an island expires; near-threshold mode is entered and left; a bank
goes drowsy and wakes; an exception of the management core, and a word outside its subset, write a crash record; a
sample above the trip point holds the device in reset until every cluster reads 90 °C or less; a throttle step moves m
by one; an alarm sets the droop limits of its die, and a millisecond later they are restored; resets start the device
anew, with the staged firmware image where the boot ROM's checks pass.
Where the model chooses or infers: log entries 95 (DEDUCED), 96 (DEDUCED), 98 (DEDUCED), 100 (DESIGN CHOICE), 101
(DEDUCED), 102 (DEDUCED), 103 (DEDUCED), 104 (DEDUCED), 135 (DEDUCED), 136 (DEDUCED), 156 (DESIGN CHOICE). -/
def Obligations.ServiceSteps : Prop :=
  (∀ s : State,
    (s.arg.b = 1 → Steps .gleanerScrub s (s.correctLine s.arg.a))
    ∧ (1 < s.arg.b →
      (s.ownerOf s.arg.a = none → Steps .gleanerScrub s ((s.poisonLine s.arg.a).rewriteLine s.arg.a))
      ∧ ∀ c, s.ownerOf s.arg.a = some c → Steps .gleanerScrub s (if s.linePolicy s.arg.a = 1
        then (s.poisonLine s.arg.a).endContext c 0x24 0 else s.poisonLine s.arg.a)))
  ∧ (∀ s : State, let i := s.island s.arg.a
    i.nt = false → i.windowAt + windowClk ≤ s.clk → s.entersNear i = false → s.arg.a < 640 →
    ∃ j, Steps .trimWindowEnd s (s.putIsland j)
      ∧ j = { i with hold := j.hold, safe := j.safe, vcur := j.vcur, corrected := 0, windowAt := s.clk,
                     trimmed := if j.vcur < i.vcur then some s.clk else i.trimmed }
      ∧ j = { i.windowEnd with trimmed := j.trimmed, corrected := 0, windowAt := s.clk }
      ∧ (i.barred = true ∨ 0 < i.hold → j.vcur = i.vcur ∧ j.safe = i.safe ∧ j.hold = i.hold - 1)
      ∧ (i.barred = false → i.hold = 0 →
        (i.corrected ≤ 3 → 645 ≤ i.vcur → j.safe = i.vcur ∧ j.vcur = i.vcur - 5 ∧ j.hold = 0)
        ∧ (i.corrected ≤ 3 → i.vcur < 645 → j.safe = i.safe ∧ j.vcur = i.vcur ∧ j.hold = 0)
        ∧ (3 < i.corrected → j.vcur = min (i.vcur + 5) 750 ∧ j.safe = j.vcur ∧ j.hold = 15)))
  ∧ (∀ s : State, let i := s.island s.arg.a
    (i.barred = true → 940 * i.barEnd ≤ s.clk →
      Steps .barendExpiry s (s.putIsland { i with barred := false, corrected := 0, windowAt := s.clk }))
    ∧ (i.nt = false → s.asksNear i.isl = true → i.asked = false ∨ s.wantsVector i.isl = false →
      Steps .nearThresholdEntry s (s.putIsland { i with nt := true, corrected := 0, windowAt := s.clk, asked := true }))
    ∧ (i.nt = true → s.wantsVector i.isl = true →
      Steps .nearThresholdExit s (s.putIsland { i with nt := false, exitAt := some s.clk, corrected := 0, windowAt := s.clk })))
  ∧ (∀ s : State, let c := s.core s.arg.a
    (s.enabled s.arg.a = true → s.arg.b < 16 → s.arg.b ∉ c.drowsy → (∀ w ∈ c.waking, w.1 ≠ s.arg.b) →
      (∀ g ∈ s.bankGroups s.arg.a s.arg.b, s.waitsOnCounter g = true) →
      Steps .bankDrowsy s (s.putCore { c with drowsy := c.drowsy ++ [s.arg.b] }))
    ∧ (∀ w, c.waking.find? (fun w => w.1 == s.arg.b) = some w → w.2 ≤ s.clk →
      Steps .bankWake s (s.putCore { c with waking := c.waking.filter fun w => w.1 ≠ s.arg.b })))
  ∧ (∀ s : State,
    (s.arg.flag = false → Steps .firmwareException s (s.crashRecord s.arg.a s.arg.b))
    ∧ (s.arg.flag = true → s.mgmtReady = true →
      let x := s.mgmtStep s.arg.bytes s.arg.b
      (x.2 = none → Steps .firmwareException s x.1)
      ∧ (∀ t, x.2 = some t → Steps .firmwareException s (x.1.crashRecord t.1 t.2))
      ∧ (∀ bs i len sc, s.mgmt.handler = none →
        (∀ g ∈ (s.mgmtView s.arg.bytes s.arg.b).groups, (s.mgmtView s.arg.bytes s.arg.b).groupBytes g g.pc = .ok bs) →
        upcoming (.ok bs) = .word i len sc → mgmtRuns (leNat bs) = false → x.2 = some (cIllegalInstruction, s.mgmt.pc.toNat))))
  ∧ (∀ s : State, s.arg.a < s.dieCount → s.arg.nats.length = 10 →
    let u := s.putDie { s.dieMgmt s.arg.a with temps := s.arg.nats, watts := s.arg.b }
    ((∀ t ∈ s.arg.nats, t < 115) → Steps .sensorSample s u)
    ∧ (s.inReset = false → ∀ c, s.arg.nats.findIdx? (fun t => decide (115 ≤ t)) = some c →
      Steps .sensorSample s (u.thermalTrip s.arg.a c) ∧ (u.thermalTrip s.arg.a c).inReset = true))
  ∧ (∀ s : State, s.arg.a < s.dieCount →
    let d := s.dieMgmt s.arg.a
    let put := fun m : Nat => (s.putDie { d with nextThrottle := m, lastStep := s.clk }).logEvent 6 0 0xFF d.die 0xFF 0xFF m 0 0
    ((∃ t ∈ d.temps, 100 ≤ t) ∨ Config.designPower s.code < s.watts → 4 < d.nextThrottle → d.lastStep + msClk ≤ s.clk →
      Steps .throttleStep s (put (d.nextThrottle - 1)))
    ∧ ((∀ t ∈ d.temps, t ≤ 95) → 100 * s.watts ≤ 95 * Config.designPower s.code → d.nextThrottle < 16 →
      d.lastStep + 10 * msClk ≤ s.clk → Steps .throttleStep s (put (d.nextThrottle + 1))))
  ∧ (∀ s : State,
    (s.arg.a < s.dieCount → Steps .droopAlarm s ((s.each (dieClusters s.arg.a) fun s c =>
      s.putCslr { s.cslr c with wave := 7, space := 32, droopAt := some s.clk }).logEvent 7 0 0xFF s.arg.a 0xFF 0xFF 0 0 0))
    ∧ (let due := (dieClusters s.arg.a).filter fun c => match (s.cslr c).droopAt with
        | some t => decide (t + msClk ≤ s.clk)
        | none => false
      due ≠ [] → Steps .droopRestore s (s.each due fun s c =>
        s.putCslr { s.cslr c with wave := (s.cslr c).policyWave, space := (s.cslr c).policySpace, droopAt := none })))
  ∧ (∀ s : State, Steps .coldReset s (s.reboot s.arg.nats)
    ∧ Steps .powerOn s (({ s with crash := [], events := 0, boots := 0, crashRead := none } : State).reboot s.arg.nats)
    ∧ (s.inReset = true → (∀ d < s.dieCount, (s.dieMgmt d).temps.length = 10 ∧ ∀ t ∈ (s.dieMgmt d).temps, t ≤ 90) →
      Steps .thermalResetRelease s (s.reboot []))
    ∧ (let up : Prop := s.fwReady = true ∧ firmwareVerify s.fwStaged = true ∧ s.fwMin ≤ Config.firmwareVersion s.fwStaged
      (s.reboot s.arg.nats).bankB = (if up then !s.bankB else s.bankB)
      ∧ (s.reboot s.arg.nats).fwVersion = (if up then Config.firmwareVersion s.fwStaged else s.fwVersion))
    ∧ (s.reboot s.arg.nats).groups = [] ∧ (s.reboot s.arg.nats).recs = [] ∧ (s.reboot s.arg.nats).clk = 0
    ∧ (s.reboot s.arg.nats).dev = [] ∧ (s.reboot s.arg.nats).boots = s.boots + 1)

/-- A group starts with GRP in s1 and TSIZE in s2 and every other scalar register 0; every plane region of every role of a
launch starts with P, X, W and C of every word 0 and its step count 0. -/
def Obligations.StartOfGroups : Prop :=
  (∀ (s : State) (l : Launch) (i gid tid core slot blk : Nat) (m : Nat × Role),
    let g := s.newGroup l i gid tid core slot blk m
    g.sreg 1 = BitVec.ofNat 32 g.grp ∧ g.sreg 2 = BitVec.ofNat 32 g.tsize ∧ ∀ r, r ≠ 1 → r ≠ 2 → g.sreg r = 0)
  ∧ (∀ (s : State) (ctx n : Nat) (i : Img) (w : With) (folded : Bool) (x : List Role × Option ChainDesc),
    s.rolesOf ctx i n w folded = .ok x → ∀ r ∈ x.1, ∀ p ∈ r.planes, p.steps = 0
      ∧ ∀ k, p.presentAt k = 0 ∧ p.query k = (0, 0))
  ∧ ∀ (l : Launch) (i tid home partner : Nat),
    (l.newTeam i tid home partner).planes = (headD (l.rolesOf i) Role.none).planes

/-- When an instruction that writes registers alone issues and the step goes on, either it trapped, or only its group
differs; every byte of every memory reads as before; and in the group every vector and scalar register but its
destinations, every special register, exec, fmt and every stack keeps its value, but for what every issue changes.
Where the model chooses or infers: log entry 1 (DESIGN CHOICE). -/
def Obligations.RegisterFrame : Prop :=
  ∀ (i : Instr) (vs ss : List Nat) (s t : State) (q : Issue) (g : Group), writtenBy i = some (vs, ss) → Issues s q g →
    exec i s = .next t →
    (∃ c, t = s.trap g c) ∨ OnlyGroup s t g.gid ∧ SameBytes s t ∧ ∃ h, t.group? g.gid = some h ∧ KeepsGroup g h vs ss

/-- A PERFORM that widens a store's reach short of its home, or from DEVICE to SYSTEM, changes no byte of memory; one that
takes it home changes no byte outside the bytes stored, but for the upper half of a claim word that the store covers,
which the write watch may return to 0; and, in canonical memory and with no poison left in the granules, device and
host memory then read as stored.
Where the model chooses or infers: log entry 1 (DESIGN CHOICE). -/
def Obligations.PerformFrame : Prop :=
  ∀ (s : State) (x : Store) (loc : PAddr), x.tgt = .mem loc →
    (x.reach = .device ∨ s.nextReach x < 3 → SameBytes s (s.performOne x))
    ∧ (∀ p : PAddr, ¬(p.sp = loc.sp ∧ loc.a ≤ p.a ∧ p.a < loc.a + x.data.length) →
      (∀ k ∈ claimSlots loc x.data.length,
        ¬(p.sp = .dev ∧ harrowBase + 0x100 * k + 0x24 ≤ p.a ∧ p.a < harrowBase + 0x100 * k + 0x28)) →
      (s.performOne x).byteAt p = s.byteAt p)
    ∧ (MemoryCanonical s → x.reach ≠ .device → 3 ≤ s.nextReach x → loc.sp = .dev ∨ loc.sp = .host →
      (s.clearPoison loc x.data.length).anyPoison loc x.data.length = false → claimSlots loc x.data.length = [] →
      Holds (s.performOne x) loc x.data)

/-- With nothing scheduled, no timed step due and an agent picked to issue, a step is exec of the instruction that its
next bytes decode to, in the state that its issue leaves; the answer then has no issue and no arguments standing. The
bytes that a group fetches at its program counter give that instruction, its length and its stall count.
Where the model chooses or infers: log entries 3 (DESIGN CHOICE), 7 (DESIGN CHOICE), 20 (DESIGN CHOICE), 132
(DEDUCED). -/
def Obligations.StepRunsDecoded : Prop :=
  (∀ (s : State) (w : Who) (i : Instr) (len sc : Nat), s.sched = [] → s.inReset = false →
    s.firstChange s.dueEvents = none → s.pick = some w → s.wordOf w = .word i len sc →
    step s = tidyAnswer (exec i ((s.noteUse w i).issued w len sc)))
  ∧ ∀ (s : State) (g : Group) (bs rest : List Byte) (i : Instr), s.group? g.gid = some g → s.groupBytes g g.pc = .ok bs →
    decodeBytes bs = .ok i rest →
    s.wordOf (.group g.gid) = .word i (if 4 < bs.length then 8 else bs.length) (wordSc (leNat bs))

/-- From every state the machine answers a next state: no step faults and none is refused; and unless the device only
counts clk in reset, no issue and no arguments are left standing.
Where the model chooses or infers: log entries 3 (DESIGN CHOICE), 7 (DESIGN CHOICE). -/
def Obligations.StepAnswers : Prop :=
  ∀ s : State, ∃ t, step s = .next t ∧ (s.sched ≠ [] ∨ s.inReset = false → t.issue = none ∧ t.arg = EvArg.zero)

/-- Whatever a step does, from every state whose memories list their bytes in rising order and no byte that an unlisted
address reads as, the next state has that form too.
Where the model chooses or infers: log entry 1 (DESIGN CHOICE). -/
def Obligations.MemoryKept : Prop :=
  ∀ s t : State, MemoryCanonical s → step s = .next t → MemoryCanonical t

/-- After reset the count of clk is 0 and the device is not held in reset; every record slot is EMPTY with version 0;
NCOUNT is 16 and NHOLD 20, and the rings are empty; every island is at 750 mV with nothing barred, every CSLR holds
WAVE 0x3F and SPACE 0, no die is throttled, and every register bank is drowsy; no group, team, launch or queue exists;
and memory has its canonical form.
Where the model chooses or infers: log entries 1 (DESIGN CHOICE), 2 (DESIGN CHOICE). -/
def Obligations.ResetState : Prop :=
  State.reset.clk = 0 ∧ State.reset.inReset = false
  ∧ (∀ i, (State.reset.record i).phase = .empty ∧ (State.reset.record i).version = 0 ∧ (State.reset.record i).live = false)
  ∧ State.reset.ncount = 0x010 ∧ State.reset.nhold = 0x014 ∧ State.reset.prod = 0 ∧ State.reset.cons = 0 ∧ State.reset.nvector = 0
  ∧ State.reset.overrun = 0 ∧ State.reset.fprod = 0 ∧ State.reset.fcons = 0 ∧ State.reset.foverrun = 0
  ∧ (∀ i, (State.reset.island i).vcur = 750 ∧ (State.reset.island i).safe = 750 ∧ (State.reset.island i).barred = false
      ∧ (State.reset.island i).nt = false ∧ (State.reset.island i).hold = 0)
  ∧ (∀ c, (State.reset.cslr c).wave = 0x3F ∧ (State.reset.cslr c).space = 0)
  ∧ (∀ d, (State.reset.dieMgmt d).throttle = 16) ∧ (∀ c, (State.reset.core c).drowsy = List.range 16)
  ∧ State.reset.groups = [] ∧ State.reset.teams = [] ∧ State.reset.launches = [] ∧ State.reset.queues = []
  ∧ MemoryCanonical State.reset

end
end

