-- ==== Sys2Proof/Laws/Arms.lean ====
section
/-!
SUPPORT. The meaning that exec gives each instruction, so that no proof need unfold exec's whole match.
-/

namespace Sys2Proof.Machine

set_option Elab.async false

@[simp] theorem exec_vaddI d a b (s : State) : exec (.vaddI d a b) s = execVaddI d a b s := rfl
@[simp] theorem exec_vsubI d a b (s : State) : exec (.vsubI d a b) s = execVsubI d a b s := rfl
@[simp] theorem exec_vmullo d a b (s : State) : exec (.vmullo d a b) s = execVmullo d a b s := rfl
@[simp] theorem exec_vmulhiS d a b (s : State) : exec (.vmulhiS d a b) s = execVmulhiS d a b s := rfl
@[simp] theorem exec_vmulhiZ d a b (s : State) : exec (.vmulhiZ d a b) s = execVmulhiZ d a b s := rfl
@[simp] theorem exec_vand d a b (s : State) : exec (.vand d a b) s = execVand d a b s := rfl
@[simp] theorem exec_vor d a b (s : State) : exec (.vor d a b) s = execVor d a b s := rfl
@[simp] theorem exec_vxor d a b (s : State) : exec (.vxor d a b) s = execVxor d a b s := rfl
@[simp] theorem exec_vshl d a b (s : State) : exec (.vshl d a b) s = execVshl d a b s := rfl
@[simp] theorem exec_vshrz d a b (s : State) : exec (.vshrz d a b) s = execVshrz d a b s := rfl
@[simp] theorem exec_vshrs d a b (s : State) : exec (.vshrs d a b) s = execVshrs d a b s := rfl
@[simp] theorem exec_vminS d a b (s : State) : exec (.vminS d a b) s = execVminS d a b s := rfl
@[simp] theorem exec_vmaxS d a b (s : State) : exec (.vmaxS d a b) s = execVmaxS d a b s := rfl
@[simp] theorem exec_vminZ d a b (s : State) : exec (.vminZ d a b) s = execVminZ d a b s := rfl
@[simp] theorem exec_vmaxZ d a b (s : State) : exec (.vmaxZ d a b) s = execVmaxZ d a b s := rfl
@[simp] theorem exec_vrotl d a b (s : State) : exec (.vrotl d a b) s = execVrotl d a b s := rfl
@[simp] theorem exec_vaddF d a b (s : State) : exec (.vaddF d a b) s = execVaddF d a b s := rfl
@[simp] theorem exec_vsubF d a b (s : State) : exec (.vsubF d a b) s = execVsubF d a b s := rfl
@[simp] theorem exec_vmulF d a b (s : State) : exec (.vmulF d a b) s = execVmulF d a b s := rfl
@[simp] theorem exec_vfmaF d a b (s : State) : exec (.vfmaF d a b) s = execVfmaF d a b s := rfl
@[simp] theorem exec_vfnmaF d a b (s : State) : exec (.vfnmaF d a b) s = execVfnmaF d a b s := rfl
@[simp] theorem exec_vminF d a b (s : State) : exec (.vminF d a b) s = execVminF d a b s := rfl
@[simp] theorem exec_vmaxF d a b (s : State) : exec (.vmaxF d a b) s = execVmaxF d a b s := rfl
@[simp] theorem exec_vcpsgn d a b (s : State) : exec (.vcpsgn d a b) s = execVcpsgn d a b s := rfl
@[simp] theorem exec_vaddH d a b (s : State) : exec (.vaddH d a b) s = execVaddH d a b s := rfl
@[simp] theorem exec_vmulH d a b (s : State) : exec (.vmulH d a b) s = execVmulH d a b s := rfl
@[simp] theorem exec_vfmaH d a b (s : State) : exec (.vfmaH d a b) s = execVfmaH d a b s := rfl
@[simp] theorem exec_vdot2H d a b (s : State) : exec (.vdot2H d a b) s = execVdot2H d a b s := rfl
@[simp] theorem exec_vaddBf d a b (s : State) : exec (.vaddBf d a b) s = execVaddBf d a b s := rfl
@[simp] theorem exec_vmulBf d a b (s : State) : exec (.vmulBf d a b) s = execVmulBf d a b s := rfl
@[simp] theorem exec_vfmaBf d a b (s : State) : exec (.vfmaBf d a b) s = execVfmaBf d a b s := rfl
@[simp] theorem exec_vdot2Bf d a b (s : State) : exec (.vdot2Bf d a b) s = execVdot2Bf d a b s := rfl
@[simp] theorem exec_vcmpEqF d a b (s : State) : exec (.vcmpEqF d a b) s = execVcmpEqF d a b s := rfl
@[simp] theorem exec_vcmpNeF d a b (s : State) : exec (.vcmpNeF d a b) s = execVcmpNeF d a b s := rfl
@[simp] theorem exec_vcmpLtF d a b (s : State) : exec (.vcmpLtF d a b) s = execVcmpLtF d a b s := rfl
@[simp] theorem exec_vcmpLeF d a b (s : State) : exec (.vcmpLeF d a b) s = execVcmpLeF d a b s := rfl
@[simp] theorem exec_vcmpGtF d a b (s : State) : exec (.vcmpGtF d a b) s = execVcmpGtF d a b s := rfl
@[simp] theorem exec_vcmpGeF d a b (s : State) : exec (.vcmpGeF d a b) s = execVcmpGeF d a b s := rfl
@[simp] theorem exec_vcmpUnF d a b (s : State) : exec (.vcmpUnF d a b) s = execVcmpUnF d a b s := rfl
@[simp] theorem exec_vcmpOrF d a b (s : State) : exec (.vcmpOrF d a b) s = execVcmpOrF d a b s := rfl
@[simp] theorem exec_vcmpEqI d a b (s : State) : exec (.vcmpEqI d a b) s = execVcmpEqI d a b s := rfl
@[simp] theorem exec_vcmpNeI d a b (s : State) : exec (.vcmpNeI d a b) s = execVcmpNeI d a b s := rfl
@[simp] theorem exec_vcmpLtS d a b (s : State) : exec (.vcmpLtS d a b) s = execVcmpLtS d a b s := rfl
@[simp] theorem exec_vcmpLeS d a b (s : State) : exec (.vcmpLeS d a b) s = execVcmpLeS d a b s := rfl
@[simp] theorem exec_vcmpLtZ d a b (s : State) : exec (.vcmpLtZ d a b) s = execVcmpLtZ d a b s := rfl
@[simp] theorem exec_vcmpLeZ d a b (s : State) : exec (.vcmpLeZ d a b) s = execVcmpLeZ d a b s := rfl
@[simp] theorem exec_vcmpTst d a b (s : State) : exec (.vcmpTst d a b) s = execVcmpTst d a b s := rfl
@[simp] theorem exec_vcmpNtst d a b (s : State) : exec (.vcmpNtst d a b) s = execVcmpNtst d a b s := rfl
@[simp] theorem exec_vaddi d a i (s : State) : exec (.vaddi d a i) s = execVaddi d a i s := rfl
@[simp] theorem exec_vandi d a i (s : State) : exec (.vandi d a i) s = execVandi d a i s := rfl
@[simp] theorem exec_vori d a i (s : State) : exec (.vori d a i) s = execVori d a i s := rfl
@[simp] theorem exec_vxori d a i (s : State) : exec (.vxori d a i) s = execVxori d a i s := rfl
@[simp] theorem exec_vshli d a i (s : State) : exec (.vshli d a i) s = execVshli d a i s := rfl
@[simp] theorem exec_vshrzi d a i (s : State) : exec (.vshrzi d a i) s = execVshrzi d a i s := rfl
@[simp] theorem exec_vshrsi d a i (s : State) : exec (.vshrsi d a i) s = execVshrsi d a i s := rfl
@[simp] theorem exec_vmuli d a i (s : State) : exec (.vmuli d a i) s = execVmuli d a i s := rfl
@[simp] theorem exec_vcvt d a (s : State) : exec (.vcvt d a) s = execVcvt d a s := rfl
@[simp] theorem exec_vcvtfS d a (s : State) : exec (.vcvtfS d a) s = execVcvtfS d a s := rfl
@[simp] theorem exec_vcvtsF d a (s : State) : exec (.vcvtsF d a) s = execVcvtsF d a s := rfl
@[simp] theorem exec_vcvtfZ d a (s : State) : exec (.vcvtfZ d a) s = execVcvtfZ d a s := rfl
@[simp] theorem exec_vcvtzF d a (s : State) : exec (.vcvtzF d a) s = execVcvtzF d a s := rfl
@[simp] theorem exec_vpkbx8 d a (s : State) : exec (.vpkbx8 d a) s = execVpkbx8 d a s := rfl
@[simp] theorem exec_vupbx8 d a (s : State) : exec (.vupbx8 d a) s = execVupbx8 d a s := rfl
@[simp] theorem exec_vpkbx4 d a (s : State) : exec (.vpkbx4 d a) s = execVpkbx4 d a s := rfl
@[simp] theorem exec_vupbx4 d a (s : State) : exec (.vupbx4 d a) s = execVupbx4 d a s := rfl
@[simp] theorem exec_vpkf8 d a (s : State) : exec (.vpkf8 d a) s = execVpkf8 d a s := rfl
@[simp] theorem exec_vupf8 d a (s : State) : exec (.vupf8 d a) s = execVupf8 d a s := rfl
@[simp] theorem exec_vrcp d a (s : State) : exec (.vrcp d a) s = execVrcp d a s := rfl
@[simp] theorem exec_vrsq d a (s : State) : exec (.vrsq d a) s = execVrsq d a s := rfl
@[simp] theorem exec_vsqrt d a (s : State) : exec (.vsqrt d a) s = execVsqrt d a s := rfl
@[simp] theorem exec_vexp2 d a (s : State) : exec (.vexp2 d a) s = execVexp2 d a s := rfl
@[simp] theorem exec_vlog2 d a (s : State) : exec (.vlog2 d a) s = execVlog2 d a s := rfl
@[simp] theorem exec_vsinpi d a (s : State) : exec (.vsinpi d a) s = execVsinpi d a s := rfl
@[simp] theorem exec_vcospi d a (s : State) : exec (.vcospi d a) s = execVcospi d a s := rfl
@[simp] theorem exec_vtanh d a (s : State) : exec (.vtanh d a) s = execVtanh d a s := rfl
@[simp] theorem exec_vabsF d a (s : State) : exec (.vabsF d a) s = execVabsF d a s := rfl
@[simp] theorem exec_vnegF d a (s : State) : exec (.vnegF d a) s = execVnegF d a s := rfl
@[simp] theorem exec_vfloor d a (s : State) : exec (.vfloor d a) s = execVfloor d a s := rfl
@[simp] theorem exec_vfract d a (s : State) : exec (.vfract d a) s = execVfract d a s := rfl
@[simp] theorem exec_vabsI d a (s : State) : exec (.vabsI d a) s = execVabsI d a s := rfl
@[simp] theorem exec_vnegI d a (s : State) : exec (.vnegI d a) s = execVnegI d a s := rfl
@[simp] theorem exec_vnot d a (s : State) : exec (.vnot d a) s = execVnot d a s := rfl
@[simp] theorem exec_vpopc d a (s : State) : exec (.vpopc d a) s = execVpopc d a s := rfl
@[simp] theorem exec_vclz d a (s : State) : exec (.vclz d a) s = execVclz d a s := rfl
@[simp] theorem exec_vbrev d a (s : State) : exec (.vbrev d a) s = execVbrev d a s := rfl
@[simp] theorem exec_vshfl d a b (s : State) : exec (.vshfl d a b) s = execVshfl d a b s := rfl
@[simp] theorem exec_vshflx d a i (s : State) : exec (.vshflx d a i) s = execVshflx d a i s := rfl
@[simp] theorem exec_vshflup d a i (s : State) : exec (.vshflup d a i) s = execVshflup d a i s := rfl
@[simp] theorem exec_vshfldn d a i (s : State) : exec (.vshfldn d a i) s = execVshfldn d a i s := rfl
@[simp] theorem exec_vbcast d a i (s : State) : exec (.vbcast d a i) s = execVbcast d a i s := rfl
@[simp] theorem exec_vraddF d a (s : State) : exec (.vraddF d a) s = execVraddF d a s := rfl
@[simp] theorem exec_vrmaxF d a (s : State) : exec (.vrmaxF d a) s = execVrmaxF d a s := rfl
@[simp] theorem exec_vscanF d a (s : State) : exec (.vscanF d a) s = execVscanF d a s := rfl
@[simp] theorem exec_vbcs d sc (s : State) : exec (.vbcs d sc) s = execVbcs d sc s := rfl
@[simp] theorem exec_vmovsl a sc i (s : State) : exec (.vmovsl a sc i) s = execVmovsl a sc i s := rfl
@[simp] theorem exec_vlaneid d (s : State) : exec (.vlaneid d) s = execVlaneid d s := rfl
@[simp] theorem exec_vsetl d sc i (s : State) : exec (.vsetl d sc i) s = execVsetl d sc i s := rfl
@[simp] theorem exec_sadd d a b (s : State) : exec (.sadd d a b) s = execSadd d a b s := rfl
@[simp] theorem exec_ssub d a b (s : State) : exec (.ssub d a b) s = execSsub d a b s := rfl
@[simp] theorem exec_smul d a b (s : State) : exec (.smul d a b) s = execSmul d a b s := rfl
@[simp] theorem exec_smulhs d a b (s : State) : exec (.smulhs d a b) s = execSmulhs d a b s := rfl
@[simp] theorem exec_smulhz d a b (s : State) : exec (.smulhz d a b) s = execSmulhz d a b s := rfl
@[simp] theorem exec_sand d a b (s : State) : exec (.sand d a b) s = execSand d a b s := rfl
@[simp] theorem exec_sor d a b (s : State) : exec (.sor d a b) s = execSor d a b s := rfl
@[simp] theorem exec_sxor d a b (s : State) : exec (.sxor d a b) s = execSxor d a b s := rfl
@[simp] theorem exec_sandn d a b (s : State) : exec (.sandn d a b) s = execSandn d a b s := rfl
@[simp] theorem exec_sshl d a b (s : State) : exec (.sshl d a b) s = execSshl d a b s := rfl
@[simp] theorem exec_sshrz d a b (s : State) : exec (.sshrz d a b) s = execSshrz d a b s := rfl
@[simp] theorem exec_sshrs d a b (s : State) : exec (.sshrs d a b) s = execSshrs d a b s := rfl
@[simp] theorem exec_smins d a b (s : State) : exec (.smins d a b) s = execSmins d a b s := rfl
@[simp] theorem exec_smaxs d a b (s : State) : exec (.smaxs d a b) s = execSmaxs d a b s := rfl
@[simp] theorem exec_sminz d a b (s : State) : exec (.sminz d a b) s = execSminz d a b s := rfl
@[simp] theorem exec_smaxz d a b (s : State) : exec (.smaxz d a b) s = execSmaxz d a b s := rfl
@[simp] theorem exec_sslts d a b (s : State) : exec (.sslts d a b) s = execSslts d a b s := rfl
@[simp] theorem exec_ssltz d a b (s : State) : exec (.ssltz d a b) s = execSsltz d a b s := rfl
@[simp] theorem exec_sseq d a b (s : State) : exec (.sseq d a b) s = execSseq d a b s := rfl
@[simp] theorem exec_spopc d a (s : State) : exec (.spopc d a) s = execSpopc d a s := rfl
@[simp] theorem exec_sctz d a (s : State) : exec (.sctz d a) s = execSctz d a s := rfl
@[simp] theorem exec_sclz d a (s : State) : exec (.sclz d a) s = execSclz d a s := rfl
@[simp] theorem exec_sbfe d a b (s : State) : exec (.sbfe d a b) s = execSbfe d a b s := rfl
@[simp] theorem exec_sbfi d a b (s : State) : exec (.sbfi d a b) s = execSbfi d a b s := rfl
@[simp] theorem exec_sadd64 d a b (s : State) : exec (.sadd64 d a b) s = execSadd64 d a b s := rfl
@[simp] theorem exec_ssub64 d a b (s : State) : exec (.ssub64 d a b) s = execSsub64 d a b s := rfl
@[simp] theorem exec_sshl64 d a b (s : State) : exec (.sshl64 d a b) s = execSshl64 d a b s := rfl
@[simp] theorem exec_sshrz64 d a b (s : State) : exec (.sshrz64 d a b) s = execSshrz64 d a b s := rfl
@[simp] theorem exec_ssel d a b (s : State) : exec (.ssel d a b) s = execSsel d a b s := rfl
@[simp] theorem exec_saddi d a i (s : State) : exec (.saddi d a i) s = execSaddi d a i s := rfl
@[simp] theorem exec_sandi d a i (s : State) : exec (.sandi d a i) s = execSandi d a i s := rfl
@[simp] theorem exec_sori d a i (s : State) : exec (.sori d a i) s = execSori d a i s := rfl
@[simp] theorem exec_sxori d a i (s : State) : exec (.sxori d a i) s = execSxori d a i s := rfl
@[simp] theorem exec_slui d i (s : State) : exec (.slui d i) s = execSlui d i s := rfl
@[simp] theorem exec_dly a i (s : State) : exec (.dly a i) s = execDly a i s := rfl
@[simp] theorem exec_srd d x (s : State) : exec (.srd d x) s = execSrd d x s := rfl
@[simp] theorem exec_swr a x (s : State) : exec (.swr a x) s = execSwr a x s := rfl
@[simp] theorem exec_sexec a (s : State) : exec (.sexec a) s = execSexec a s := rfl
@[simp] theorem exec_sexecand a (s : State) : exec (.sexecand a) s = execSexecand a s := rfl
@[simp] theorem exec_sexecandn a (s : State) : exec (.sexecandn a) s = execSexecandn a s := rfl
@[simp] theorem exec_sgetexec d (s : State) : exec (.sgetexec d) s = execSgetexec d s := rfl
@[simp] theorem exec_fmtset a (s : State) : exec (.fmtset a) s = execFmtset a s := rfl
@[simp] theorem exec_fmtget d (s : State) : exec (.fmtget d) s = execFmtget d s := rfl
@[simp] theorem exec_jmpr a (s : State) : exec (.jmpr a) s = execJmpr a s := rfl
@[simp] theorem exec_callr a (s : State) : exec (.callr a) s = execCallr a s := rfl
@[simp] theorem exec_trap i (s : State) : exec (.trap i) s = execTrap i s := rfl
@[simp] theorem exec_brk i (s : State) : exec (.brk i) s = execBrk i s := rfl
@[simp] theorem exec_launch a b (s : State) : exec (.launch a b) s = execLaunch a b s := rfl
@[simp] theorem exec_gset g v (s : State) : exec (.gset g v) s = execGset g v s := rfl
@[simp] theorem exec_gclr g (s : State) : exec (.gclr g) s = execGclr g s := rfl
@[simp] theorem exec_brAlways o (s : State) : exec (.brAlways o) s = execBrAlways o s := rfl
@[simp] theorem exec_brSz a o (s : State) : exec (.brSz a o) s = execBrSz a o s := rfl
@[simp] theorem exec_brSnz a o (s : State) : exec (.brSnz a o) s = execBrSnz a o s := rfl
@[simp] theorem exec_brSneg a o (s : State) : exec (.brSneg a o) s = execBrSneg a o s := rfl
@[simp] theorem exec_brSnneg a o (s : State) : exec (.brSnneg a o) s = execBrSnneg a o s := rfl
@[simp] theorem exec_brExecz o (s : State) : exec (.brExecz o) s = execBrExecz o s := rfl
@[simp] theorem exec_brExecnz o (s : State) : exec (.brExecnz o) s = execBrExecnz o s := rfl
@[simp] theorem exec_brExecall o (s : State) : exec (.brExecall o) s = execBrExecall o s := rfl
@[simp] theorem exec_dbr a o (s : State) : exec (.dbr a o) s = execDbr a o s := rfl
@[simp] theorem exec_dbrT a o (s : State) : exec (.dbrT a o) s = execDbrT a o s := rfl
@[simp] theorem exec_call o (s : State) : exec (.call o) s = execCall o s := rfl
@[simp] theorem exec_loop a i e (s : State) : exec (.loop a i e) s = execLoop a i e s := rfl
@[simp] theorem exec_ld d b o w h x (s : State) : exec (.ld d b o w h x) s = execLd d b o w h x s := rfl
@[simp] theorem exec_st d b o w h (s : State) : exec (.st d b o w h) s = execSt d b o w h s := rfl
@[simp] theorem exec_atomAdd d b o sc (s : State) : exec (.atomAdd d b o sc) s = execAtomAdd d b o sc s := rfl
@[simp] theorem exec_atomMinS d b o sc (s : State) : exec (.atomMinS d b o sc) s = execAtomMinS d b o sc s := rfl
@[simp] theorem exec_atomMaxS d b o sc (s : State) : exec (.atomMaxS d b o sc) s = execAtomMaxS d b o sc s := rfl
@[simp] theorem exec_atomMinZ d b o sc (s : State) : exec (.atomMinZ d b o sc) s = execAtomMinZ d b o sc s := rfl
@[simp] theorem exec_atomMaxZ d b o sc (s : State) : exec (.atomMaxZ d b o sc) s = execAtomMaxZ d b o sc s := rfl
@[simp] theorem exec_atomAnd d b o sc (s : State) : exec (.atomAnd d b o sc) s = execAtomAnd d b o sc s := rfl
@[simp] theorem exec_atomOr d b o sc (s : State) : exec (.atomOr d b o sc) s = execAtomOr d b o sc s := rfl
@[simp] theorem exec_atomXor d b o sc (s : State) : exec (.atomXor d b o sc) s = execAtomXor d b o sc s := rfl
@[simp] theorem exec_atomXchg d b o sc (s : State) : exec (.atomXchg d b o sc) s = execAtomXchg d b o sc s := rfl
@[simp] theorem exec_atomCas d b o sc (s : State) : exec (.atomCas d b o sc) s = execAtomCas d b o sc s := rfl
@[simp] theorem exec_atomAddF d b o sc (s : State) : exec (.atomAddF d b o sc) s = execAtomAddF d b o sc s := rfl
@[simp] theorem exec_atomMaxF d b o sc (s : State) : exec (.atomMaxF d b o sc) s = execAtomMaxF d b o sc s := rfl
@[simp] theorem exec_atomMinF d b o sc (s : State) : exec (.atomMinF d b o sc) s = execAtomMinF d b o sc s := rfl
@[simp] theorem exec_sld d b i (s : State) : exec (.sld d b i) s = execSld d b i s := rfl
@[simp] theorem exec_sld64 d b i (s : State) : exec (.sld64 d b i) s = execSld64 d b i s := rfl
@[simp] theorem exec_sst d b i (s : State) : exec (.sst d b i) s = execSst d b i s := rfl
@[simp] theorem exec_sst64 d b i (s : State) : exec (.sst64 d b i) s = execSst64 d b i s := rfl
@[simp] theorem exec_satadd d b i (s : State) : exec (.satadd d b i) s = execSatadd d b i s := rfl
@[simp] theorem exec_satcas d b i (s : State) : exec (.satcas d b i) s = execSatcas d b i s := rfl
@[simp] theorem exec_spollne d b i (s : State) : exec (.spollne d b i) s = execSpollne d b i s := rfl
@[simp] theorem exec_sldacq d b i (s : State) : exec (.sldacq d b i) s = execSldacq d b i s := rfl
@[simp] theorem exec_spld d a i (s : State) : exec (.spld d a i) s = execSpld d a i s := rfl
@[simp] theorem exec_spldq d a i (s : State) : exec (.spldq d a i) s = execSpldq d a i s := rfl
@[simp] theorem exec_spst d a i (s : State) : exec (.spst d a i) s = execSpst d a i s := rfl
@[simp] theorem exec_spstq d a i (s : State) : exec (.spstq d a i) s = execSpstq d a i s := rfl
@[simp] theorem exec_vtaglk d a i (s : State) : exec (.vtaglk d a i) s = execVtaglk d a i s := rfl
@[simp] theorem exec_tagset d a i (s : State) : exec (.tagset d a i) s = execTagset d a i s := rfl
@[simp] theorem exec_tagclr d a i (s : State) : exec (.tagclr d a i) s = execTagclr d a i s := rfl
@[simp] theorem exec_spatadd d a i (s : State) : exec (.spatadd d a i) s = execSpatadd d a i s := rfl
@[simp] theorem exec_spataddF d a i (s : State) : exec (.spataddF d a i) s = execSpataddF d a i s := rfl
@[simp] theorem exec_fence sc k (s : State) : exec (.fence sc k) s = execFence sc k s := rfl
@[simp] theorem exec_bara b (s : State) : exec (.bara b) s = execBara b s := rfl
@[simp] theorem exec_barw b (s : State) : exec (.barw b) s = execBarw b s := rfl
@[simp] theorem exec_bars b (s : State) : exec (.bars b) s = execBars b s := rfl
@[simp] theorem exec_gbar g (s : State) : exec (.gbar g) s = execGbar g s := rfl
@[simp] theorem exec_waitcnt p a (s : State) : exec (.waitcnt p a) s = execWaitcnt p a s := rfl
@[simp] theorem exec_waitk k (s : State) : exec (.waitk k) s = execWaitk k s := rfl
@[simp] theorem exec_xlate b a (s : State) : exec (.xlate b a) s = execXlate b a s := rfl
@[simp] theorem exec_xinv b (s : State) : exec (.xinv b) s = execXinv b s := rfl
@[simp] theorem exec_bari b a (s : State) : exec (.bari b a) s = execBari b a s := rfl
@[simp] theorem exec_qbind q n d (s : State) : exec (.qbind q n d) s = execQbind q n d s := rfl
@[simp] theorem exec_qget q r n (s : State) : exec (.qget q r n) s = execQget q r n s := rfl
@[simp] theorem exec_qput q r n (s : State) : exec (.qput q r n) s = execQput q r n s := rfl
@[simp] theorem exec_qtry q r n d (s : State) : exec (.qtry q r n d) s = execQtry q r n d s := rfl
@[simp] theorem exec_qtryp q r n d (s : State) : exec (.qtryp q r n d) s = execQtryp q r n d s := rfl
@[simp] theorem exec_qstat q d (s : State) : exec (.qstat q d) s = execQstat q d s := rfl
@[simp] theorem exec_qunbind q (s : State) : exec (.qunbind q) s = execQunbind q s := rfl
@[simp] theorem exec_cpy k b a g v (s : State) : exec (.cpy k b a g v) s = execCpy k b a g v s := rfl
@[simp] theorem exec_kstat k a (s : State) : exec (.kstat k a) s = execKstat k a s := rfl
@[simp] theorem exec_kbytes k a (s : State) : exec (.kbytes k a) s = execKbytes k a s := rfl
@[simp] theorem exec_kclr k (s : State) : exec (.kclr k) s = execKclr k s := rfl
@[simp] theorem exec_kreplay k (s : State) : exec (.kreplay k) s = execKreplay k s := rfl
@[simp] theorem exec_pld p v o (s : State) : exec (.pld p v o) s = execPld p v o s := rfl
@[simp] theorem exec_pst p v o (s : State) : exec (.pst p v o) s = execPst p v o s := rfl
@[simp] theorem exec_pstep p (s : State) : exec (.pstep p) s = execPstep p s := rfl
@[simp] theorem exec_pqry p v o (s : State) : exec (.pqry p v o) s = execPqry p v o s := rfl
@[simp] theorem exec_mma t a b (s : State) : exec (.mma t a b) s = execMma t a b s := rfl
@[simp] theorem exec_mzero t (s : State) : exec (.mzero t) s = execMzero t s := rfl
@[simp] theorem exec_mwaitb b (s : State) : exec (.mwaitb b) s = execMwaitb b s := rfl
@[simp] theorem exec_msigb b (s : State) : exec (.msigb b) s = execMsigb b s := rfl
@[simp] theorem exec_mloop c e (s : State) : exec (.mloop c e) s = execMloop c e s := rfl
@[simp] theorem exec_mfmt g (s : State) : exec (.mfmt g) s = execMfmt g s := rfl
@[simp] theorem exec_accrd t v r (s : State) : exec (.accrd t v r) s = execAccrd t v r s := rfl
@[simp] theorem exec_accwr t v r (s : State) : exec (.accwr t v r) s = execAccwr t v r s := rfl
@[simp] theorem exec_accrdc t v r (s : State) : exec (.accrdc t v r) s = execAccrdc t v r s := rfl
@[simp] theorem exec_ext x w2 (s : State) : exec (.ext x w2) s = execExt x w2 s := rfl
@[simp] theorem exec_vmov d a (s : State) : exec (.vmov d a) s = execVmov d a s := rfl
@[simp] theorem exec_vaddI16 d a (s : State) : exec (.vaddI16 d a) s = execVaddI16 d a s := rfl
@[simp] theorem exec_vsubI16 d a (s : State) : exec (.vsubI16 d a) s = execVsubI16 d a s := rfl
@[simp] theorem exec_vand16 d a (s : State) : exec (.vand16 d a) s = execVand16 d a s := rfl
@[simp] theorem exec_vor16 d a (s : State) : exec (.vor16 d a) s = execVor16 d a s := rfl
@[simp] theorem exec_vxor16 d a (s : State) : exec (.vxor16 d a) s = execVxor16 d a s := rfl
@[simp] theorem exec_vshl16 d a (s : State) : exec (.vshl16 d a) s = execVshl16 d a s := rfl
@[simp] theorem exec_vshrz16 d a (s : State) : exec (.vshrz16 d a) s = execVshrz16 d a s := rfl
@[simp] theorem exec_vaddF16 d a (s : State) : exec (.vaddF16 d a) s = execVaddF16 d a s := rfl
@[simp] theorem exec_vsubF16 d a (s : State) : exec (.vsubF16 d a) s = execVsubF16 d a s := rfl
@[simp] theorem exec_vmulF16 d a (s : State) : exec (.vmulF16 d a) s = execVmulF16 d a s := rfl
@[simp] theorem exec_vmaxF16 d a (s : State) : exec (.vmaxF16 d a) s = execVmaxF16 d a s := rfl
@[simp] theorem exec_vminF16 d a (s : State) : exec (.vminF16 d a) s = execVminF16 d a s := rfl
@[simp] theorem exec_vmullo16 d a (s : State) : exec (.vmullo16 d a) s = execVmullo16 d a s := rfl
@[simp] theorem exec_vshrs16 d a (s : State) : exec (.vshrs16 d a) s = execVshrs16 d a s := rfl
@[simp] theorem exec_vnot16 d a (s : State) : exec (.vnot16 d a) s = execVnot16 d a s := rfl
@[simp] theorem exec_nop (s : State) : exec (.nop) s = execNop s := rfl
@[simp] theorem exec_join (s : State) : exec (.join) s = execJoin s := rfl
@[simp] theorem exec_ret (s : State) : exec (.ret) s = execRet s := rfl
@[simp] theorem exec_endI (s : State) : exec (.endI) s = execEndI s := rfl
@[simp] theorem exec_commit (s : State) : exec (.commit) s = execCommit s := rfl
@[simp] theorem exec_eret (s : State) : exec (.eret) s = execEret s := rfl
@[simp] theorem exec_yield (s : State) : exec (.yield) s = execYield s := rfl
@[simp] theorem exec_backoff (s : State) : exec (.backoff) s = execBackoff s := rfl
@[simp] theorem exec_fpost (s : State) : exec (.fpost) s = execFpost s := rfl
@[simp] theorem exec_mend (s : State) : exec (.mend) s = execMend s := rfl
@[simp] theorem exec_mnop (s : State) : exec (.mnop) s = execMnop s := rfl
@[simp] theorem exec_checkPhaseEnd (s : State) : exec (.checkPhaseEnd) s = execCheckPhaseEnd s := rfl
@[simp] theorem exec_xlateFillEnd (s : State) : exec (.xlateFillEnd) s = execXlateFillEnd s := rfl
@[simp] theorem exec_icacheFill (s : State) : exec (.icacheFill) s = execIcacheFill s := rfl
@[simp] theorem exec_perform (s : State) : exec (.perform) s = execPerform s := rfl
@[simp] theorem exec_read (s : State) : exec (.read) s = execRead s := rfl
@[simp] theorem exec_atomic (s : State) : exec (.atomic) s = execAtomic s := rfl
@[simp] theorem exec_fill (s : State) : exec (.fill) s = execFill s := rfl
@[simp] theorem exec_evict (s : State) : exec (.evict) s = execEvict s := rfl
@[simp] theorem exec_pop (s : State) : exec (.pop) s = execPop s := rfl
@[simp] theorem exec_linkEntryReady (s : State) : exec (.linkEntryReady) s = execLinkEntryReady s := rfl
@[simp] theorem exec_spollneWindowEnd (s : State) : exec (.spollneWindowEnd) s = execSpollneWindowEnd s := rfl
@[simp] theorem exec_spollneReread (s : State) : exec (.spollneReread) s = execSpollneReread s := rfl
@[simp] theorem exec_dlyEnd (s : State) : exec (.dlyEnd) s = execDlyEnd s := rfl
@[simp] theorem exec_yieldEnd (s : State) : exec (.yieldEnd) s = execYieldEnd s := rfl
@[simp] theorem exec_groupEnd (s : State) : exec (.groupEnd) s = execGroupEnd s := rfl
@[simp] theorem exec_barrierOpen (s : State) : exec (.barrierOpen) s = execBarrierOpen s := rfl
@[simp] theorem exec_barrierWave (s : State) : exec (.barrierWave) s = execBarrierWave s := rfl
@[simp] theorem exec_gbarDieArrival (s : State) : exec (.gbarDieArrival) s = execGbarDieArrival s := rfl
@[simp] theorem exec_gbarRelease (s : State) : exec (.gbarRelease) s = execGbarRelease s := rfl
@[simp] theorem exec_swap (s : State) : exec (.swap) s = execSwap s := rfl
@[simp] theorem exec_heldEntryRelease (s : State) : exec (.heldEntryRelease) s = execHeldEntryRelease s := rfl
@[simp] theorem exec_reorderRelease (s : State) : exec (.reorderRelease) s = execReorderRelease s := rfl
@[simp] theorem exec_jobStart (s : State) : exec (.jobStart) s = execJobStart s := rfl
@[simp] theorem exec_jobRead (s : State) : exec (.jobRead) s = execJobRead s := rfl
@[simp] theorem exec_jobWrite (s : State) : exec (.jobWrite) s = execJobWrite s := rfl
@[simp] theorem exec_jobEnd (s : State) : exec (.jobEnd) s = execJobEnd s := rfl
@[simp] theorem exec_mmaRetire (s : State) : exec (.mmaRetire) s = execMmaRetire s := rfl
@[simp] theorem exec_leaseEnd (s : State) : exec (.leaseEnd) s = execLeaseEnd s := rfl
@[simp] theorem exec_ticketClaim (s : State) : exec (.ticketClaim) s = execTicketClaim s := rfl
@[simp] theorem exec_teamStart (s : State) : exec (.teamStart) s = execTeamStart s := rfl
@[simp] theorem exec_teamRetire (s : State) : exec (.teamRetire) s = execTeamRetire s := rfl
@[simp] theorem exec_expertFire (s : State) : exec (.expertFire) s = execExpertFire s := rfl
@[simp] theorem exec_expertAgeLimit (s : State) : exec (.expertAgeLimit) s = execExpertAgeLimit s := rfl
@[simp] theorem exec_fpostResume (s : State) : exec (.fpostResume) s = execFpostResume s := rfl
@[simp] theorem exec_parkReplay (s : State) : exec (.parkReplay) s = execParkReplay s := rfl
@[simp] theorem exec_faultBatchAge (s : State) : exec (.faultBatchAge) s = execFaultBatchAge s := rfl
@[simp] theorem exec_faultTimeout (s : State) : exec (.faultTimeout) s = execFaultTimeout s := rfl
@[simp] theorem exec_hostAbsence (s : State) : exec (.hostAbsence) s = execHostAbsence s := rfl
@[simp] theorem exec_firstTouchRequest (s : State) : exec (.firstTouchRequest) s = execFirstTouchRequest s := rfl
@[simp] theorem exec_firstTouchStatus (s : State) : exec (.firstTouchStatus) s = execFirstTouchStatus s := rfl
@[simp] theorem exec_capture (s : State) : exec (.capture) s = execCapture s := rfl
@[simp] theorem exec_notifyHoldExpiry (s : State) : exec (.notifyHoldExpiry) s = execNotifyHoldExpiry s := rfl
@[simp] theorem exec_msixUnmask (s : State) : exec (.msixUnmask) s = execMsixUnmask s := rfl
@[simp] theorem exec_notifyConsWrite (s : State) : exec (.notifyConsWrite) s = execNotifyConsWrite s := rfl
@[simp] theorem exec_faultRingConsWrite (s : State) : exec (.faultRingConsWrite) s = execFaultRingConsWrite s := rfl
@[simp] theorem exec_ncountWrite (s : State) : exec (.ncountWrite) s = execNcountWrite s := rfl
@[simp] theorem exec_nholdWrite (s : State) : exec (.nholdWrite) s = execNholdWrite s := rfl
@[simp] theorem exec_registerWrite (s : State) : exec (.registerWrite) s = execRegisterWrite s := rfl
@[simp] theorem exec_contextAdmit (s : State) : exec (.contextAdmit) s = execContextAdmit s := rfl
@[simp] theorem exec_contextAllocate (s : State) : exec (.contextAllocate) s = execContextAllocate s := rfl
@[simp] theorem exec_contextBind (s : State) : exec (.contextBind) s = execContextBind s := rfl
@[simp] theorem exec_contextDelete (s : State) : exec (.contextDelete) s = execContextDelete s := rfl
@[simp] theorem exec_mappingPageApply (s : State) : exec (.mappingPageApply) s = execMappingPageApply s := rfl
@[simp] theorem exec_mappingPageRelease (s : State) : exec (.mappingPageRelease) s = execMappingPageRelease s := rfl
@[simp] theorem exec_mappingPermNarrow (s : State) : exec (.mappingPermNarrow) s = execMappingPermNarrow s := rfl
@[simp] theorem exec_shootdownAck (s : State) : exec (.shootdownAck) s = execShootdownAck s := rfl
@[simp] theorem exec_queueAdmit (s : State) : exec (.queueAdmit) s = execQueueAdmit s := rfl
@[simp] theorem exec_handlePublish (s : State) : exec (.handlePublish) s = execHandlePublish s := rfl
@[simp] theorem exec_queueOpen (s : State) : exec (.queueOpen) s = execQueueOpen s := rfl
@[simp] theorem exec_queueClose (s : State) : exec (.queueClose) s = execQueueClose s := rfl
@[simp] theorem exec_queueRelease (s : State) : exec (.queueRelease) s = execQueueRelease s := rfl
@[simp] theorem exec_queueEndAdmission (s : State) : exec (.queueEndAdmission) s = execQueueEndAdmission s := rfl
@[simp] theorem exec_expertQueueDelete (s : State) : exec (.expertQueueDelete) s = execExpertQueueDelete s := rfl
@[simp] theorem exec_linkAdmit (s : State) : exec (.linkAdmit) s = execLinkAdmit s := rfl
@[simp] theorem exec_linkConnect (s : State) : exec (.linkConnect) s = execLinkConnect s := rfl
@[simp] theorem exec_programAdmit (s : State) : exec (.programAdmit) s = execProgramAdmit s := rfl
@[simp] theorem exec_selectVariant (s : State) : exec (.selectVariant) s = execSelectVariant s := rfl
@[simp] theorem exec_loadImage (s : State) : exec (.loadImage) s = execLoadImage s := rfl
@[simp] theorem exec_bindQueues (s : State) : exec (.bindQueues) s = execBindQueues s := rfl
@[simp] theorem exec_programLaunch (s : State) : exec (.programLaunch) s = execProgramLaunch s := rfl
@[simp] theorem exec_chainMove (s : State) : exec (.chainMove) s = execChainMove s := rfl
@[simp] theorem exec_chainMoveDone (s : State) : exec (.chainMoveDone) s = execChainMoveDone s := rfl
@[simp] theorem exec_pauseStep (s : State) : exec (.pauseStep) s = execPauseStep s := rfl
@[simp] theorem exec_unpauseStep (s : State) : exec (.unpauseStep) s = execUnpauseStep s := rfl
@[simp] theorem exec_preempt (s : State) : exec (.preempt) s = execPreempt s := rfl
@[simp] theorem exec_teamResume (s : State) : exec (.teamResume) s = execTeamResume s := rfl
@[simp] theorem exec_migrationCycle (s : State) : exec (.migrationCycle) s = execMigrationCycle s := rfl
@[simp] theorem exec_moveDone (s : State) : exec (.moveDone) s = execMoveDone s := rfl
@[simp] theorem exec_lockHoldExpiry (s : State) : exec (.lockHoldExpiry) s = execLockHoldExpiry s := rfl
@[simp] theorem exec_hostWarmRestart (s : State) : exec (.hostWarmRestart) s = execHostWarmRestart s := rfl
@[simp] theorem exec_hostWrite (s : State) : exec (.hostWrite) s = execHostWrite s := rfl
@[simp] theorem exec_hostRead (s : State) : exec (.hostRead) s = execHostRead s := rfl
@[simp] theorem exec_keyset (s : State) : exec (.keyset) s = execKeyset s := rfl
@[simp] theorem exec_dbgHalt (s : State) : exec (.dbgHalt) s = execDbgHalt s := rfl
@[simp] theorem exec_dbgRead (s : State) : exec (.dbgRead) s = execDbgRead s := rfl
@[simp] theorem exec_dbgWrite (s : State) : exec (.dbgWrite) s = execDbgWrite s := rfl
@[simp] theorem exec_dbgStep (s : State) : exec (.dbgStep) s = execDbgStep s := rfl
@[simp] theorem exec_dbgResume (s : State) : exec (.dbgResume) s = execDbgResume s := rfl
@[simp] theorem exec_fwstage (s : State) : exec (.fwstage) s = execFwstage s := rfl
@[simp] theorem exec_spdmSign (s : State) : exec (.spdmSign) s = execSpdmSign s := rfl
@[simp] theorem exec_portLossOfLock (s : State) : exec (.portLossOfLock) s = execPortLossOfLock s := rfl
@[simp] theorem exec_linkDown (s : State) : exec (.linkDown) s = execLinkDown s := rfl
@[simp] theorem exec_inboundRemoteJob (s : State) : exec (.inboundRemoteJob) s = execInboundRemoteJob s := rfl
@[simp] theorem exec_inboundAccess (s : State) : exec (.inboundAccess) s = execInboundAccess s := rfl
@[simp] theorem exec_streamPacket (s : State) : exec (.streamPacket) s = execStreamPacket s := rfl
@[simp] theorem exec_streamDeadline (s : State) : exec (.streamDeadline) s = execStreamDeadline s := rfl
@[simp] theorem exec_gleanerScrub (s : State) : exec (.gleanerScrub) s = execGleanerScrub s := rfl
@[simp] theorem exec_trimWindowEnd (s : State) : exec (.trimWindowEnd) s = execTrimWindowEnd s := rfl
@[simp] theorem exec_barendExpiry (s : State) : exec (.barendExpiry) s = execBarendExpiry s := rfl
@[simp] theorem exec_nearThresholdEntry (s : State) : exec (.nearThresholdEntry) s = execNearThresholdEntry s := rfl
@[simp] theorem exec_nearThresholdExit (s : State) : exec (.nearThresholdExit) s = execNearThresholdExit s := rfl
@[simp] theorem exec_bankDrowsy (s : State) : exec (.bankDrowsy) s = execBankDrowsy s := rfl
@[simp] theorem exec_bankWake (s : State) : exec (.bankWake) s = execBankWake s := rfl
@[simp] theorem exec_sensorSample (s : State) : exec (.sensorSample) s = execSensorSample s := rfl
@[simp] theorem exec_throttleStep (s : State) : exec (.throttleStep) s = execThrottleStep s := rfl
@[simp] theorem exec_droopAlarm (s : State) : exec (.droopAlarm) s = execDroopAlarm s := rfl
@[simp] theorem exec_droopRestore (s : State) : exec (.droopRestore) s = execDroopRestore s := rfl
@[simp] theorem exec_firmwareException (s : State) : exec (.firmwareException) s = execFirmwareException s := rfl
@[simp] theorem exec_coldReset (s : State) : exec (.coldReset) s = execColdReset s := rfl
@[simp] theorem exec_powerOn (s : State) : exec (.powerOn) s = execPowerOn s := rfl
@[simp] theorem exec_illegalInstruction (s : State) : exec (.illegalInstruction) s = execIllegalInstruction s := rfl
@[simp] theorem exec_writeLands (s : State) : exec (.writeLands) s = execWriteLands s := rfl
@[simp] theorem exec_ptpLock (s : State) : exec (.ptpLock) s = execPtpLock s := rfl
@[simp] theorem exec_ptpLockLoss (s : State) : exec (.ptpLockLoss) s = execPtpLockLoss s := rfl
@[simp] theorem exec_retrainingDone (s : State) : exec (.retrainingDone) s = execRetrainingDone s := rfl
@[simp] theorem exec_formPolicyChoice (s : State) : exec (.formPolicyChoice) s = execFormPolicyChoice s := rfl
@[simp] theorem exec_deletionStep (s : State) : exec (.deletionStep) s = execDeletionStep s := rfl
@[simp] theorem exec_thermalResetRelease (s : State) : exec (.thermalResetRelease) s = execThermalResetRelease s := rfl
@[simp] theorem exec_tdispRequest (s : State) : exec (.tdispRequest) s = execTdispRequest s := rfl

end Sys2Proof.Machine
end

