-- ==== Sys2Proof/Laws/Issue.lean ====
section
/-!
SUPPORT. What the shared operations of an issue answer: the checks of R18 and the end of an instruction.
-/

namespace Sys2Proof.Machine

theorem withGroup_of_issues {s : State} {q : Issue} {g : Group} (h : Issues s q g) (k : Issue → Group → State) :
    withGroup s k = .next (k q g) := by
  simp [withGroup, h.issue, h.who, h.group, h.clear]

theorem withStream_of_issues {s : State} {q : Issue} {t : Team} {m : Stream} (h : StreamIssues s q t m)
    (k : Team → Stream → State) : withStream s k = .next (k t m) := by
  simp [withStream, h.issue, h.who, h.team, h.stream]

theorem common_of_usable {g : Group} {u : Uses} (h : Usable g u) : g.common u = none := by
  have hb : u.vN.any (fun r => decide (g.v.length ≤ r)) = false := by
    simpa using h.budget
  have hf : (g.fold && u.sN.any fun r => decide (15 < r)) = false := by
    cases hg : g.fold
    · rfl
    · simpa [hg] using h.fold hg
  have hs : (g.schk && (u.vR.any g.busyV || u.sR.any g.busyS)) = false := by
    cases hg : g.schk
    · rfl
    · have h1 := h.vector hg
      have h2 := h.scalar hg
      simp only [Bool.true_and, Bool.or_eq_false_iff, List.any_eq_false, Bool.not_eq_true]
      exact ⟨h1, h2⟩
  simp only [Group.common, hb, hf, hs, Bool.false_eq_true, if_false]

/-- An instruction that names no register may always use them. -/
theorem usable_none (g : Group) : Usable g usesNone :=
  ⟨by simp [usesNone], by simp [usesNone], by simp [usesNone], by simp [usesNone]⟩

theorem instr_of_usable {s : State} {q : Issue} {g : Group} {u : Uses} (h : Issues s q g) (hu : Usable g u)
    (more : Issue → Group → Option Nat) (eff : Issue → Group → State) :
    instr s u more eff = .next (match more q g with
      | some c => s.trap g c
      | none => eff q g) := by
  simp only [instr, withGroup_of_issues h, common_of_usable hu] <;> rfl

/-- An instruction whose further checks pass has its effect. -/
theorem instr_runs {s : State} {q : Issue} {g : Group} {u : Uses} (h : Issues s q g) (hu : Usable g u)
    {more : Issue → Group → Option Nat} (eff : Issue → Group → State) (hm : more q g = none) :
    instr s u more eff = .next (eff q g) := by
  simp [instr_of_usable h hu, hm]

/-- An instruction that a further check refuses traps. -/
theorem instr_traps {s : State} {q : Issue} {g : Group} {u : Uses} (h : Issues s q g) (hu : Usable g u)
    {more : Issue → Group → Option Nat} (eff : Issue → Group → State) {c : Nat} (hm : more q g = some c) :
    instr s u more eff = .next (s.trap g c) := by
  simp [instr_of_usable h hu, hm]

theorem plain_runs {s : State} {q : Issue} {g : Group} {u : Uses} (h : Issues s q g) (hu : Usable g u)
    {more : Issue → Group → Option Nat} (eff : Issue → Group → Group) (hm : more q g = none) :
    plain s u more eff = .next (s.putGroup ((eff q g).onward s.clk q)) := instr_runs h hu _ hm

theorem plain_traps {s : State} {q : Issue} {g : Group} {u : Uses} (h : Issues s q g) (hu : Usable g u)
    {more : Issue → Group → Option Nat} (eff : Issue → Group → Group) {c : Nat} (hm : more q g = some c) :
    plain s u more eff = .next (s.trap g c) := instr_traps h hu _ hm

theorem transfer_runs {s : State} {q : Issue} {g : Group} {u : Uses} (h : Issues s q g) (hu : Usable g u)
    {more : Issue → Group → Option Nat} (eff : Issue → Group → Group) (hm : more q g = none) :
    transfer s u more eff = .next (s.putGroup ((eff q g).stamp s.clk q.sc)) := instr_runs h hu _ hm

theorem transfer_traps {s : State} {q : Issue} {g : Group} {u : Uses} (h : Issues s q g) (hu : Usable g u)
    {more : Issue → Group → Option Nat} (eff : Issue → Group → Group) {c : Nat} (hm : more q g = some c) :
    transfer s u more eff = .next (s.trap g c) := instr_traps h hu _ hm

end Sys2Proof.Machine
end

