-- ==== Sys2Proof/Laws/State.lean ====
section
/-!
SUPPORT. Every field of the state after each update of one object, so that no later proof unfolds an update.
-/

namespace Sys2Proof.Machine

set_option Elab.async false

@[simp] theorem State.putGroup_clk (s : State) (g : Group) : (s.putGroup g).clk = s.clk := rfl
@[simp] theorem State.putGroup_code (s : State) (g : Group) : (s.putGroup g).code = s.code := rfl
@[simp] theorem State.putGroup_defect (s : State) (g : Group) : (s.putGroup g).defect = s.defect := rfl
@[simp] theorem State.putGroup_opStep (s : State) (g : Group) : (s.putGroup g).opStep = s.opStep := rfl
@[simp] theorem State.putGroup_nextId (s : State) (g : Group) : (s.putGroup g).nextId = s.nextId := rfl
@[simp] theorem State.putGroup_freeCount (s : State) (g : Group) : (s.putGroup g).freeCount = s.freeCount := rfl
@[simp] theorem State.putGroup_issue (s : State) (g : Group) : (s.putGroup g).issue = s.issue := rfl
@[simp] theorem State.putGroup_arg (s : State) (g : Group) : (s.putGroup g).arg = s.arg := rfl
@[simp] theorem State.putGroup_sched (s : State) (g : Group) : (s.putGroup g).sched = s.sched := rfl
@[simp] theorem State.putGroup_dev (s : State) (g : Group) : (s.putGroup g).dev = s.dev := rfl
@[simp] theorem State.putGroup_hostMem (s : State) (g : Group) : (s.putGroup g).hostMem = s.hostMem := rfl
@[simp] theorem State.putGroup_peers (s : State) (g : Group) : (s.putGroup g).peers = s.peers := rfl
@[simp] theorem State.putGroup_devPoison (s : State) (g : Group) : (s.putGroup g).devPoison = s.devPoison := rfl
@[simp] theorem State.putGroup_hostPoison (s : State) (g : Group) : (s.putGroup g).hostPoison = s.hostPoison := rfl
@[simp] theorem State.putGroup_peerPoison (s : State) (g : Group) : (s.putGroup g).peerPoison = s.peerPoison := rfl
@[simp] theorem State.putGroup_co (s : State) (g : Group) : (s.putGroup g).co = s.co := rfl
@[simp] theorem State.putGroup_stores (s : State) (g : Group) : (s.putGroup g).stores = s.stores := rfl
@[simp] theorem State.putGroup_l1 (s : State) (g : Group) : (s.putGroup g).l1 = s.l1 := rfl
@[simp] theorem State.putGroup_groups (s : State) (g : Group) : (s.putGroup g).groups = putKey Group.gid g s.groups := rfl
@[simp] theorem State.putGroup_teams (s : State) (g : Group) : (s.putGroup g).teams = s.teams := rfl
@[simp] theorem State.putGroup_cores (s : State) (g : Group) : (s.putGroup g).cores = s.cores := rfl
@[simp] theorem State.putGroup_jobs (s : State) (g : Group) : (s.putGroup g).jobs = s.jobs := rfl
@[simp] theorem State.putGroup_chains (s : State) (g : Group) : (s.putGroup g).chains = s.chains := rfl
@[simp] theorem State.putGroup_launches (s : State) (g : Group) : (s.putGroup g).launches = s.launches := rfl
@[simp] theorem State.putGroup_tickets (s : State) (g : Group) : (s.putGroup g).tickets = s.tickets := rfl
@[simp] theorem State.putGroup_batches (s : State) (g : Group) : (s.putGroup g).batches = s.batches := rfl
@[simp] theorem State.putGroup_ctxs (s : State) (g : Group) : (s.putGroup g).ctxs = s.ctxs := rfl
@[simp] theorem State.putGroup_pages (s : State) (g : Group) : (s.putGroup g).pages = s.pages := rfl
@[simp] theorem State.putGroup_images (s : State) (g : Group) : (s.putGroup g).images = s.images := rfl
@[simp] theorem State.putGroup_frames (s : State) (g : Group) : (s.putGroup g).frames = s.frames := rfl
@[simp] theorem State.putGroup_tags (s : State) (g : Group) : (s.putGroup g).tags = s.tags := rfl
@[simp] theorem State.putGroup_recs (s : State) (g : Group) : (s.putGroup g).recs = s.recs := rfl
@[simp] theorem State.putGroup_queues (s : State) (g : Group) : (s.putGroup g).queues = s.queues := rfl
@[simp] theorem State.putGroup_publishes (s : State) (g : Group) : (s.putGroup g).publishes = s.publishes := rfl
@[simp] theorem State.putGroup_prod (s : State) (g : Group) : (s.putGroup g).prod = s.prod := rfl
@[simp] theorem State.putGroup_cons (s : State) (g : Group) : (s.putGroup g).cons = s.cons := rfl
@[simp] theorem State.putGroup_ncount (s : State) (g : Group) : (s.putGroup g).ncount = s.ncount := rfl
@[simp] theorem State.putGroup_nhold (s : State) (g : Group) : (s.putGroup g).nhold = s.nhold := rfl
@[simp] theorem State.putGroup_overrun (s : State) (g : Group) : (s.putGroup g).overrun = s.overrun := rfl
@[simp] theorem State.putGroup_nvector (s : State) (g : Group) : (s.putGroup g).nvector = s.nvector := rfl
@[simp] theorem State.putGroup_notes (s : State) (g : Group) : (s.putGroup g).notes = s.notes := rfl
@[simp] theorem State.putGroup_noteSeq (s : State) (g : Group) : (s.putGroup g).noteSeq = s.noteSeq := rfl
@[simp] theorem State.putGroup_pendingNotes (s : State) (g : Group) : (s.putGroup g).pendingNotes = s.pendingNotes := rfl
@[simp] theorem State.putGroup_noteHeld (s : State) (g : Group) : (s.putGroup g).noteHeld = s.noteHeld := rfl
@[simp] theorem State.putGroup_masked (s : State) (g : Group) : (s.putGroup g).masked = s.masked := rfl
@[simp] theorem State.putGroup_heldMsix (s : State) (g : Group) : (s.putGroup g).heldMsix = s.heldMsix := rfl
@[simp] theorem State.putGroup_fprod (s : State) (g : Group) : (s.putGroup g).fprod = s.fprod := rfl
@[simp] theorem State.putGroup_fcount (s : State) (g : Group) : (s.putGroup g).fcount = s.fcount := rfl
@[simp] theorem State.putGroup_fcons (s : State) (g : Group) : (s.putGroup g).fcons = s.fcons := rfl
@[simp] theorem State.putGroup_foverrun (s : State) (g : Group) : (s.putGroup g).foverrun = s.foverrun := rfl
@[simp] theorem State.putGroup_fvector (s : State) (g : Group) : (s.putGroup g).fvector = s.fvector := rfl
@[simp] theorem State.putGroup_fheld (s : State) (g : Group) : (s.putGroup g).fheld = s.fheld := rfl
@[simp] theorem State.putGroup_batchSeq (s : State) (g : Group) : (s.putGroup g).batchSeq = s.batchSeq := rfl
@[simp] theorem State.putGroup_faults (s : State) (g : Group) : (s.putGroup g).faults = s.faults := rfl
@[simp] theorem State.putGroup_shoots (s : State) (g : Group) : (s.putGroup g).shoots = s.shoots := rfl
@[simp] theorem State.putGroup_moves (s : State) (g : Group) : (s.putGroup g).moves = s.moves := rfl
@[simp] theorem State.putGroup_holds (s : State) (g : Group) : (s.putGroup g).holds = s.holds := rfl
@[simp] theorem State.putGroup_migReqs (s : State) (g : Group) : (s.putGroup g).migReqs = s.migReqs := rfl
@[simp] theorem State.putGroup_tdisp (s : State) (g : Group) : (s.putGroup g).tdisp = s.tdisp := rfl
@[simp] theorem State.putGroup_ports (s : State) (g : Group) : (s.putGroup g).ports = s.ports := rfl
@[simp] theorem State.putGroup_ptpLocked (s : State) (g : Group) : (s.putGroup g).ptpLocked = s.ptpLocked := rfl
@[simp] theorem State.putGroup_ptpNs (s : State) (g : Group) : (s.putGroup g).ptpNs = s.ptpNs := rfl
@[simp] theorem State.putGroup_ptpSet (s : State) (g : Group) : (s.putGroup g).ptpSet = s.ptpSet := rfl
@[simp] theorem State.putGroup_ptpPort (s : State) (g : Group) : (s.putGroup g).ptpPort = s.ptpPort := rfl
@[simp] theorem State.putGroup_ptpSub (s : State) (g : Group) : (s.putGroup g).ptpSub = s.ptpSub := rfl
@[simp] theorem State.putGroup_ptpDomain (s : State) (g : Group) : (s.putGroup g).ptpDomain = s.ptpDomain := rfl
@[simp] theorem State.putGroup_out (s : State) (g : Group) : (s.putGroup g).out = s.out := rfl
@[simp] theorem State.putGroup_islands (s : State) (g : Group) : (s.putGroup g).islands = s.islands := rfl
@[simp] theorem State.putGroup_cslrs (s : State) (g : Group) : (s.putGroup g).cslrs = s.cslrs := rfl
@[simp] theorem State.putGroup_dies (s : State) (g : Group) : (s.putGroup g).dies = s.dies := rfl
@[simp] theorem State.putGroup_mgmt (s : State) (g : Group) : (s.putGroup g).mgmt = s.mgmt := rfl
@[simp] theorem State.putGroup_wear (s : State) (g : Group) : (s.putGroup g).wear = s.wear := rfl
@[simp] theorem State.putGroup_inReset (s : State) (g : Group) : (s.putGroup g).inReset = s.inReset := rfl
@[simp] theorem State.putGroup_crash (s : State) (g : Group) : (s.putGroup g).crash = s.crash := rfl
@[simp] theorem State.putGroup_boots (s : State) (g : Group) : (s.putGroup g).boots = s.boots := rfl
@[simp] theorem State.putGroup_events (s : State) (g : Group) : (s.putGroup g).events = s.events := rfl
@[simp] theorem State.putGroup_bankB (s : State) (g : Group) : (s.putGroup g).bankB = s.bankB := rfl
@[simp] theorem State.putGroup_fwVersion (s : State) (g : Group) : (s.putGroup g).fwVersion = s.fwVersion := rfl
@[simp] theorem State.putGroup_fwBuild (s : State) (g : Group) : (s.putGroup g).fwBuild = s.fwBuild := rfl
@[simp] theorem State.putGroup_fwMin (s : State) (g : Group) : (s.putGroup g).fwMin = s.fwMin := rfl
@[simp] theorem State.putGroup_fwStaged (s : State) (g : Group) : (s.putGroup g).fwStaged = s.fwStaged := rfl
@[simp] theorem State.putGroup_fwReady (s : State) (g : Group) : (s.putGroup g).fwReady = s.fwReady := rfl
@[simp] theorem State.putGroup_leafIndex (s : State) (g : Group) : (s.putGroup g).leafIndex = s.leafIndex := rfl
@[simp] theorem State.putGroup_repair (s : State) (g : Group) : (s.putGroup g).repair = s.repair := rfl
@[simp] theorem State.putGroup_crashRead (s : State) (g : Group) : (s.putGroup g).crashRead = s.crashRead := rfl

@[simp] theorem State.putTeam_clk (s : State) (t : Team) : (s.putTeam t).clk = s.clk := rfl
@[simp] theorem State.putTeam_code (s : State) (t : Team) : (s.putTeam t).code = s.code := rfl
@[simp] theorem State.putTeam_defect (s : State) (t : Team) : (s.putTeam t).defect = s.defect := rfl
@[simp] theorem State.putTeam_opStep (s : State) (t : Team) : (s.putTeam t).opStep = s.opStep := rfl
@[simp] theorem State.putTeam_nextId (s : State) (t : Team) : (s.putTeam t).nextId = s.nextId := rfl
@[simp] theorem State.putTeam_freeCount (s : State) (t : Team) : (s.putTeam t).freeCount = s.freeCount := rfl
@[simp] theorem State.putTeam_issue (s : State) (t : Team) : (s.putTeam t).issue = s.issue := rfl
@[simp] theorem State.putTeam_arg (s : State) (t : Team) : (s.putTeam t).arg = s.arg := rfl
@[simp] theorem State.putTeam_sched (s : State) (t : Team) : (s.putTeam t).sched = s.sched := rfl
@[simp] theorem State.putTeam_dev (s : State) (t : Team) : (s.putTeam t).dev = s.dev := rfl
@[simp] theorem State.putTeam_hostMem (s : State) (t : Team) : (s.putTeam t).hostMem = s.hostMem := rfl
@[simp] theorem State.putTeam_peers (s : State) (t : Team) : (s.putTeam t).peers = s.peers := rfl
@[simp] theorem State.putTeam_devPoison (s : State) (t : Team) : (s.putTeam t).devPoison = s.devPoison := rfl
@[simp] theorem State.putTeam_hostPoison (s : State) (t : Team) : (s.putTeam t).hostPoison = s.hostPoison := rfl
@[simp] theorem State.putTeam_peerPoison (s : State) (t : Team) : (s.putTeam t).peerPoison = s.peerPoison := rfl
@[simp] theorem State.putTeam_co (s : State) (t : Team) : (s.putTeam t).co = s.co := rfl
@[simp] theorem State.putTeam_stores (s : State) (t : Team) : (s.putTeam t).stores = s.stores := rfl
@[simp] theorem State.putTeam_l1 (s : State) (t : Team) : (s.putTeam t).l1 = s.l1 := rfl
@[simp] theorem State.putTeam_groups (s : State) (t : Team) : (s.putTeam t).groups = s.groups := rfl
@[simp] theorem State.putTeam_teams (s : State) (t : Team) : (s.putTeam t).teams = putKey Team.tid t s.teams := rfl
@[simp] theorem State.putTeam_cores (s : State) (t : Team) : (s.putTeam t).cores = s.cores := rfl
@[simp] theorem State.putTeam_jobs (s : State) (t : Team) : (s.putTeam t).jobs = s.jobs := rfl
@[simp] theorem State.putTeam_chains (s : State) (t : Team) : (s.putTeam t).chains = s.chains := rfl
@[simp] theorem State.putTeam_launches (s : State) (t : Team) : (s.putTeam t).launches = s.launches := rfl
@[simp] theorem State.putTeam_tickets (s : State) (t : Team) : (s.putTeam t).tickets = s.tickets := rfl
@[simp] theorem State.putTeam_batches (s : State) (t : Team) : (s.putTeam t).batches = s.batches := rfl
@[simp] theorem State.putTeam_ctxs (s : State) (t : Team) : (s.putTeam t).ctxs = s.ctxs := rfl
@[simp] theorem State.putTeam_pages (s : State) (t : Team) : (s.putTeam t).pages = s.pages := rfl
@[simp] theorem State.putTeam_images (s : State) (t : Team) : (s.putTeam t).images = s.images := rfl
@[simp] theorem State.putTeam_frames (s : State) (t : Team) : (s.putTeam t).frames = s.frames := rfl
@[simp] theorem State.putTeam_tags (s : State) (t : Team) : (s.putTeam t).tags = s.tags := rfl
@[simp] theorem State.putTeam_recs (s : State) (t : Team) : (s.putTeam t).recs = s.recs := rfl
@[simp] theorem State.putTeam_queues (s : State) (t : Team) : (s.putTeam t).queues = s.queues := rfl
@[simp] theorem State.putTeam_publishes (s : State) (t : Team) : (s.putTeam t).publishes = s.publishes := rfl
@[simp] theorem State.putTeam_prod (s : State) (t : Team) : (s.putTeam t).prod = s.prod := rfl
@[simp] theorem State.putTeam_cons (s : State) (t : Team) : (s.putTeam t).cons = s.cons := rfl
@[simp] theorem State.putTeam_ncount (s : State) (t : Team) : (s.putTeam t).ncount = s.ncount := rfl
@[simp] theorem State.putTeam_nhold (s : State) (t : Team) : (s.putTeam t).nhold = s.nhold := rfl
@[simp] theorem State.putTeam_overrun (s : State) (t : Team) : (s.putTeam t).overrun = s.overrun := rfl
@[simp] theorem State.putTeam_nvector (s : State) (t : Team) : (s.putTeam t).nvector = s.nvector := rfl
@[simp] theorem State.putTeam_notes (s : State) (t : Team) : (s.putTeam t).notes = s.notes := rfl
@[simp] theorem State.putTeam_noteSeq (s : State) (t : Team) : (s.putTeam t).noteSeq = s.noteSeq := rfl
@[simp] theorem State.putTeam_pendingNotes (s : State) (t : Team) : (s.putTeam t).pendingNotes = s.pendingNotes := rfl
@[simp] theorem State.putTeam_noteHeld (s : State) (t : Team) : (s.putTeam t).noteHeld = s.noteHeld := rfl
@[simp] theorem State.putTeam_masked (s : State) (t : Team) : (s.putTeam t).masked = s.masked := rfl
@[simp] theorem State.putTeam_heldMsix (s : State) (t : Team) : (s.putTeam t).heldMsix = s.heldMsix := rfl
@[simp] theorem State.putTeam_fprod (s : State) (t : Team) : (s.putTeam t).fprod = s.fprod := rfl
@[simp] theorem State.putTeam_fcount (s : State) (t : Team) : (s.putTeam t).fcount = s.fcount := rfl
@[simp] theorem State.putTeam_fcons (s : State) (t : Team) : (s.putTeam t).fcons = s.fcons := rfl
@[simp] theorem State.putTeam_foverrun (s : State) (t : Team) : (s.putTeam t).foverrun = s.foverrun := rfl
@[simp] theorem State.putTeam_fvector (s : State) (t : Team) : (s.putTeam t).fvector = s.fvector := rfl
@[simp] theorem State.putTeam_fheld (s : State) (t : Team) : (s.putTeam t).fheld = s.fheld := rfl
@[simp] theorem State.putTeam_batchSeq (s : State) (t : Team) : (s.putTeam t).batchSeq = s.batchSeq := rfl
@[simp] theorem State.putTeam_faults (s : State) (t : Team) : (s.putTeam t).faults = s.faults := rfl
@[simp] theorem State.putTeam_shoots (s : State) (t : Team) : (s.putTeam t).shoots = s.shoots := rfl
@[simp] theorem State.putTeam_moves (s : State) (t : Team) : (s.putTeam t).moves = s.moves := rfl
@[simp] theorem State.putTeam_holds (s : State) (t : Team) : (s.putTeam t).holds = s.holds := rfl
@[simp] theorem State.putTeam_migReqs (s : State) (t : Team) : (s.putTeam t).migReqs = s.migReqs := rfl
@[simp] theorem State.putTeam_tdisp (s : State) (t : Team) : (s.putTeam t).tdisp = s.tdisp := rfl
@[simp] theorem State.putTeam_ports (s : State) (t : Team) : (s.putTeam t).ports = s.ports := rfl
@[simp] theorem State.putTeam_ptpLocked (s : State) (t : Team) : (s.putTeam t).ptpLocked = s.ptpLocked := rfl
@[simp] theorem State.putTeam_ptpNs (s : State) (t : Team) : (s.putTeam t).ptpNs = s.ptpNs := rfl
@[simp] theorem State.putTeam_ptpSet (s : State) (t : Team) : (s.putTeam t).ptpSet = s.ptpSet := rfl
@[simp] theorem State.putTeam_ptpPort (s : State) (t : Team) : (s.putTeam t).ptpPort = s.ptpPort := rfl
@[simp] theorem State.putTeam_ptpSub (s : State) (t : Team) : (s.putTeam t).ptpSub = s.ptpSub := rfl
@[simp] theorem State.putTeam_ptpDomain (s : State) (t : Team) : (s.putTeam t).ptpDomain = s.ptpDomain := rfl
@[simp] theorem State.putTeam_out (s : State) (t : Team) : (s.putTeam t).out = s.out := rfl
@[simp] theorem State.putTeam_islands (s : State) (t : Team) : (s.putTeam t).islands = s.islands := rfl
@[simp] theorem State.putTeam_cslrs (s : State) (t : Team) : (s.putTeam t).cslrs = s.cslrs := rfl
@[simp] theorem State.putTeam_dies (s : State) (t : Team) : (s.putTeam t).dies = s.dies := rfl
@[simp] theorem State.putTeam_mgmt (s : State) (t : Team) : (s.putTeam t).mgmt = s.mgmt := rfl
@[simp] theorem State.putTeam_wear (s : State) (t : Team) : (s.putTeam t).wear = s.wear := rfl
@[simp] theorem State.putTeam_inReset (s : State) (t : Team) : (s.putTeam t).inReset = s.inReset := rfl
@[simp] theorem State.putTeam_crash (s : State) (t : Team) : (s.putTeam t).crash = s.crash := rfl
@[simp] theorem State.putTeam_boots (s : State) (t : Team) : (s.putTeam t).boots = s.boots := rfl
@[simp] theorem State.putTeam_events (s : State) (t : Team) : (s.putTeam t).events = s.events := rfl
@[simp] theorem State.putTeam_bankB (s : State) (t : Team) : (s.putTeam t).bankB = s.bankB := rfl
@[simp] theorem State.putTeam_fwVersion (s : State) (t : Team) : (s.putTeam t).fwVersion = s.fwVersion := rfl
@[simp] theorem State.putTeam_fwBuild (s : State) (t : Team) : (s.putTeam t).fwBuild = s.fwBuild := rfl
@[simp] theorem State.putTeam_fwMin (s : State) (t : Team) : (s.putTeam t).fwMin = s.fwMin := rfl
@[simp] theorem State.putTeam_fwStaged (s : State) (t : Team) : (s.putTeam t).fwStaged = s.fwStaged := rfl
@[simp] theorem State.putTeam_fwReady (s : State) (t : Team) : (s.putTeam t).fwReady = s.fwReady := rfl
@[simp] theorem State.putTeam_leafIndex (s : State) (t : Team) : (s.putTeam t).leafIndex = s.leafIndex := rfl
@[simp] theorem State.putTeam_repair (s : State) (t : Team) : (s.putTeam t).repair = s.repair := rfl
@[simp] theorem State.putTeam_crashRead (s : State) (t : Team) : (s.putTeam t).crashRead = s.crashRead := rfl

@[simp] theorem State.putJob_clk (s : State) (j : Job) : (s.putJob j).clk = s.clk := rfl
@[simp] theorem State.putJob_code (s : State) (j : Job) : (s.putJob j).code = s.code := rfl
@[simp] theorem State.putJob_defect (s : State) (j : Job) : (s.putJob j).defect = s.defect := rfl
@[simp] theorem State.putJob_opStep (s : State) (j : Job) : (s.putJob j).opStep = s.opStep := rfl
@[simp] theorem State.putJob_nextId (s : State) (j : Job) : (s.putJob j).nextId = s.nextId := rfl
@[simp] theorem State.putJob_freeCount (s : State) (j : Job) : (s.putJob j).freeCount = s.freeCount := rfl
@[simp] theorem State.putJob_issue (s : State) (j : Job) : (s.putJob j).issue = s.issue := rfl
@[simp] theorem State.putJob_arg (s : State) (j : Job) : (s.putJob j).arg = s.arg := rfl
@[simp] theorem State.putJob_sched (s : State) (j : Job) : (s.putJob j).sched = s.sched := rfl
@[simp] theorem State.putJob_dev (s : State) (j : Job) : (s.putJob j).dev = s.dev := rfl
@[simp] theorem State.putJob_hostMem (s : State) (j : Job) : (s.putJob j).hostMem = s.hostMem := rfl
@[simp] theorem State.putJob_peers (s : State) (j : Job) : (s.putJob j).peers = s.peers := rfl
@[simp] theorem State.putJob_devPoison (s : State) (j : Job) : (s.putJob j).devPoison = s.devPoison := rfl
@[simp] theorem State.putJob_hostPoison (s : State) (j : Job) : (s.putJob j).hostPoison = s.hostPoison := rfl
@[simp] theorem State.putJob_peerPoison (s : State) (j : Job) : (s.putJob j).peerPoison = s.peerPoison := rfl
@[simp] theorem State.putJob_co (s : State) (j : Job) : (s.putJob j).co = s.co := rfl
@[simp] theorem State.putJob_stores (s : State) (j : Job) : (s.putJob j).stores = s.stores := rfl
@[simp] theorem State.putJob_l1 (s : State) (j : Job) : (s.putJob j).l1 = s.l1 := rfl
@[simp] theorem State.putJob_groups (s : State) (j : Job) : (s.putJob j).groups = s.groups := rfl
@[simp] theorem State.putJob_teams (s : State) (j : Job) : (s.putJob j).teams = s.teams := rfl
@[simp] theorem State.putJob_cores (s : State) (j : Job) : (s.putJob j).cores = s.cores := rfl
@[simp] theorem State.putJob_jobs (s : State) (j : Job) : (s.putJob j).jobs = putKey Job.jid j s.jobs := rfl
@[simp] theorem State.putJob_chains (s : State) (j : Job) : (s.putJob j).chains = s.chains := rfl
@[simp] theorem State.putJob_launches (s : State) (j : Job) : (s.putJob j).launches = s.launches := rfl
@[simp] theorem State.putJob_tickets (s : State) (j : Job) : (s.putJob j).tickets = s.tickets := rfl
@[simp] theorem State.putJob_batches (s : State) (j : Job) : (s.putJob j).batches = s.batches := rfl
@[simp] theorem State.putJob_ctxs (s : State) (j : Job) : (s.putJob j).ctxs = s.ctxs := rfl
@[simp] theorem State.putJob_pages (s : State) (j : Job) : (s.putJob j).pages = s.pages := rfl
@[simp] theorem State.putJob_images (s : State) (j : Job) : (s.putJob j).images = s.images := rfl
@[simp] theorem State.putJob_frames (s : State) (j : Job) : (s.putJob j).frames = s.frames := rfl
@[simp] theorem State.putJob_tags (s : State) (j : Job) : (s.putJob j).tags = s.tags := rfl
@[simp] theorem State.putJob_recs (s : State) (j : Job) : (s.putJob j).recs = s.recs := rfl
@[simp] theorem State.putJob_queues (s : State) (j : Job) : (s.putJob j).queues = s.queues := rfl
@[simp] theorem State.putJob_publishes (s : State) (j : Job) : (s.putJob j).publishes = s.publishes := rfl
@[simp] theorem State.putJob_prod (s : State) (j : Job) : (s.putJob j).prod = s.prod := rfl
@[simp] theorem State.putJob_cons (s : State) (j : Job) : (s.putJob j).cons = s.cons := rfl
@[simp] theorem State.putJob_ncount (s : State) (j : Job) : (s.putJob j).ncount = s.ncount := rfl
@[simp] theorem State.putJob_nhold (s : State) (j : Job) : (s.putJob j).nhold = s.nhold := rfl
@[simp] theorem State.putJob_overrun (s : State) (j : Job) : (s.putJob j).overrun = s.overrun := rfl
@[simp] theorem State.putJob_nvector (s : State) (j : Job) : (s.putJob j).nvector = s.nvector := rfl
@[simp] theorem State.putJob_notes (s : State) (j : Job) : (s.putJob j).notes = s.notes := rfl
@[simp] theorem State.putJob_noteSeq (s : State) (j : Job) : (s.putJob j).noteSeq = s.noteSeq := rfl
@[simp] theorem State.putJob_pendingNotes (s : State) (j : Job) : (s.putJob j).pendingNotes = s.pendingNotes := rfl
@[simp] theorem State.putJob_noteHeld (s : State) (j : Job) : (s.putJob j).noteHeld = s.noteHeld := rfl
@[simp] theorem State.putJob_masked (s : State) (j : Job) : (s.putJob j).masked = s.masked := rfl
@[simp] theorem State.putJob_heldMsix (s : State) (j : Job) : (s.putJob j).heldMsix = s.heldMsix := rfl
@[simp] theorem State.putJob_fprod (s : State) (j : Job) : (s.putJob j).fprod = s.fprod := rfl
@[simp] theorem State.putJob_fcount (s : State) (j : Job) : (s.putJob j).fcount = s.fcount := rfl
@[simp] theorem State.putJob_fcons (s : State) (j : Job) : (s.putJob j).fcons = s.fcons := rfl
@[simp] theorem State.putJob_foverrun (s : State) (j : Job) : (s.putJob j).foverrun = s.foverrun := rfl
@[simp] theorem State.putJob_fvector (s : State) (j : Job) : (s.putJob j).fvector = s.fvector := rfl
@[simp] theorem State.putJob_fheld (s : State) (j : Job) : (s.putJob j).fheld = s.fheld := rfl
@[simp] theorem State.putJob_batchSeq (s : State) (j : Job) : (s.putJob j).batchSeq = s.batchSeq := rfl
@[simp] theorem State.putJob_faults (s : State) (j : Job) : (s.putJob j).faults = s.faults := rfl
@[simp] theorem State.putJob_shoots (s : State) (j : Job) : (s.putJob j).shoots = s.shoots := rfl
@[simp] theorem State.putJob_moves (s : State) (j : Job) : (s.putJob j).moves = s.moves := rfl
@[simp] theorem State.putJob_holds (s : State) (j : Job) : (s.putJob j).holds = s.holds := rfl
@[simp] theorem State.putJob_migReqs (s : State) (j : Job) : (s.putJob j).migReqs = s.migReqs := rfl
@[simp] theorem State.putJob_tdisp (s : State) (j : Job) : (s.putJob j).tdisp = s.tdisp := rfl
@[simp] theorem State.putJob_ports (s : State) (j : Job) : (s.putJob j).ports = s.ports := rfl
@[simp] theorem State.putJob_ptpLocked (s : State) (j : Job) : (s.putJob j).ptpLocked = s.ptpLocked := rfl
@[simp] theorem State.putJob_ptpNs (s : State) (j : Job) : (s.putJob j).ptpNs = s.ptpNs := rfl
@[simp] theorem State.putJob_ptpSet (s : State) (j : Job) : (s.putJob j).ptpSet = s.ptpSet := rfl
@[simp] theorem State.putJob_ptpPort (s : State) (j : Job) : (s.putJob j).ptpPort = s.ptpPort := rfl
@[simp] theorem State.putJob_ptpSub (s : State) (j : Job) : (s.putJob j).ptpSub = s.ptpSub := rfl
@[simp] theorem State.putJob_ptpDomain (s : State) (j : Job) : (s.putJob j).ptpDomain = s.ptpDomain := rfl
@[simp] theorem State.putJob_out (s : State) (j : Job) : (s.putJob j).out = s.out := rfl
@[simp] theorem State.putJob_islands (s : State) (j : Job) : (s.putJob j).islands = s.islands := rfl
@[simp] theorem State.putJob_cslrs (s : State) (j : Job) : (s.putJob j).cslrs = s.cslrs := rfl
@[simp] theorem State.putJob_dies (s : State) (j : Job) : (s.putJob j).dies = s.dies := rfl
@[simp] theorem State.putJob_mgmt (s : State) (j : Job) : (s.putJob j).mgmt = s.mgmt := rfl
@[simp] theorem State.putJob_wear (s : State) (j : Job) : (s.putJob j).wear = s.wear := rfl
@[simp] theorem State.putJob_inReset (s : State) (j : Job) : (s.putJob j).inReset = s.inReset := rfl
@[simp] theorem State.putJob_crash (s : State) (j : Job) : (s.putJob j).crash = s.crash := rfl
@[simp] theorem State.putJob_boots (s : State) (j : Job) : (s.putJob j).boots = s.boots := rfl
@[simp] theorem State.putJob_events (s : State) (j : Job) : (s.putJob j).events = s.events := rfl
@[simp] theorem State.putJob_bankB (s : State) (j : Job) : (s.putJob j).bankB = s.bankB := rfl
@[simp] theorem State.putJob_fwVersion (s : State) (j : Job) : (s.putJob j).fwVersion = s.fwVersion := rfl
@[simp] theorem State.putJob_fwBuild (s : State) (j : Job) : (s.putJob j).fwBuild = s.fwBuild := rfl
@[simp] theorem State.putJob_fwMin (s : State) (j : Job) : (s.putJob j).fwMin = s.fwMin := rfl
@[simp] theorem State.putJob_fwStaged (s : State) (j : Job) : (s.putJob j).fwStaged = s.fwStaged := rfl
@[simp] theorem State.putJob_fwReady (s : State) (j : Job) : (s.putJob j).fwReady = s.fwReady := rfl
@[simp] theorem State.putJob_leafIndex (s : State) (j : Job) : (s.putJob j).leafIndex = s.leafIndex := rfl
@[simp] theorem State.putJob_repair (s : State) (j : Job) : (s.putJob j).repair = s.repair := rfl
@[simp] theorem State.putJob_crashRead (s : State) (j : Job) : (s.putJob j).crashRead = s.crashRead := rfl

@[simp] theorem State.putChain_clk (s : State) (c : Chain) : (s.putChain c).clk = s.clk := rfl
@[simp] theorem State.putChain_code (s : State) (c : Chain) : (s.putChain c).code = s.code := rfl
@[simp] theorem State.putChain_defect (s : State) (c : Chain) : (s.putChain c).defect = s.defect := rfl
@[simp] theorem State.putChain_opStep (s : State) (c : Chain) : (s.putChain c).opStep = s.opStep := rfl
@[simp] theorem State.putChain_nextId (s : State) (c : Chain) : (s.putChain c).nextId = s.nextId := rfl
@[simp] theorem State.putChain_freeCount (s : State) (c : Chain) : (s.putChain c).freeCount = s.freeCount := rfl
@[simp] theorem State.putChain_issue (s : State) (c : Chain) : (s.putChain c).issue = s.issue := rfl
@[simp] theorem State.putChain_arg (s : State) (c : Chain) : (s.putChain c).arg = s.arg := rfl
@[simp] theorem State.putChain_sched (s : State) (c : Chain) : (s.putChain c).sched = s.sched := rfl
@[simp] theorem State.putChain_dev (s : State) (c : Chain) : (s.putChain c).dev = s.dev := rfl
@[simp] theorem State.putChain_hostMem (s : State) (c : Chain) : (s.putChain c).hostMem = s.hostMem := rfl
@[simp] theorem State.putChain_peers (s : State) (c : Chain) : (s.putChain c).peers = s.peers := rfl
@[simp] theorem State.putChain_devPoison (s : State) (c : Chain) : (s.putChain c).devPoison = s.devPoison := rfl
@[simp] theorem State.putChain_hostPoison (s : State) (c : Chain) : (s.putChain c).hostPoison = s.hostPoison := rfl
@[simp] theorem State.putChain_peerPoison (s : State) (c : Chain) : (s.putChain c).peerPoison = s.peerPoison := rfl
@[simp] theorem State.putChain_co (s : State) (c : Chain) : (s.putChain c).co = s.co := rfl
@[simp] theorem State.putChain_stores (s : State) (c : Chain) : (s.putChain c).stores = s.stores := rfl
@[simp] theorem State.putChain_l1 (s : State) (c : Chain) : (s.putChain c).l1 = s.l1 := rfl
@[simp] theorem State.putChain_groups (s : State) (c : Chain) : (s.putChain c).groups = s.groups := rfl
@[simp] theorem State.putChain_teams (s : State) (c : Chain) : (s.putChain c).teams = s.teams := rfl
@[simp] theorem State.putChain_cores (s : State) (c : Chain) : (s.putChain c).cores = s.cores := rfl
@[simp] theorem State.putChain_jobs (s : State) (c : Chain) : (s.putChain c).jobs = s.jobs := rfl
@[simp] theorem State.putChain_chains (s : State) (c : Chain) : (s.putChain c).chains = putKey Chain.cid c s.chains := rfl
@[simp] theorem State.putChain_launches (s : State) (c : Chain) : (s.putChain c).launches = s.launches := rfl
@[simp] theorem State.putChain_tickets (s : State) (c : Chain) : (s.putChain c).tickets = s.tickets := rfl
@[simp] theorem State.putChain_batches (s : State) (c : Chain) : (s.putChain c).batches = s.batches := rfl
@[simp] theorem State.putChain_ctxs (s : State) (c : Chain) : (s.putChain c).ctxs = s.ctxs := rfl
@[simp] theorem State.putChain_pages (s : State) (c : Chain) : (s.putChain c).pages = s.pages := rfl
@[simp] theorem State.putChain_images (s : State) (c : Chain) : (s.putChain c).images = s.images := rfl
@[simp] theorem State.putChain_frames (s : State) (c : Chain) : (s.putChain c).frames = s.frames := rfl
@[simp] theorem State.putChain_tags (s : State) (c : Chain) : (s.putChain c).tags = s.tags := rfl
@[simp] theorem State.putChain_recs (s : State) (c : Chain) : (s.putChain c).recs = s.recs := rfl
@[simp] theorem State.putChain_queues (s : State) (c : Chain) : (s.putChain c).queues = s.queues := rfl
@[simp] theorem State.putChain_publishes (s : State) (c : Chain) : (s.putChain c).publishes = s.publishes := rfl
@[simp] theorem State.putChain_prod (s : State) (c : Chain) : (s.putChain c).prod = s.prod := rfl
@[simp] theorem State.putChain_cons (s : State) (c : Chain) : (s.putChain c).cons = s.cons := rfl
@[simp] theorem State.putChain_ncount (s : State) (c : Chain) : (s.putChain c).ncount = s.ncount := rfl
@[simp] theorem State.putChain_nhold (s : State) (c : Chain) : (s.putChain c).nhold = s.nhold := rfl
@[simp] theorem State.putChain_overrun (s : State) (c : Chain) : (s.putChain c).overrun = s.overrun := rfl
@[simp] theorem State.putChain_nvector (s : State) (c : Chain) : (s.putChain c).nvector = s.nvector := rfl
@[simp] theorem State.putChain_notes (s : State) (c : Chain) : (s.putChain c).notes = s.notes := rfl
@[simp] theorem State.putChain_noteSeq (s : State) (c : Chain) : (s.putChain c).noteSeq = s.noteSeq := rfl
@[simp] theorem State.putChain_pendingNotes (s : State) (c : Chain) : (s.putChain c).pendingNotes = s.pendingNotes := rfl
@[simp] theorem State.putChain_noteHeld (s : State) (c : Chain) : (s.putChain c).noteHeld = s.noteHeld := rfl
@[simp] theorem State.putChain_masked (s : State) (c : Chain) : (s.putChain c).masked = s.masked := rfl
@[simp] theorem State.putChain_heldMsix (s : State) (c : Chain) : (s.putChain c).heldMsix = s.heldMsix := rfl
@[simp] theorem State.putChain_fprod (s : State) (c : Chain) : (s.putChain c).fprod = s.fprod := rfl
@[simp] theorem State.putChain_fcount (s : State) (c : Chain) : (s.putChain c).fcount = s.fcount := rfl
@[simp] theorem State.putChain_fcons (s : State) (c : Chain) : (s.putChain c).fcons = s.fcons := rfl
@[simp] theorem State.putChain_foverrun (s : State) (c : Chain) : (s.putChain c).foverrun = s.foverrun := rfl
@[simp] theorem State.putChain_fvector (s : State) (c : Chain) : (s.putChain c).fvector = s.fvector := rfl
@[simp] theorem State.putChain_fheld (s : State) (c : Chain) : (s.putChain c).fheld = s.fheld := rfl
@[simp] theorem State.putChain_batchSeq (s : State) (c : Chain) : (s.putChain c).batchSeq = s.batchSeq := rfl
@[simp] theorem State.putChain_faults (s : State) (c : Chain) : (s.putChain c).faults = s.faults := rfl
@[simp] theorem State.putChain_shoots (s : State) (c : Chain) : (s.putChain c).shoots = s.shoots := rfl
@[simp] theorem State.putChain_moves (s : State) (c : Chain) : (s.putChain c).moves = s.moves := rfl
@[simp] theorem State.putChain_holds (s : State) (c : Chain) : (s.putChain c).holds = s.holds := rfl
@[simp] theorem State.putChain_migReqs (s : State) (c : Chain) : (s.putChain c).migReqs = s.migReqs := rfl
@[simp] theorem State.putChain_tdisp (s : State) (c : Chain) : (s.putChain c).tdisp = s.tdisp := rfl
@[simp] theorem State.putChain_ports (s : State) (c : Chain) : (s.putChain c).ports = s.ports := rfl
@[simp] theorem State.putChain_ptpLocked (s : State) (c : Chain) : (s.putChain c).ptpLocked = s.ptpLocked := rfl
@[simp] theorem State.putChain_ptpNs (s : State) (c : Chain) : (s.putChain c).ptpNs = s.ptpNs := rfl
@[simp] theorem State.putChain_ptpSet (s : State) (c : Chain) : (s.putChain c).ptpSet = s.ptpSet := rfl
@[simp] theorem State.putChain_ptpPort (s : State) (c : Chain) : (s.putChain c).ptpPort = s.ptpPort := rfl
@[simp] theorem State.putChain_ptpSub (s : State) (c : Chain) : (s.putChain c).ptpSub = s.ptpSub := rfl
@[simp] theorem State.putChain_ptpDomain (s : State) (c : Chain) : (s.putChain c).ptpDomain = s.ptpDomain := rfl
@[simp] theorem State.putChain_out (s : State) (c : Chain) : (s.putChain c).out = s.out := rfl
@[simp] theorem State.putChain_islands (s : State) (c : Chain) : (s.putChain c).islands = s.islands := rfl
@[simp] theorem State.putChain_cslrs (s : State) (c : Chain) : (s.putChain c).cslrs = s.cslrs := rfl
@[simp] theorem State.putChain_dies (s : State) (c : Chain) : (s.putChain c).dies = s.dies := rfl
@[simp] theorem State.putChain_mgmt (s : State) (c : Chain) : (s.putChain c).mgmt = s.mgmt := rfl
@[simp] theorem State.putChain_wear (s : State) (c : Chain) : (s.putChain c).wear = s.wear := rfl
@[simp] theorem State.putChain_inReset (s : State) (c : Chain) : (s.putChain c).inReset = s.inReset := rfl
@[simp] theorem State.putChain_crash (s : State) (c : Chain) : (s.putChain c).crash = s.crash := rfl
@[simp] theorem State.putChain_boots (s : State) (c : Chain) : (s.putChain c).boots = s.boots := rfl
@[simp] theorem State.putChain_events (s : State) (c : Chain) : (s.putChain c).events = s.events := rfl
@[simp] theorem State.putChain_bankB (s : State) (c : Chain) : (s.putChain c).bankB = s.bankB := rfl
@[simp] theorem State.putChain_fwVersion (s : State) (c : Chain) : (s.putChain c).fwVersion = s.fwVersion := rfl
@[simp] theorem State.putChain_fwBuild (s : State) (c : Chain) : (s.putChain c).fwBuild = s.fwBuild := rfl
@[simp] theorem State.putChain_fwMin (s : State) (c : Chain) : (s.putChain c).fwMin = s.fwMin := rfl
@[simp] theorem State.putChain_fwStaged (s : State) (c : Chain) : (s.putChain c).fwStaged = s.fwStaged := rfl
@[simp] theorem State.putChain_fwReady (s : State) (c : Chain) : (s.putChain c).fwReady = s.fwReady := rfl
@[simp] theorem State.putChain_leafIndex (s : State) (c : Chain) : (s.putChain c).leafIndex = s.leafIndex := rfl
@[simp] theorem State.putChain_repair (s : State) (c : Chain) : (s.putChain c).repair = s.repair := rfl
@[simp] theorem State.putChain_crashRead (s : State) (c : Chain) : (s.putChain c).crashRead = s.crashRead := rfl

@[simp] theorem State.putLaunch_clk (s : State) (l : Launch) : (s.putLaunch l).clk = s.clk := rfl
@[simp] theorem State.putLaunch_code (s : State) (l : Launch) : (s.putLaunch l).code = s.code := rfl
@[simp] theorem State.putLaunch_defect (s : State) (l : Launch) : (s.putLaunch l).defect = s.defect := rfl
@[simp] theorem State.putLaunch_opStep (s : State) (l : Launch) : (s.putLaunch l).opStep = s.opStep := rfl
@[simp] theorem State.putLaunch_nextId (s : State) (l : Launch) : (s.putLaunch l).nextId = s.nextId := rfl
@[simp] theorem State.putLaunch_freeCount (s : State) (l : Launch) : (s.putLaunch l).freeCount = s.freeCount := rfl
@[simp] theorem State.putLaunch_issue (s : State) (l : Launch) : (s.putLaunch l).issue = s.issue := rfl
@[simp] theorem State.putLaunch_arg (s : State) (l : Launch) : (s.putLaunch l).arg = s.arg := rfl
@[simp] theorem State.putLaunch_sched (s : State) (l : Launch) : (s.putLaunch l).sched = s.sched := rfl
@[simp] theorem State.putLaunch_dev (s : State) (l : Launch) : (s.putLaunch l).dev = s.dev := rfl
@[simp] theorem State.putLaunch_hostMem (s : State) (l : Launch) : (s.putLaunch l).hostMem = s.hostMem := rfl
@[simp] theorem State.putLaunch_peers (s : State) (l : Launch) : (s.putLaunch l).peers = s.peers := rfl
@[simp] theorem State.putLaunch_devPoison (s : State) (l : Launch) : (s.putLaunch l).devPoison = s.devPoison := rfl
@[simp] theorem State.putLaunch_hostPoison (s : State) (l : Launch) : (s.putLaunch l).hostPoison = s.hostPoison := rfl
@[simp] theorem State.putLaunch_peerPoison (s : State) (l : Launch) : (s.putLaunch l).peerPoison = s.peerPoison := rfl
@[simp] theorem State.putLaunch_co (s : State) (l : Launch) : (s.putLaunch l).co = s.co := rfl
@[simp] theorem State.putLaunch_stores (s : State) (l : Launch) : (s.putLaunch l).stores = s.stores := rfl
@[simp] theorem State.putLaunch_l1 (s : State) (l : Launch) : (s.putLaunch l).l1 = s.l1 := rfl
@[simp] theorem State.putLaunch_groups (s : State) (l : Launch) : (s.putLaunch l).groups = s.groups := rfl
@[simp] theorem State.putLaunch_teams (s : State) (l : Launch) : (s.putLaunch l).teams = s.teams := rfl
@[simp] theorem State.putLaunch_cores (s : State) (l : Launch) : (s.putLaunch l).cores = s.cores := rfl
@[simp] theorem State.putLaunch_jobs (s : State) (l : Launch) : (s.putLaunch l).jobs = s.jobs := rfl
@[simp] theorem State.putLaunch_chains (s : State) (l : Launch) : (s.putLaunch l).chains = s.chains := rfl
@[simp] theorem State.putLaunch_launches (s : State) (l : Launch) : (s.putLaunch l).launches = putKey Launch.lid l s.launches := rfl
@[simp] theorem State.putLaunch_tickets (s : State) (l : Launch) : (s.putLaunch l).tickets = s.tickets := rfl
@[simp] theorem State.putLaunch_batches (s : State) (l : Launch) : (s.putLaunch l).batches = s.batches := rfl
@[simp] theorem State.putLaunch_ctxs (s : State) (l : Launch) : (s.putLaunch l).ctxs = s.ctxs := rfl
@[simp] theorem State.putLaunch_pages (s : State) (l : Launch) : (s.putLaunch l).pages = s.pages := rfl
@[simp] theorem State.putLaunch_images (s : State) (l : Launch) : (s.putLaunch l).images = s.images := rfl
@[simp] theorem State.putLaunch_frames (s : State) (l : Launch) : (s.putLaunch l).frames = s.frames := rfl
@[simp] theorem State.putLaunch_tags (s : State) (l : Launch) : (s.putLaunch l).tags = s.tags := rfl
@[simp] theorem State.putLaunch_recs (s : State) (l : Launch) : (s.putLaunch l).recs = s.recs := rfl
@[simp] theorem State.putLaunch_queues (s : State) (l : Launch) : (s.putLaunch l).queues = s.queues := rfl
@[simp] theorem State.putLaunch_publishes (s : State) (l : Launch) : (s.putLaunch l).publishes = s.publishes := rfl
@[simp] theorem State.putLaunch_prod (s : State) (l : Launch) : (s.putLaunch l).prod = s.prod := rfl
@[simp] theorem State.putLaunch_cons (s : State) (l : Launch) : (s.putLaunch l).cons = s.cons := rfl
@[simp] theorem State.putLaunch_ncount (s : State) (l : Launch) : (s.putLaunch l).ncount = s.ncount := rfl
@[simp] theorem State.putLaunch_nhold (s : State) (l : Launch) : (s.putLaunch l).nhold = s.nhold := rfl
@[simp] theorem State.putLaunch_overrun (s : State) (l : Launch) : (s.putLaunch l).overrun = s.overrun := rfl
@[simp] theorem State.putLaunch_nvector (s : State) (l : Launch) : (s.putLaunch l).nvector = s.nvector := rfl
@[simp] theorem State.putLaunch_notes (s : State) (l : Launch) : (s.putLaunch l).notes = s.notes := rfl
@[simp] theorem State.putLaunch_noteSeq (s : State) (l : Launch) : (s.putLaunch l).noteSeq = s.noteSeq := rfl
@[simp] theorem State.putLaunch_pendingNotes (s : State) (l : Launch) : (s.putLaunch l).pendingNotes = s.pendingNotes := rfl
@[simp] theorem State.putLaunch_noteHeld (s : State) (l : Launch) : (s.putLaunch l).noteHeld = s.noteHeld := rfl
@[simp] theorem State.putLaunch_masked (s : State) (l : Launch) : (s.putLaunch l).masked = s.masked := rfl
@[simp] theorem State.putLaunch_heldMsix (s : State) (l : Launch) : (s.putLaunch l).heldMsix = s.heldMsix := rfl
@[simp] theorem State.putLaunch_fprod (s : State) (l : Launch) : (s.putLaunch l).fprod = s.fprod := rfl
@[simp] theorem State.putLaunch_fcount (s : State) (l : Launch) : (s.putLaunch l).fcount = s.fcount := rfl
@[simp] theorem State.putLaunch_fcons (s : State) (l : Launch) : (s.putLaunch l).fcons = s.fcons := rfl
@[simp] theorem State.putLaunch_foverrun (s : State) (l : Launch) : (s.putLaunch l).foverrun = s.foverrun := rfl
@[simp] theorem State.putLaunch_fvector (s : State) (l : Launch) : (s.putLaunch l).fvector = s.fvector := rfl
@[simp] theorem State.putLaunch_fheld (s : State) (l : Launch) : (s.putLaunch l).fheld = s.fheld := rfl
@[simp] theorem State.putLaunch_batchSeq (s : State) (l : Launch) : (s.putLaunch l).batchSeq = s.batchSeq := rfl
@[simp] theorem State.putLaunch_faults (s : State) (l : Launch) : (s.putLaunch l).faults = s.faults := rfl
@[simp] theorem State.putLaunch_shoots (s : State) (l : Launch) : (s.putLaunch l).shoots = s.shoots := rfl
@[simp] theorem State.putLaunch_moves (s : State) (l : Launch) : (s.putLaunch l).moves = s.moves := rfl
@[simp] theorem State.putLaunch_holds (s : State) (l : Launch) : (s.putLaunch l).holds = s.holds := rfl
@[simp] theorem State.putLaunch_migReqs (s : State) (l : Launch) : (s.putLaunch l).migReqs = s.migReqs := rfl
@[simp] theorem State.putLaunch_tdisp (s : State) (l : Launch) : (s.putLaunch l).tdisp = s.tdisp := rfl
@[simp] theorem State.putLaunch_ports (s : State) (l : Launch) : (s.putLaunch l).ports = s.ports := rfl
@[simp] theorem State.putLaunch_ptpLocked (s : State) (l : Launch) : (s.putLaunch l).ptpLocked = s.ptpLocked := rfl
@[simp] theorem State.putLaunch_ptpNs (s : State) (l : Launch) : (s.putLaunch l).ptpNs = s.ptpNs := rfl
@[simp] theorem State.putLaunch_ptpSet (s : State) (l : Launch) : (s.putLaunch l).ptpSet = s.ptpSet := rfl
@[simp] theorem State.putLaunch_ptpPort (s : State) (l : Launch) : (s.putLaunch l).ptpPort = s.ptpPort := rfl
@[simp] theorem State.putLaunch_ptpSub (s : State) (l : Launch) : (s.putLaunch l).ptpSub = s.ptpSub := rfl
@[simp] theorem State.putLaunch_ptpDomain (s : State) (l : Launch) : (s.putLaunch l).ptpDomain = s.ptpDomain := rfl
@[simp] theorem State.putLaunch_out (s : State) (l : Launch) : (s.putLaunch l).out = s.out := rfl
@[simp] theorem State.putLaunch_islands (s : State) (l : Launch) : (s.putLaunch l).islands = s.islands := rfl
@[simp] theorem State.putLaunch_cslrs (s : State) (l : Launch) : (s.putLaunch l).cslrs = s.cslrs := rfl
@[simp] theorem State.putLaunch_dies (s : State) (l : Launch) : (s.putLaunch l).dies = s.dies := rfl
@[simp] theorem State.putLaunch_mgmt (s : State) (l : Launch) : (s.putLaunch l).mgmt = s.mgmt := rfl
@[simp] theorem State.putLaunch_wear (s : State) (l : Launch) : (s.putLaunch l).wear = s.wear := rfl
@[simp] theorem State.putLaunch_inReset (s : State) (l : Launch) : (s.putLaunch l).inReset = s.inReset := rfl
@[simp] theorem State.putLaunch_crash (s : State) (l : Launch) : (s.putLaunch l).crash = s.crash := rfl
@[simp] theorem State.putLaunch_boots (s : State) (l : Launch) : (s.putLaunch l).boots = s.boots := rfl
@[simp] theorem State.putLaunch_events (s : State) (l : Launch) : (s.putLaunch l).events = s.events := rfl
@[simp] theorem State.putLaunch_bankB (s : State) (l : Launch) : (s.putLaunch l).bankB = s.bankB := rfl
@[simp] theorem State.putLaunch_fwVersion (s : State) (l : Launch) : (s.putLaunch l).fwVersion = s.fwVersion := rfl
@[simp] theorem State.putLaunch_fwBuild (s : State) (l : Launch) : (s.putLaunch l).fwBuild = s.fwBuild := rfl
@[simp] theorem State.putLaunch_fwMin (s : State) (l : Launch) : (s.putLaunch l).fwMin = s.fwMin := rfl
@[simp] theorem State.putLaunch_fwStaged (s : State) (l : Launch) : (s.putLaunch l).fwStaged = s.fwStaged := rfl
@[simp] theorem State.putLaunch_fwReady (s : State) (l : Launch) : (s.putLaunch l).fwReady = s.fwReady := rfl
@[simp] theorem State.putLaunch_leafIndex (s : State) (l : Launch) : (s.putLaunch l).leafIndex = s.leafIndex := rfl
@[simp] theorem State.putLaunch_repair (s : State) (l : Launch) : (s.putLaunch l).repair = s.repair := rfl
@[simp] theorem State.putLaunch_crashRead (s : State) (l : Launch) : (s.putLaunch l).crashRead = s.crashRead := rfl

@[simp] theorem State.putQueue_clk (s : State) (q : Queue) : (s.putQueue q).clk = s.clk := rfl
@[simp] theorem State.putQueue_code (s : State) (q : Queue) : (s.putQueue q).code = s.code := rfl
@[simp] theorem State.putQueue_defect (s : State) (q : Queue) : (s.putQueue q).defect = s.defect := rfl
@[simp] theorem State.putQueue_opStep (s : State) (q : Queue) : (s.putQueue q).opStep = s.opStep := rfl
@[simp] theorem State.putQueue_nextId (s : State) (q : Queue) : (s.putQueue q).nextId = s.nextId := rfl
@[simp] theorem State.putQueue_freeCount (s : State) (q : Queue) : (s.putQueue q).freeCount = s.freeCount := rfl
@[simp] theorem State.putQueue_issue (s : State) (q : Queue) : (s.putQueue q).issue = s.issue := rfl
@[simp] theorem State.putQueue_arg (s : State) (q : Queue) : (s.putQueue q).arg = s.arg := rfl
@[simp] theorem State.putQueue_sched (s : State) (q : Queue) : (s.putQueue q).sched = s.sched := rfl
@[simp] theorem State.putQueue_dev (s : State) (q : Queue) : (s.putQueue q).dev = s.dev := rfl
@[simp] theorem State.putQueue_hostMem (s : State) (q : Queue) : (s.putQueue q).hostMem = s.hostMem := rfl
@[simp] theorem State.putQueue_peers (s : State) (q : Queue) : (s.putQueue q).peers = s.peers := rfl
@[simp] theorem State.putQueue_devPoison (s : State) (q : Queue) : (s.putQueue q).devPoison = s.devPoison := rfl
@[simp] theorem State.putQueue_hostPoison (s : State) (q : Queue) : (s.putQueue q).hostPoison = s.hostPoison := rfl
@[simp] theorem State.putQueue_peerPoison (s : State) (q : Queue) : (s.putQueue q).peerPoison = s.peerPoison := rfl
@[simp] theorem State.putQueue_co (s : State) (q : Queue) : (s.putQueue q).co = s.co := rfl
@[simp] theorem State.putQueue_stores (s : State) (q : Queue) : (s.putQueue q).stores = s.stores := rfl
@[simp] theorem State.putQueue_l1 (s : State) (q : Queue) : (s.putQueue q).l1 = s.l1 := rfl
@[simp] theorem State.putQueue_groups (s : State) (q : Queue) : (s.putQueue q).groups = s.groups := rfl
@[simp] theorem State.putQueue_teams (s : State) (q : Queue) : (s.putQueue q).teams = s.teams := rfl
@[simp] theorem State.putQueue_cores (s : State) (q : Queue) : (s.putQueue q).cores = s.cores := rfl
@[simp] theorem State.putQueue_jobs (s : State) (q : Queue) : (s.putQueue q).jobs = s.jobs := rfl
@[simp] theorem State.putQueue_chains (s : State) (q : Queue) : (s.putQueue q).chains = s.chains := rfl
@[simp] theorem State.putQueue_launches (s : State) (q : Queue) : (s.putQueue q).launches = s.launches := rfl
@[simp] theorem State.putQueue_tickets (s : State) (q : Queue) : (s.putQueue q).tickets = s.tickets := rfl
@[simp] theorem State.putQueue_batches (s : State) (q : Queue) : (s.putQueue q).batches = s.batches := rfl
@[simp] theorem State.putQueue_ctxs (s : State) (q : Queue) : (s.putQueue q).ctxs = s.ctxs := rfl
@[simp] theorem State.putQueue_pages (s : State) (q : Queue) : (s.putQueue q).pages = s.pages := rfl
@[simp] theorem State.putQueue_images (s : State) (q : Queue) : (s.putQueue q).images = s.images := rfl
@[simp] theorem State.putQueue_frames (s : State) (q : Queue) : (s.putQueue q).frames = s.frames := rfl
@[simp] theorem State.putQueue_tags (s : State) (q : Queue) : (s.putQueue q).tags = s.tags := rfl
@[simp] theorem State.putQueue_recs (s : State) (q : Queue) : (s.putQueue q).recs = s.recs := rfl
@[simp] theorem State.putQueue_queues (s : State) (q : Queue) : (s.putQueue q).queues = putKey Queue.slot q s.queues := rfl
@[simp] theorem State.putQueue_publishes (s : State) (q : Queue) : (s.putQueue q).publishes = s.publishes := rfl
@[simp] theorem State.putQueue_prod (s : State) (q : Queue) : (s.putQueue q).prod = s.prod := rfl
@[simp] theorem State.putQueue_cons (s : State) (q : Queue) : (s.putQueue q).cons = s.cons := rfl
@[simp] theorem State.putQueue_ncount (s : State) (q : Queue) : (s.putQueue q).ncount = s.ncount := rfl
@[simp] theorem State.putQueue_nhold (s : State) (q : Queue) : (s.putQueue q).nhold = s.nhold := rfl
@[simp] theorem State.putQueue_overrun (s : State) (q : Queue) : (s.putQueue q).overrun = s.overrun := rfl
@[simp] theorem State.putQueue_nvector (s : State) (q : Queue) : (s.putQueue q).nvector = s.nvector := rfl
@[simp] theorem State.putQueue_notes (s : State) (q : Queue) : (s.putQueue q).notes = s.notes := rfl
@[simp] theorem State.putQueue_noteSeq (s : State) (q : Queue) : (s.putQueue q).noteSeq = s.noteSeq := rfl
@[simp] theorem State.putQueue_pendingNotes (s : State) (q : Queue) : (s.putQueue q).pendingNotes = s.pendingNotes := rfl
@[simp] theorem State.putQueue_noteHeld (s : State) (q : Queue) : (s.putQueue q).noteHeld = s.noteHeld := rfl
@[simp] theorem State.putQueue_masked (s : State) (q : Queue) : (s.putQueue q).masked = s.masked := rfl
@[simp] theorem State.putQueue_heldMsix (s : State) (q : Queue) : (s.putQueue q).heldMsix = s.heldMsix := rfl
@[simp] theorem State.putQueue_fprod (s : State) (q : Queue) : (s.putQueue q).fprod = s.fprod := rfl
@[simp] theorem State.putQueue_fcount (s : State) (q : Queue) : (s.putQueue q).fcount = s.fcount := rfl
@[simp] theorem State.putQueue_fcons (s : State) (q : Queue) : (s.putQueue q).fcons = s.fcons := rfl
@[simp] theorem State.putQueue_foverrun (s : State) (q : Queue) : (s.putQueue q).foverrun = s.foverrun := rfl
@[simp] theorem State.putQueue_fvector (s : State) (q : Queue) : (s.putQueue q).fvector = s.fvector := rfl
@[simp] theorem State.putQueue_fheld (s : State) (q : Queue) : (s.putQueue q).fheld = s.fheld := rfl
@[simp] theorem State.putQueue_batchSeq (s : State) (q : Queue) : (s.putQueue q).batchSeq = s.batchSeq := rfl
@[simp] theorem State.putQueue_faults (s : State) (q : Queue) : (s.putQueue q).faults = s.faults := rfl
@[simp] theorem State.putQueue_shoots (s : State) (q : Queue) : (s.putQueue q).shoots = s.shoots := rfl
@[simp] theorem State.putQueue_moves (s : State) (q : Queue) : (s.putQueue q).moves = s.moves := rfl
@[simp] theorem State.putQueue_holds (s : State) (q : Queue) : (s.putQueue q).holds = s.holds := rfl
@[simp] theorem State.putQueue_migReqs (s : State) (q : Queue) : (s.putQueue q).migReqs = s.migReqs := rfl
@[simp] theorem State.putQueue_tdisp (s : State) (q : Queue) : (s.putQueue q).tdisp = s.tdisp := rfl
@[simp] theorem State.putQueue_ports (s : State) (q : Queue) : (s.putQueue q).ports = s.ports := rfl
@[simp] theorem State.putQueue_ptpLocked (s : State) (q : Queue) : (s.putQueue q).ptpLocked = s.ptpLocked := rfl
@[simp] theorem State.putQueue_ptpNs (s : State) (q : Queue) : (s.putQueue q).ptpNs = s.ptpNs := rfl
@[simp] theorem State.putQueue_ptpSet (s : State) (q : Queue) : (s.putQueue q).ptpSet = s.ptpSet := rfl
@[simp] theorem State.putQueue_ptpPort (s : State) (q : Queue) : (s.putQueue q).ptpPort = s.ptpPort := rfl
@[simp] theorem State.putQueue_ptpSub (s : State) (q : Queue) : (s.putQueue q).ptpSub = s.ptpSub := rfl
@[simp] theorem State.putQueue_ptpDomain (s : State) (q : Queue) : (s.putQueue q).ptpDomain = s.ptpDomain := rfl
@[simp] theorem State.putQueue_out (s : State) (q : Queue) : (s.putQueue q).out = s.out := rfl
@[simp] theorem State.putQueue_islands (s : State) (q : Queue) : (s.putQueue q).islands = s.islands := rfl
@[simp] theorem State.putQueue_cslrs (s : State) (q : Queue) : (s.putQueue q).cslrs = s.cslrs := rfl
@[simp] theorem State.putQueue_dies (s : State) (q : Queue) : (s.putQueue q).dies = s.dies := rfl
@[simp] theorem State.putQueue_mgmt (s : State) (q : Queue) : (s.putQueue q).mgmt = s.mgmt := rfl
@[simp] theorem State.putQueue_wear (s : State) (q : Queue) : (s.putQueue q).wear = s.wear := rfl
@[simp] theorem State.putQueue_inReset (s : State) (q : Queue) : (s.putQueue q).inReset = s.inReset := rfl
@[simp] theorem State.putQueue_crash (s : State) (q : Queue) : (s.putQueue q).crash = s.crash := rfl
@[simp] theorem State.putQueue_boots (s : State) (q : Queue) : (s.putQueue q).boots = s.boots := rfl
@[simp] theorem State.putQueue_events (s : State) (q : Queue) : (s.putQueue q).events = s.events := rfl
@[simp] theorem State.putQueue_bankB (s : State) (q : Queue) : (s.putQueue q).bankB = s.bankB := rfl
@[simp] theorem State.putQueue_fwVersion (s : State) (q : Queue) : (s.putQueue q).fwVersion = s.fwVersion := rfl
@[simp] theorem State.putQueue_fwBuild (s : State) (q : Queue) : (s.putQueue q).fwBuild = s.fwBuild := rfl
@[simp] theorem State.putQueue_fwMin (s : State) (q : Queue) : (s.putQueue q).fwMin = s.fwMin := rfl
@[simp] theorem State.putQueue_fwStaged (s : State) (q : Queue) : (s.putQueue q).fwStaged = s.fwStaged := rfl
@[simp] theorem State.putQueue_fwReady (s : State) (q : Queue) : (s.putQueue q).fwReady = s.fwReady := rfl
@[simp] theorem State.putQueue_leafIndex (s : State) (q : Queue) : (s.putQueue q).leafIndex = s.leafIndex := rfl
@[simp] theorem State.putQueue_repair (s : State) (q : Queue) : (s.putQueue q).repair = s.repair := rfl
@[simp] theorem State.putQueue_crashRead (s : State) (q : Queue) : (s.putQueue q).crashRead = s.crashRead := rfl

@[simp] theorem State.putCtx_clk (s : State) (c : Ctx) : (s.putCtx c).clk = s.clk := rfl
@[simp] theorem State.putCtx_code (s : State) (c : Ctx) : (s.putCtx c).code = s.code := rfl
@[simp] theorem State.putCtx_defect (s : State) (c : Ctx) : (s.putCtx c).defect = s.defect := rfl
@[simp] theorem State.putCtx_opStep (s : State) (c : Ctx) : (s.putCtx c).opStep = s.opStep := rfl
@[simp] theorem State.putCtx_nextId (s : State) (c : Ctx) : (s.putCtx c).nextId = s.nextId := rfl
@[simp] theorem State.putCtx_freeCount (s : State) (c : Ctx) : (s.putCtx c).freeCount = s.freeCount := rfl
@[simp] theorem State.putCtx_issue (s : State) (c : Ctx) : (s.putCtx c).issue = s.issue := rfl
@[simp] theorem State.putCtx_arg (s : State) (c : Ctx) : (s.putCtx c).arg = s.arg := rfl
@[simp] theorem State.putCtx_sched (s : State) (c : Ctx) : (s.putCtx c).sched = s.sched := rfl
@[simp] theorem State.putCtx_dev (s : State) (c : Ctx) : (s.putCtx c).dev = s.dev := rfl
@[simp] theorem State.putCtx_hostMem (s : State) (c : Ctx) : (s.putCtx c).hostMem = s.hostMem := rfl
@[simp] theorem State.putCtx_peers (s : State) (c : Ctx) : (s.putCtx c).peers = s.peers := rfl
@[simp] theorem State.putCtx_devPoison (s : State) (c : Ctx) : (s.putCtx c).devPoison = s.devPoison := rfl
@[simp] theorem State.putCtx_hostPoison (s : State) (c : Ctx) : (s.putCtx c).hostPoison = s.hostPoison := rfl
@[simp] theorem State.putCtx_peerPoison (s : State) (c : Ctx) : (s.putCtx c).peerPoison = s.peerPoison := rfl
@[simp] theorem State.putCtx_co (s : State) (c : Ctx) : (s.putCtx c).co = s.co := rfl
@[simp] theorem State.putCtx_stores (s : State) (c : Ctx) : (s.putCtx c).stores = s.stores := rfl
@[simp] theorem State.putCtx_l1 (s : State) (c : Ctx) : (s.putCtx c).l1 = s.l1 := rfl
@[simp] theorem State.putCtx_groups (s : State) (c : Ctx) : (s.putCtx c).groups = s.groups := rfl
@[simp] theorem State.putCtx_teams (s : State) (c : Ctx) : (s.putCtx c).teams = s.teams := rfl
@[simp] theorem State.putCtx_cores (s : State) (c : Ctx) : (s.putCtx c).cores = s.cores := rfl
@[simp] theorem State.putCtx_jobs (s : State) (c : Ctx) : (s.putCtx c).jobs = s.jobs := rfl
@[simp] theorem State.putCtx_chains (s : State) (c : Ctx) : (s.putCtx c).chains = s.chains := rfl
@[simp] theorem State.putCtx_launches (s : State) (c : Ctx) : (s.putCtx c).launches = s.launches := rfl
@[simp] theorem State.putCtx_tickets (s : State) (c : Ctx) : (s.putCtx c).tickets = s.tickets := rfl
@[simp] theorem State.putCtx_batches (s : State) (c : Ctx) : (s.putCtx c).batches = s.batches := rfl
@[simp] theorem State.putCtx_ctxs (s : State) (c : Ctx) : (s.putCtx c).ctxs = putKey Ctx.ctx c s.ctxs := rfl
@[simp] theorem State.putCtx_pages (s : State) (c : Ctx) : (s.putCtx c).pages = s.pages := rfl
@[simp] theorem State.putCtx_images (s : State) (c : Ctx) : (s.putCtx c).images = s.images := rfl
@[simp] theorem State.putCtx_frames (s : State) (c : Ctx) : (s.putCtx c).frames = s.frames := rfl
@[simp] theorem State.putCtx_tags (s : State) (c : Ctx) : (s.putCtx c).tags = s.tags := rfl
@[simp] theorem State.putCtx_recs (s : State) (c : Ctx) : (s.putCtx c).recs = s.recs := rfl
@[simp] theorem State.putCtx_queues (s : State) (c : Ctx) : (s.putCtx c).queues = s.queues := rfl
@[simp] theorem State.putCtx_publishes (s : State) (c : Ctx) : (s.putCtx c).publishes = s.publishes := rfl
@[simp] theorem State.putCtx_prod (s : State) (c : Ctx) : (s.putCtx c).prod = s.prod := rfl
@[simp] theorem State.putCtx_cons (s : State) (c : Ctx) : (s.putCtx c).cons = s.cons := rfl
@[simp] theorem State.putCtx_ncount (s : State) (c : Ctx) : (s.putCtx c).ncount = s.ncount := rfl
@[simp] theorem State.putCtx_nhold (s : State) (c : Ctx) : (s.putCtx c).nhold = s.nhold := rfl
@[simp] theorem State.putCtx_overrun (s : State) (c : Ctx) : (s.putCtx c).overrun = s.overrun := rfl
@[simp] theorem State.putCtx_nvector (s : State) (c : Ctx) : (s.putCtx c).nvector = s.nvector := rfl
@[simp] theorem State.putCtx_notes (s : State) (c : Ctx) : (s.putCtx c).notes = s.notes := rfl
@[simp] theorem State.putCtx_noteSeq (s : State) (c : Ctx) : (s.putCtx c).noteSeq = s.noteSeq := rfl
@[simp] theorem State.putCtx_pendingNotes (s : State) (c : Ctx) : (s.putCtx c).pendingNotes = s.pendingNotes := rfl
@[simp] theorem State.putCtx_noteHeld (s : State) (c : Ctx) : (s.putCtx c).noteHeld = s.noteHeld := rfl
@[simp] theorem State.putCtx_masked (s : State) (c : Ctx) : (s.putCtx c).masked = s.masked := rfl
@[simp] theorem State.putCtx_heldMsix (s : State) (c : Ctx) : (s.putCtx c).heldMsix = s.heldMsix := rfl
@[simp] theorem State.putCtx_fprod (s : State) (c : Ctx) : (s.putCtx c).fprod = s.fprod := rfl
@[simp] theorem State.putCtx_fcount (s : State) (c : Ctx) : (s.putCtx c).fcount = s.fcount := rfl
@[simp] theorem State.putCtx_fcons (s : State) (c : Ctx) : (s.putCtx c).fcons = s.fcons := rfl
@[simp] theorem State.putCtx_foverrun (s : State) (c : Ctx) : (s.putCtx c).foverrun = s.foverrun := rfl
@[simp] theorem State.putCtx_fvector (s : State) (c : Ctx) : (s.putCtx c).fvector = s.fvector := rfl
@[simp] theorem State.putCtx_fheld (s : State) (c : Ctx) : (s.putCtx c).fheld = s.fheld := rfl
@[simp] theorem State.putCtx_batchSeq (s : State) (c : Ctx) : (s.putCtx c).batchSeq = s.batchSeq := rfl
@[simp] theorem State.putCtx_faults (s : State) (c : Ctx) : (s.putCtx c).faults = s.faults := rfl
@[simp] theorem State.putCtx_shoots (s : State) (c : Ctx) : (s.putCtx c).shoots = s.shoots := rfl
@[simp] theorem State.putCtx_moves (s : State) (c : Ctx) : (s.putCtx c).moves = s.moves := rfl
@[simp] theorem State.putCtx_holds (s : State) (c : Ctx) : (s.putCtx c).holds = s.holds := rfl
@[simp] theorem State.putCtx_migReqs (s : State) (c : Ctx) : (s.putCtx c).migReqs = s.migReqs := rfl
@[simp] theorem State.putCtx_tdisp (s : State) (c : Ctx) : (s.putCtx c).tdisp = s.tdisp := rfl
@[simp] theorem State.putCtx_ports (s : State) (c : Ctx) : (s.putCtx c).ports = s.ports := rfl
@[simp] theorem State.putCtx_ptpLocked (s : State) (c : Ctx) : (s.putCtx c).ptpLocked = s.ptpLocked := rfl
@[simp] theorem State.putCtx_ptpNs (s : State) (c : Ctx) : (s.putCtx c).ptpNs = s.ptpNs := rfl
@[simp] theorem State.putCtx_ptpSet (s : State) (c : Ctx) : (s.putCtx c).ptpSet = s.ptpSet := rfl
@[simp] theorem State.putCtx_ptpPort (s : State) (c : Ctx) : (s.putCtx c).ptpPort = s.ptpPort := rfl
@[simp] theorem State.putCtx_ptpSub (s : State) (c : Ctx) : (s.putCtx c).ptpSub = s.ptpSub := rfl
@[simp] theorem State.putCtx_ptpDomain (s : State) (c : Ctx) : (s.putCtx c).ptpDomain = s.ptpDomain := rfl
@[simp] theorem State.putCtx_out (s : State) (c : Ctx) : (s.putCtx c).out = s.out := rfl
@[simp] theorem State.putCtx_islands (s : State) (c : Ctx) : (s.putCtx c).islands = s.islands := rfl
@[simp] theorem State.putCtx_cslrs (s : State) (c : Ctx) : (s.putCtx c).cslrs = s.cslrs := rfl
@[simp] theorem State.putCtx_dies (s : State) (c : Ctx) : (s.putCtx c).dies = s.dies := rfl
@[simp] theorem State.putCtx_mgmt (s : State) (c : Ctx) : (s.putCtx c).mgmt = s.mgmt := rfl
@[simp] theorem State.putCtx_wear (s : State) (c : Ctx) : (s.putCtx c).wear = s.wear := rfl
@[simp] theorem State.putCtx_inReset (s : State) (c : Ctx) : (s.putCtx c).inReset = s.inReset := rfl
@[simp] theorem State.putCtx_crash (s : State) (c : Ctx) : (s.putCtx c).crash = s.crash := rfl
@[simp] theorem State.putCtx_boots (s : State) (c : Ctx) : (s.putCtx c).boots = s.boots := rfl
@[simp] theorem State.putCtx_events (s : State) (c : Ctx) : (s.putCtx c).events = s.events := rfl
@[simp] theorem State.putCtx_bankB (s : State) (c : Ctx) : (s.putCtx c).bankB = s.bankB := rfl
@[simp] theorem State.putCtx_fwVersion (s : State) (c : Ctx) : (s.putCtx c).fwVersion = s.fwVersion := rfl
@[simp] theorem State.putCtx_fwBuild (s : State) (c : Ctx) : (s.putCtx c).fwBuild = s.fwBuild := rfl
@[simp] theorem State.putCtx_fwMin (s : State) (c : Ctx) : (s.putCtx c).fwMin = s.fwMin := rfl
@[simp] theorem State.putCtx_fwStaged (s : State) (c : Ctx) : (s.putCtx c).fwStaged = s.fwStaged := rfl
@[simp] theorem State.putCtx_fwReady (s : State) (c : Ctx) : (s.putCtx c).fwReady = s.fwReady := rfl
@[simp] theorem State.putCtx_leafIndex (s : State) (c : Ctx) : (s.putCtx c).leafIndex = s.leafIndex := rfl
@[simp] theorem State.putCtx_repair (s : State) (c : Ctx) : (s.putCtx c).repair = s.repair := rfl
@[simp] theorem State.putCtx_crashRead (s : State) (c : Ctx) : (s.putCtx c).crashRead = s.crashRead := rfl

@[simp] theorem State.putCore_clk (s : State) (c : Core) : (s.putCore c).clk = s.clk := rfl
@[simp] theorem State.putCore_code (s : State) (c : Core) : (s.putCore c).code = s.code := rfl
@[simp] theorem State.putCore_defect (s : State) (c : Core) : (s.putCore c).defect = s.defect := rfl
@[simp] theorem State.putCore_opStep (s : State) (c : Core) : (s.putCore c).opStep = s.opStep := rfl
@[simp] theorem State.putCore_nextId (s : State) (c : Core) : (s.putCore c).nextId = s.nextId := rfl
@[simp] theorem State.putCore_freeCount (s : State) (c : Core) : (s.putCore c).freeCount = s.freeCount := rfl
@[simp] theorem State.putCore_issue (s : State) (c : Core) : (s.putCore c).issue = s.issue := rfl
@[simp] theorem State.putCore_arg (s : State) (c : Core) : (s.putCore c).arg = s.arg := rfl
@[simp] theorem State.putCore_sched (s : State) (c : Core) : (s.putCore c).sched = s.sched := rfl
@[simp] theorem State.putCore_dev (s : State) (c : Core) : (s.putCore c).dev = s.dev := rfl
@[simp] theorem State.putCore_hostMem (s : State) (c : Core) : (s.putCore c).hostMem = s.hostMem := rfl
@[simp] theorem State.putCore_peers (s : State) (c : Core) : (s.putCore c).peers = s.peers := rfl
@[simp] theorem State.putCore_devPoison (s : State) (c : Core) : (s.putCore c).devPoison = s.devPoison := rfl
@[simp] theorem State.putCore_hostPoison (s : State) (c : Core) : (s.putCore c).hostPoison = s.hostPoison := rfl
@[simp] theorem State.putCore_peerPoison (s : State) (c : Core) : (s.putCore c).peerPoison = s.peerPoison := rfl
@[simp] theorem State.putCore_co (s : State) (c : Core) : (s.putCore c).co = s.co := rfl
@[simp] theorem State.putCore_stores (s : State) (c : Core) : (s.putCore c).stores = s.stores := rfl
@[simp] theorem State.putCore_l1 (s : State) (c : Core) : (s.putCore c).l1 = s.l1 := rfl
@[simp] theorem State.putCore_groups (s : State) (c : Core) : (s.putCore c).groups = s.groups := rfl
@[simp] theorem State.putCore_teams (s : State) (c : Core) : (s.putCore c).teams = s.teams := rfl
@[simp] theorem State.putCore_cores (s : State) (c : Core) : (s.putCore c).cores = putKey Core.core c s.cores := rfl
@[simp] theorem State.putCore_jobs (s : State) (c : Core) : (s.putCore c).jobs = s.jobs := rfl
@[simp] theorem State.putCore_chains (s : State) (c : Core) : (s.putCore c).chains = s.chains := rfl
@[simp] theorem State.putCore_launches (s : State) (c : Core) : (s.putCore c).launches = s.launches := rfl
@[simp] theorem State.putCore_tickets (s : State) (c : Core) : (s.putCore c).tickets = s.tickets := rfl
@[simp] theorem State.putCore_batches (s : State) (c : Core) : (s.putCore c).batches = s.batches := rfl
@[simp] theorem State.putCore_ctxs (s : State) (c : Core) : (s.putCore c).ctxs = s.ctxs := rfl
@[simp] theorem State.putCore_pages (s : State) (c : Core) : (s.putCore c).pages = s.pages := rfl
@[simp] theorem State.putCore_images (s : State) (c : Core) : (s.putCore c).images = s.images := rfl
@[simp] theorem State.putCore_frames (s : State) (c : Core) : (s.putCore c).frames = s.frames := rfl
@[simp] theorem State.putCore_tags (s : State) (c : Core) : (s.putCore c).tags = s.tags := rfl
@[simp] theorem State.putCore_recs (s : State) (c : Core) : (s.putCore c).recs = s.recs := rfl
@[simp] theorem State.putCore_queues (s : State) (c : Core) : (s.putCore c).queues = s.queues := rfl
@[simp] theorem State.putCore_publishes (s : State) (c : Core) : (s.putCore c).publishes = s.publishes := rfl
@[simp] theorem State.putCore_prod (s : State) (c : Core) : (s.putCore c).prod = s.prod := rfl
@[simp] theorem State.putCore_cons (s : State) (c : Core) : (s.putCore c).cons = s.cons := rfl
@[simp] theorem State.putCore_ncount (s : State) (c : Core) : (s.putCore c).ncount = s.ncount := rfl
@[simp] theorem State.putCore_nhold (s : State) (c : Core) : (s.putCore c).nhold = s.nhold := rfl
@[simp] theorem State.putCore_overrun (s : State) (c : Core) : (s.putCore c).overrun = s.overrun := rfl
@[simp] theorem State.putCore_nvector (s : State) (c : Core) : (s.putCore c).nvector = s.nvector := rfl
@[simp] theorem State.putCore_notes (s : State) (c : Core) : (s.putCore c).notes = s.notes := rfl
@[simp] theorem State.putCore_noteSeq (s : State) (c : Core) : (s.putCore c).noteSeq = s.noteSeq := rfl
@[simp] theorem State.putCore_pendingNotes (s : State) (c : Core) : (s.putCore c).pendingNotes = s.pendingNotes := rfl
@[simp] theorem State.putCore_noteHeld (s : State) (c : Core) : (s.putCore c).noteHeld = s.noteHeld := rfl
@[simp] theorem State.putCore_masked (s : State) (c : Core) : (s.putCore c).masked = s.masked := rfl
@[simp] theorem State.putCore_heldMsix (s : State) (c : Core) : (s.putCore c).heldMsix = s.heldMsix := rfl
@[simp] theorem State.putCore_fprod (s : State) (c : Core) : (s.putCore c).fprod = s.fprod := rfl
@[simp] theorem State.putCore_fcount (s : State) (c : Core) : (s.putCore c).fcount = s.fcount := rfl
@[simp] theorem State.putCore_fcons (s : State) (c : Core) : (s.putCore c).fcons = s.fcons := rfl
@[simp] theorem State.putCore_foverrun (s : State) (c : Core) : (s.putCore c).foverrun = s.foverrun := rfl
@[simp] theorem State.putCore_fvector (s : State) (c : Core) : (s.putCore c).fvector = s.fvector := rfl
@[simp] theorem State.putCore_fheld (s : State) (c : Core) : (s.putCore c).fheld = s.fheld := rfl
@[simp] theorem State.putCore_batchSeq (s : State) (c : Core) : (s.putCore c).batchSeq = s.batchSeq := rfl
@[simp] theorem State.putCore_faults (s : State) (c : Core) : (s.putCore c).faults = s.faults := rfl
@[simp] theorem State.putCore_shoots (s : State) (c : Core) : (s.putCore c).shoots = s.shoots := rfl
@[simp] theorem State.putCore_moves (s : State) (c : Core) : (s.putCore c).moves = s.moves := rfl
@[simp] theorem State.putCore_holds (s : State) (c : Core) : (s.putCore c).holds = s.holds := rfl
@[simp] theorem State.putCore_migReqs (s : State) (c : Core) : (s.putCore c).migReqs = s.migReqs := rfl
@[simp] theorem State.putCore_tdisp (s : State) (c : Core) : (s.putCore c).tdisp = s.tdisp := rfl
@[simp] theorem State.putCore_ports (s : State) (c : Core) : (s.putCore c).ports = s.ports := rfl
@[simp] theorem State.putCore_ptpLocked (s : State) (c : Core) : (s.putCore c).ptpLocked = s.ptpLocked := rfl
@[simp] theorem State.putCore_ptpNs (s : State) (c : Core) : (s.putCore c).ptpNs = s.ptpNs := rfl
@[simp] theorem State.putCore_ptpSet (s : State) (c : Core) : (s.putCore c).ptpSet = s.ptpSet := rfl
@[simp] theorem State.putCore_ptpPort (s : State) (c : Core) : (s.putCore c).ptpPort = s.ptpPort := rfl
@[simp] theorem State.putCore_ptpSub (s : State) (c : Core) : (s.putCore c).ptpSub = s.ptpSub := rfl
@[simp] theorem State.putCore_ptpDomain (s : State) (c : Core) : (s.putCore c).ptpDomain = s.ptpDomain := rfl
@[simp] theorem State.putCore_out (s : State) (c : Core) : (s.putCore c).out = s.out := rfl
@[simp] theorem State.putCore_islands (s : State) (c : Core) : (s.putCore c).islands = s.islands := rfl
@[simp] theorem State.putCore_cslrs (s : State) (c : Core) : (s.putCore c).cslrs = s.cslrs := rfl
@[simp] theorem State.putCore_dies (s : State) (c : Core) : (s.putCore c).dies = s.dies := rfl
@[simp] theorem State.putCore_mgmt (s : State) (c : Core) : (s.putCore c).mgmt = s.mgmt := rfl
@[simp] theorem State.putCore_wear (s : State) (c : Core) : (s.putCore c).wear = s.wear := rfl
@[simp] theorem State.putCore_inReset (s : State) (c : Core) : (s.putCore c).inReset = s.inReset := rfl
@[simp] theorem State.putCore_crash (s : State) (c : Core) : (s.putCore c).crash = s.crash := rfl
@[simp] theorem State.putCore_boots (s : State) (c : Core) : (s.putCore c).boots = s.boots := rfl
@[simp] theorem State.putCore_events (s : State) (c : Core) : (s.putCore c).events = s.events := rfl
@[simp] theorem State.putCore_bankB (s : State) (c : Core) : (s.putCore c).bankB = s.bankB := rfl
@[simp] theorem State.putCore_fwVersion (s : State) (c : Core) : (s.putCore c).fwVersion = s.fwVersion := rfl
@[simp] theorem State.putCore_fwBuild (s : State) (c : Core) : (s.putCore c).fwBuild = s.fwBuild := rfl
@[simp] theorem State.putCore_fwMin (s : State) (c : Core) : (s.putCore c).fwMin = s.fwMin := rfl
@[simp] theorem State.putCore_fwStaged (s : State) (c : Core) : (s.putCore c).fwStaged = s.fwStaged := rfl
@[simp] theorem State.putCore_fwReady (s : State) (c : Core) : (s.putCore c).fwReady = s.fwReady := rfl
@[simp] theorem State.putCore_leafIndex (s : State) (c : Core) : (s.putCore c).leafIndex = s.leafIndex := rfl
@[simp] theorem State.putCore_repair (s : State) (c : Core) : (s.putCore c).repair = s.repair := rfl
@[simp] theorem State.putCore_crashRead (s : State) (c : Core) : (s.putCore c).crashRead = s.crashRead := rfl

@[simp] theorem State.putRecord_clk (s : State) (r : Rec) : (s.putRecord r).clk = s.clk := rfl
@[simp] theorem State.putRecord_code (s : State) (r : Rec) : (s.putRecord r).code = s.code := rfl
@[simp] theorem State.putRecord_defect (s : State) (r : Rec) : (s.putRecord r).defect = s.defect := rfl
@[simp] theorem State.putRecord_opStep (s : State) (r : Rec) : (s.putRecord r).opStep = s.opStep := rfl
@[simp] theorem State.putRecord_nextId (s : State) (r : Rec) : (s.putRecord r).nextId = s.nextId := rfl
@[simp] theorem State.putRecord_freeCount (s : State) (r : Rec) : (s.putRecord r).freeCount = s.freeCount := rfl
@[simp] theorem State.putRecord_issue (s : State) (r : Rec) : (s.putRecord r).issue = s.issue := rfl
@[simp] theorem State.putRecord_arg (s : State) (r : Rec) : (s.putRecord r).arg = s.arg := rfl
@[simp] theorem State.putRecord_sched (s : State) (r : Rec) : (s.putRecord r).sched = s.sched := rfl
@[simp] theorem State.putRecord_dev (s : State) (r : Rec) : (s.putRecord r).dev = s.dev := rfl
@[simp] theorem State.putRecord_hostMem (s : State) (r : Rec) : (s.putRecord r).hostMem = s.hostMem := rfl
@[simp] theorem State.putRecord_peers (s : State) (r : Rec) : (s.putRecord r).peers = s.peers := rfl
@[simp] theorem State.putRecord_devPoison (s : State) (r : Rec) : (s.putRecord r).devPoison = s.devPoison := rfl
@[simp] theorem State.putRecord_hostPoison (s : State) (r : Rec) : (s.putRecord r).hostPoison = s.hostPoison := rfl
@[simp] theorem State.putRecord_peerPoison (s : State) (r : Rec) : (s.putRecord r).peerPoison = s.peerPoison := rfl
@[simp] theorem State.putRecord_co (s : State) (r : Rec) : (s.putRecord r).co = s.co := rfl
@[simp] theorem State.putRecord_stores (s : State) (r : Rec) : (s.putRecord r).stores = s.stores := rfl
@[simp] theorem State.putRecord_l1 (s : State) (r : Rec) : (s.putRecord r).l1 = s.l1 := rfl
@[simp] theorem State.putRecord_groups (s : State) (r : Rec) : (s.putRecord r).groups = s.groups := rfl
@[simp] theorem State.putRecord_teams (s : State) (r : Rec) : (s.putRecord r).teams = s.teams := rfl
@[simp] theorem State.putRecord_cores (s : State) (r : Rec) : (s.putRecord r).cores = s.cores := rfl
@[simp] theorem State.putRecord_jobs (s : State) (r : Rec) : (s.putRecord r).jobs = s.jobs := rfl
@[simp] theorem State.putRecord_chains (s : State) (r : Rec) : (s.putRecord r).chains = s.chains := rfl
@[simp] theorem State.putRecord_launches (s : State) (r : Rec) : (s.putRecord r).launches = s.launches := rfl
@[simp] theorem State.putRecord_tickets (s : State) (r : Rec) : (s.putRecord r).tickets = s.tickets := rfl
@[simp] theorem State.putRecord_batches (s : State) (r : Rec) : (s.putRecord r).batches = s.batches := rfl
@[simp] theorem State.putRecord_ctxs (s : State) (r : Rec) : (s.putRecord r).ctxs = s.ctxs := rfl
@[simp] theorem State.putRecord_pages (s : State) (r : Rec) : (s.putRecord r).pages = s.pages := rfl
@[simp] theorem State.putRecord_images (s : State) (r : Rec) : (s.putRecord r).images = s.images := rfl
@[simp] theorem State.putRecord_frames (s : State) (r : Rec) : (s.putRecord r).frames = s.frames := rfl
@[simp] theorem State.putRecord_tags (s : State) (r : Rec) : (s.putRecord r).tags = s.tags := rfl
@[simp] theorem State.putRecord_recs (s : State) (r : Rec) : (s.putRecord r).recs = putKey Rec.slot r s.recs := rfl
@[simp] theorem State.putRecord_queues (s : State) (r : Rec) : (s.putRecord r).queues = s.queues := rfl
@[simp] theorem State.putRecord_publishes (s : State) (r : Rec) : (s.putRecord r).publishes = s.publishes := rfl
@[simp] theorem State.putRecord_prod (s : State) (r : Rec) : (s.putRecord r).prod = s.prod := rfl
@[simp] theorem State.putRecord_cons (s : State) (r : Rec) : (s.putRecord r).cons = s.cons := rfl
@[simp] theorem State.putRecord_ncount (s : State) (r : Rec) : (s.putRecord r).ncount = s.ncount := rfl
@[simp] theorem State.putRecord_nhold (s : State) (r : Rec) : (s.putRecord r).nhold = s.nhold := rfl
@[simp] theorem State.putRecord_overrun (s : State) (r : Rec) : (s.putRecord r).overrun = s.overrun := rfl
@[simp] theorem State.putRecord_nvector (s : State) (r : Rec) : (s.putRecord r).nvector = s.nvector := rfl
@[simp] theorem State.putRecord_notes (s : State) (r : Rec) : (s.putRecord r).notes = s.notes := rfl
@[simp] theorem State.putRecord_noteSeq (s : State) (r : Rec) : (s.putRecord r).noteSeq = s.noteSeq := rfl
@[simp] theorem State.putRecord_pendingNotes (s : State) (r : Rec) : (s.putRecord r).pendingNotes = s.pendingNotes := rfl
@[simp] theorem State.putRecord_noteHeld (s : State) (r : Rec) : (s.putRecord r).noteHeld = s.noteHeld := rfl
@[simp] theorem State.putRecord_masked (s : State) (r : Rec) : (s.putRecord r).masked = s.masked := rfl
@[simp] theorem State.putRecord_heldMsix (s : State) (r : Rec) : (s.putRecord r).heldMsix = s.heldMsix := rfl
@[simp] theorem State.putRecord_fprod (s : State) (r : Rec) : (s.putRecord r).fprod = s.fprod := rfl
@[simp] theorem State.putRecord_fcount (s : State) (r : Rec) : (s.putRecord r).fcount = s.fcount := rfl
@[simp] theorem State.putRecord_fcons (s : State) (r : Rec) : (s.putRecord r).fcons = s.fcons := rfl
@[simp] theorem State.putRecord_foverrun (s : State) (r : Rec) : (s.putRecord r).foverrun = s.foverrun := rfl
@[simp] theorem State.putRecord_fvector (s : State) (r : Rec) : (s.putRecord r).fvector = s.fvector := rfl
@[simp] theorem State.putRecord_fheld (s : State) (r : Rec) : (s.putRecord r).fheld = s.fheld := rfl
@[simp] theorem State.putRecord_batchSeq (s : State) (r : Rec) : (s.putRecord r).batchSeq = s.batchSeq := rfl
@[simp] theorem State.putRecord_faults (s : State) (r : Rec) : (s.putRecord r).faults = s.faults := rfl
@[simp] theorem State.putRecord_shoots (s : State) (r : Rec) : (s.putRecord r).shoots = s.shoots := rfl
@[simp] theorem State.putRecord_moves (s : State) (r : Rec) : (s.putRecord r).moves = s.moves := rfl
@[simp] theorem State.putRecord_holds (s : State) (r : Rec) : (s.putRecord r).holds = s.holds := rfl
@[simp] theorem State.putRecord_migReqs (s : State) (r : Rec) : (s.putRecord r).migReqs = s.migReqs := rfl
@[simp] theorem State.putRecord_tdisp (s : State) (r : Rec) : (s.putRecord r).tdisp = s.tdisp := rfl
@[simp] theorem State.putRecord_ports (s : State) (r : Rec) : (s.putRecord r).ports = s.ports := rfl
@[simp] theorem State.putRecord_ptpLocked (s : State) (r : Rec) : (s.putRecord r).ptpLocked = s.ptpLocked := rfl
@[simp] theorem State.putRecord_ptpNs (s : State) (r : Rec) : (s.putRecord r).ptpNs = s.ptpNs := rfl
@[simp] theorem State.putRecord_ptpSet (s : State) (r : Rec) : (s.putRecord r).ptpSet = s.ptpSet := rfl
@[simp] theorem State.putRecord_ptpPort (s : State) (r : Rec) : (s.putRecord r).ptpPort = s.ptpPort := rfl
@[simp] theorem State.putRecord_ptpSub (s : State) (r : Rec) : (s.putRecord r).ptpSub = s.ptpSub := rfl
@[simp] theorem State.putRecord_ptpDomain (s : State) (r : Rec) : (s.putRecord r).ptpDomain = s.ptpDomain := rfl
@[simp] theorem State.putRecord_out (s : State) (r : Rec) : (s.putRecord r).out = s.out := rfl
@[simp] theorem State.putRecord_islands (s : State) (r : Rec) : (s.putRecord r).islands = s.islands := rfl
@[simp] theorem State.putRecord_cslrs (s : State) (r : Rec) : (s.putRecord r).cslrs = s.cslrs := rfl
@[simp] theorem State.putRecord_dies (s : State) (r : Rec) : (s.putRecord r).dies = s.dies := rfl
@[simp] theorem State.putRecord_mgmt (s : State) (r : Rec) : (s.putRecord r).mgmt = s.mgmt := rfl
@[simp] theorem State.putRecord_wear (s : State) (r : Rec) : (s.putRecord r).wear = s.wear := rfl
@[simp] theorem State.putRecord_inReset (s : State) (r : Rec) : (s.putRecord r).inReset = s.inReset := rfl
@[simp] theorem State.putRecord_crash (s : State) (r : Rec) : (s.putRecord r).crash = s.crash := rfl
@[simp] theorem State.putRecord_boots (s : State) (r : Rec) : (s.putRecord r).boots = s.boots := rfl
@[simp] theorem State.putRecord_events (s : State) (r : Rec) : (s.putRecord r).events = s.events := rfl
@[simp] theorem State.putRecord_bankB (s : State) (r : Rec) : (s.putRecord r).bankB = s.bankB := rfl
@[simp] theorem State.putRecord_fwVersion (s : State) (r : Rec) : (s.putRecord r).fwVersion = s.fwVersion := rfl
@[simp] theorem State.putRecord_fwBuild (s : State) (r : Rec) : (s.putRecord r).fwBuild = s.fwBuild := rfl
@[simp] theorem State.putRecord_fwMin (s : State) (r : Rec) : (s.putRecord r).fwMin = s.fwMin := rfl
@[simp] theorem State.putRecord_fwStaged (s : State) (r : Rec) : (s.putRecord r).fwStaged = s.fwStaged := rfl
@[simp] theorem State.putRecord_fwReady (s : State) (r : Rec) : (s.putRecord r).fwReady = s.fwReady := rfl
@[simp] theorem State.putRecord_leafIndex (s : State) (r : Rec) : (s.putRecord r).leafIndex = s.leafIndex := rfl
@[simp] theorem State.putRecord_repair (s : State) (r : Rec) : (s.putRecord r).repair = s.repair := rfl
@[simp] theorem State.putRecord_crashRead (s : State) (r : Rec) : (s.putRecord r).crashRead = s.crashRead := rfl

@[simp] theorem State.putIsland_clk (s : State) (i : Island) : (s.putIsland i).clk = s.clk := rfl
@[simp] theorem State.putIsland_code (s : State) (i : Island) : (s.putIsland i).code = s.code := rfl
@[simp] theorem State.putIsland_defect (s : State) (i : Island) : (s.putIsland i).defect = s.defect := rfl
@[simp] theorem State.putIsland_opStep (s : State) (i : Island) : (s.putIsland i).opStep = s.opStep := rfl
@[simp] theorem State.putIsland_nextId (s : State) (i : Island) : (s.putIsland i).nextId = s.nextId := rfl
@[simp] theorem State.putIsland_freeCount (s : State) (i : Island) : (s.putIsland i).freeCount = s.freeCount := rfl
@[simp] theorem State.putIsland_issue (s : State) (i : Island) : (s.putIsland i).issue = s.issue := rfl
@[simp] theorem State.putIsland_arg (s : State) (i : Island) : (s.putIsland i).arg = s.arg := rfl
@[simp] theorem State.putIsland_sched (s : State) (i : Island) : (s.putIsland i).sched = s.sched := rfl
@[simp] theorem State.putIsland_dev (s : State) (i : Island) : (s.putIsland i).dev = s.dev := rfl
@[simp] theorem State.putIsland_hostMem (s : State) (i : Island) : (s.putIsland i).hostMem = s.hostMem := rfl
@[simp] theorem State.putIsland_peers (s : State) (i : Island) : (s.putIsland i).peers = s.peers := rfl
@[simp] theorem State.putIsland_devPoison (s : State) (i : Island) : (s.putIsland i).devPoison = s.devPoison := rfl
@[simp] theorem State.putIsland_hostPoison (s : State) (i : Island) : (s.putIsland i).hostPoison = s.hostPoison := rfl
@[simp] theorem State.putIsland_peerPoison (s : State) (i : Island) : (s.putIsland i).peerPoison = s.peerPoison := rfl
@[simp] theorem State.putIsland_co (s : State) (i : Island) : (s.putIsland i).co = s.co := rfl
@[simp] theorem State.putIsland_stores (s : State) (i : Island) : (s.putIsland i).stores = s.stores := rfl
@[simp] theorem State.putIsland_l1 (s : State) (i : Island) : (s.putIsland i).l1 = s.l1 := rfl
@[simp] theorem State.putIsland_groups (s : State) (i : Island) : (s.putIsland i).groups = s.groups := rfl
@[simp] theorem State.putIsland_teams (s : State) (i : Island) : (s.putIsland i).teams = s.teams := rfl
@[simp] theorem State.putIsland_cores (s : State) (i : Island) : (s.putIsland i).cores = s.cores := rfl
@[simp] theorem State.putIsland_jobs (s : State) (i : Island) : (s.putIsland i).jobs = s.jobs := rfl
@[simp] theorem State.putIsland_chains (s : State) (i : Island) : (s.putIsland i).chains = s.chains := rfl
@[simp] theorem State.putIsland_launches (s : State) (i : Island) : (s.putIsland i).launches = s.launches := rfl
@[simp] theorem State.putIsland_tickets (s : State) (i : Island) : (s.putIsland i).tickets = s.tickets := rfl
@[simp] theorem State.putIsland_batches (s : State) (i : Island) : (s.putIsland i).batches = s.batches := rfl
@[simp] theorem State.putIsland_ctxs (s : State) (i : Island) : (s.putIsland i).ctxs = s.ctxs := rfl
@[simp] theorem State.putIsland_pages (s : State) (i : Island) : (s.putIsland i).pages = s.pages := rfl
@[simp] theorem State.putIsland_images (s : State) (i : Island) : (s.putIsland i).images = s.images := rfl
@[simp] theorem State.putIsland_frames (s : State) (i : Island) : (s.putIsland i).frames = s.frames := rfl
@[simp] theorem State.putIsland_tags (s : State) (i : Island) : (s.putIsland i).tags = s.tags := rfl
@[simp] theorem State.putIsland_recs (s : State) (i : Island) : (s.putIsland i).recs = s.recs := rfl
@[simp] theorem State.putIsland_queues (s : State) (i : Island) : (s.putIsland i).queues = s.queues := rfl
@[simp] theorem State.putIsland_publishes (s : State) (i : Island) : (s.putIsland i).publishes = s.publishes := rfl
@[simp] theorem State.putIsland_prod (s : State) (i : Island) : (s.putIsland i).prod = s.prod := rfl
@[simp] theorem State.putIsland_cons (s : State) (i : Island) : (s.putIsland i).cons = s.cons := rfl
@[simp] theorem State.putIsland_ncount (s : State) (i : Island) : (s.putIsland i).ncount = s.ncount := rfl
@[simp] theorem State.putIsland_nhold (s : State) (i : Island) : (s.putIsland i).nhold = s.nhold := rfl
@[simp] theorem State.putIsland_overrun (s : State) (i : Island) : (s.putIsland i).overrun = s.overrun := rfl
@[simp] theorem State.putIsland_nvector (s : State) (i : Island) : (s.putIsland i).nvector = s.nvector := rfl
@[simp] theorem State.putIsland_notes (s : State) (i : Island) : (s.putIsland i).notes = s.notes := rfl
@[simp] theorem State.putIsland_noteSeq (s : State) (i : Island) : (s.putIsland i).noteSeq = s.noteSeq := rfl
@[simp] theorem State.putIsland_pendingNotes (s : State) (i : Island) : (s.putIsland i).pendingNotes = s.pendingNotes := rfl
@[simp] theorem State.putIsland_noteHeld (s : State) (i : Island) : (s.putIsland i).noteHeld = s.noteHeld := rfl
@[simp] theorem State.putIsland_masked (s : State) (i : Island) : (s.putIsland i).masked = s.masked := rfl
@[simp] theorem State.putIsland_heldMsix (s : State) (i : Island) : (s.putIsland i).heldMsix = s.heldMsix := rfl
@[simp] theorem State.putIsland_fprod (s : State) (i : Island) : (s.putIsland i).fprod = s.fprod := rfl
@[simp] theorem State.putIsland_fcount (s : State) (i : Island) : (s.putIsland i).fcount = s.fcount := rfl
@[simp] theorem State.putIsland_fcons (s : State) (i : Island) : (s.putIsland i).fcons = s.fcons := rfl
@[simp] theorem State.putIsland_foverrun (s : State) (i : Island) : (s.putIsland i).foverrun = s.foverrun := rfl
@[simp] theorem State.putIsland_fvector (s : State) (i : Island) : (s.putIsland i).fvector = s.fvector := rfl
@[simp] theorem State.putIsland_fheld (s : State) (i : Island) : (s.putIsland i).fheld = s.fheld := rfl
@[simp] theorem State.putIsland_batchSeq (s : State) (i : Island) : (s.putIsland i).batchSeq = s.batchSeq := rfl
@[simp] theorem State.putIsland_faults (s : State) (i : Island) : (s.putIsland i).faults = s.faults := rfl
@[simp] theorem State.putIsland_shoots (s : State) (i : Island) : (s.putIsland i).shoots = s.shoots := rfl
@[simp] theorem State.putIsland_moves (s : State) (i : Island) : (s.putIsland i).moves = s.moves := rfl
@[simp] theorem State.putIsland_holds (s : State) (i : Island) : (s.putIsland i).holds = s.holds := rfl
@[simp] theorem State.putIsland_migReqs (s : State) (i : Island) : (s.putIsland i).migReqs = s.migReqs := rfl
@[simp] theorem State.putIsland_tdisp (s : State) (i : Island) : (s.putIsland i).tdisp = s.tdisp := rfl
@[simp] theorem State.putIsland_ports (s : State) (i : Island) : (s.putIsland i).ports = s.ports := rfl
@[simp] theorem State.putIsland_ptpLocked (s : State) (i : Island) : (s.putIsland i).ptpLocked = s.ptpLocked := rfl
@[simp] theorem State.putIsland_ptpNs (s : State) (i : Island) : (s.putIsland i).ptpNs = s.ptpNs := rfl
@[simp] theorem State.putIsland_ptpSet (s : State) (i : Island) : (s.putIsland i).ptpSet = s.ptpSet := rfl
@[simp] theorem State.putIsland_ptpPort (s : State) (i : Island) : (s.putIsland i).ptpPort = s.ptpPort := rfl
@[simp] theorem State.putIsland_ptpSub (s : State) (i : Island) : (s.putIsland i).ptpSub = s.ptpSub := rfl
@[simp] theorem State.putIsland_ptpDomain (s : State) (i : Island) : (s.putIsland i).ptpDomain = s.ptpDomain := rfl
@[simp] theorem State.putIsland_out (s : State) (i : Island) : (s.putIsland i).out = s.out := rfl
@[simp] theorem State.putIsland_islands (s : State) (i : Island) : (s.putIsland i).islands = putKey Island.isl i s.islands := rfl
@[simp] theorem State.putIsland_cslrs (s : State) (i : Island) : (s.putIsland i).cslrs = s.cslrs := rfl
@[simp] theorem State.putIsland_dies (s : State) (i : Island) : (s.putIsland i).dies = s.dies := rfl
@[simp] theorem State.putIsland_mgmt (s : State) (i : Island) : (s.putIsland i).mgmt = s.mgmt := rfl
@[simp] theorem State.putIsland_wear (s : State) (i : Island) : (s.putIsland i).wear = s.wear := rfl
@[simp] theorem State.putIsland_inReset (s : State) (i : Island) : (s.putIsland i).inReset = s.inReset := rfl
@[simp] theorem State.putIsland_crash (s : State) (i : Island) : (s.putIsland i).crash = s.crash := rfl
@[simp] theorem State.putIsland_boots (s : State) (i : Island) : (s.putIsland i).boots = s.boots := rfl
@[simp] theorem State.putIsland_events (s : State) (i : Island) : (s.putIsland i).events = s.events := rfl
@[simp] theorem State.putIsland_bankB (s : State) (i : Island) : (s.putIsland i).bankB = s.bankB := rfl
@[simp] theorem State.putIsland_fwVersion (s : State) (i : Island) : (s.putIsland i).fwVersion = s.fwVersion := rfl
@[simp] theorem State.putIsland_fwBuild (s : State) (i : Island) : (s.putIsland i).fwBuild = s.fwBuild := rfl
@[simp] theorem State.putIsland_fwMin (s : State) (i : Island) : (s.putIsland i).fwMin = s.fwMin := rfl
@[simp] theorem State.putIsland_fwStaged (s : State) (i : Island) : (s.putIsland i).fwStaged = s.fwStaged := rfl
@[simp] theorem State.putIsland_fwReady (s : State) (i : Island) : (s.putIsland i).fwReady = s.fwReady := rfl
@[simp] theorem State.putIsland_leafIndex (s : State) (i : Island) : (s.putIsland i).leafIndex = s.leafIndex := rfl
@[simp] theorem State.putIsland_repair (s : State) (i : Island) : (s.putIsland i).repair = s.repair := rfl
@[simp] theorem State.putIsland_crashRead (s : State) (i : Island) : (s.putIsland i).crashRead = s.crashRead := rfl

@[simp] theorem State.putCslr_clk (s : State) (c : Cslr) : (s.putCslr c).clk = s.clk := rfl
@[simp] theorem State.putCslr_code (s : State) (c : Cslr) : (s.putCslr c).code = s.code := rfl
@[simp] theorem State.putCslr_defect (s : State) (c : Cslr) : (s.putCslr c).defect = s.defect := rfl
@[simp] theorem State.putCslr_opStep (s : State) (c : Cslr) : (s.putCslr c).opStep = s.opStep := rfl
@[simp] theorem State.putCslr_nextId (s : State) (c : Cslr) : (s.putCslr c).nextId = s.nextId := rfl
@[simp] theorem State.putCslr_freeCount (s : State) (c : Cslr) : (s.putCslr c).freeCount = s.freeCount := rfl
@[simp] theorem State.putCslr_issue (s : State) (c : Cslr) : (s.putCslr c).issue = s.issue := rfl
@[simp] theorem State.putCslr_arg (s : State) (c : Cslr) : (s.putCslr c).arg = s.arg := rfl
@[simp] theorem State.putCslr_sched (s : State) (c : Cslr) : (s.putCslr c).sched = s.sched := rfl
@[simp] theorem State.putCslr_dev (s : State) (c : Cslr) : (s.putCslr c).dev = s.dev := rfl
@[simp] theorem State.putCslr_hostMem (s : State) (c : Cslr) : (s.putCslr c).hostMem = s.hostMem := rfl
@[simp] theorem State.putCslr_peers (s : State) (c : Cslr) : (s.putCslr c).peers = s.peers := rfl
@[simp] theorem State.putCslr_devPoison (s : State) (c : Cslr) : (s.putCslr c).devPoison = s.devPoison := rfl
@[simp] theorem State.putCslr_hostPoison (s : State) (c : Cslr) : (s.putCslr c).hostPoison = s.hostPoison := rfl
@[simp] theorem State.putCslr_peerPoison (s : State) (c : Cslr) : (s.putCslr c).peerPoison = s.peerPoison := rfl
@[simp] theorem State.putCslr_co (s : State) (c : Cslr) : (s.putCslr c).co = s.co := rfl
@[simp] theorem State.putCslr_stores (s : State) (c : Cslr) : (s.putCslr c).stores = s.stores := rfl
@[simp] theorem State.putCslr_l1 (s : State) (c : Cslr) : (s.putCslr c).l1 = s.l1 := rfl
@[simp] theorem State.putCslr_groups (s : State) (c : Cslr) : (s.putCslr c).groups = s.groups := rfl
@[simp] theorem State.putCslr_teams (s : State) (c : Cslr) : (s.putCslr c).teams = s.teams := rfl
@[simp] theorem State.putCslr_cores (s : State) (c : Cslr) : (s.putCslr c).cores = s.cores := rfl
@[simp] theorem State.putCslr_jobs (s : State) (c : Cslr) : (s.putCslr c).jobs = s.jobs := rfl
@[simp] theorem State.putCslr_chains (s : State) (c : Cslr) : (s.putCslr c).chains = s.chains := rfl
@[simp] theorem State.putCslr_launches (s : State) (c : Cslr) : (s.putCslr c).launches = s.launches := rfl
@[simp] theorem State.putCslr_tickets (s : State) (c : Cslr) : (s.putCslr c).tickets = s.tickets := rfl
@[simp] theorem State.putCslr_batches (s : State) (c : Cslr) : (s.putCslr c).batches = s.batches := rfl
@[simp] theorem State.putCslr_ctxs (s : State) (c : Cslr) : (s.putCslr c).ctxs = s.ctxs := rfl
@[simp] theorem State.putCslr_pages (s : State) (c : Cslr) : (s.putCslr c).pages = s.pages := rfl
@[simp] theorem State.putCslr_images (s : State) (c : Cslr) : (s.putCslr c).images = s.images := rfl
@[simp] theorem State.putCslr_frames (s : State) (c : Cslr) : (s.putCslr c).frames = s.frames := rfl
@[simp] theorem State.putCslr_tags (s : State) (c : Cslr) : (s.putCslr c).tags = s.tags := rfl
@[simp] theorem State.putCslr_recs (s : State) (c : Cslr) : (s.putCslr c).recs = s.recs := rfl
@[simp] theorem State.putCslr_queues (s : State) (c : Cslr) : (s.putCslr c).queues = s.queues := rfl
@[simp] theorem State.putCslr_publishes (s : State) (c : Cslr) : (s.putCslr c).publishes = s.publishes := rfl
@[simp] theorem State.putCslr_prod (s : State) (c : Cslr) : (s.putCslr c).prod = s.prod := rfl
@[simp] theorem State.putCslr_cons (s : State) (c : Cslr) : (s.putCslr c).cons = s.cons := rfl
@[simp] theorem State.putCslr_ncount (s : State) (c : Cslr) : (s.putCslr c).ncount = s.ncount := rfl
@[simp] theorem State.putCslr_nhold (s : State) (c : Cslr) : (s.putCslr c).nhold = s.nhold := rfl
@[simp] theorem State.putCslr_overrun (s : State) (c : Cslr) : (s.putCslr c).overrun = s.overrun := rfl
@[simp] theorem State.putCslr_nvector (s : State) (c : Cslr) : (s.putCslr c).nvector = s.nvector := rfl
@[simp] theorem State.putCslr_notes (s : State) (c : Cslr) : (s.putCslr c).notes = s.notes := rfl
@[simp] theorem State.putCslr_noteSeq (s : State) (c : Cslr) : (s.putCslr c).noteSeq = s.noteSeq := rfl
@[simp] theorem State.putCslr_pendingNotes (s : State) (c : Cslr) : (s.putCslr c).pendingNotes = s.pendingNotes := rfl
@[simp] theorem State.putCslr_noteHeld (s : State) (c : Cslr) : (s.putCslr c).noteHeld = s.noteHeld := rfl
@[simp] theorem State.putCslr_masked (s : State) (c : Cslr) : (s.putCslr c).masked = s.masked := rfl
@[simp] theorem State.putCslr_heldMsix (s : State) (c : Cslr) : (s.putCslr c).heldMsix = s.heldMsix := rfl
@[simp] theorem State.putCslr_fprod (s : State) (c : Cslr) : (s.putCslr c).fprod = s.fprod := rfl
@[simp] theorem State.putCslr_fcount (s : State) (c : Cslr) : (s.putCslr c).fcount = s.fcount := rfl
@[simp] theorem State.putCslr_fcons (s : State) (c : Cslr) : (s.putCslr c).fcons = s.fcons := rfl
@[simp] theorem State.putCslr_foverrun (s : State) (c : Cslr) : (s.putCslr c).foverrun = s.foverrun := rfl
@[simp] theorem State.putCslr_fvector (s : State) (c : Cslr) : (s.putCslr c).fvector = s.fvector := rfl
@[simp] theorem State.putCslr_fheld (s : State) (c : Cslr) : (s.putCslr c).fheld = s.fheld := rfl
@[simp] theorem State.putCslr_batchSeq (s : State) (c : Cslr) : (s.putCslr c).batchSeq = s.batchSeq := rfl
@[simp] theorem State.putCslr_faults (s : State) (c : Cslr) : (s.putCslr c).faults = s.faults := rfl
@[simp] theorem State.putCslr_shoots (s : State) (c : Cslr) : (s.putCslr c).shoots = s.shoots := rfl
@[simp] theorem State.putCslr_moves (s : State) (c : Cslr) : (s.putCslr c).moves = s.moves := rfl
@[simp] theorem State.putCslr_holds (s : State) (c : Cslr) : (s.putCslr c).holds = s.holds := rfl
@[simp] theorem State.putCslr_migReqs (s : State) (c : Cslr) : (s.putCslr c).migReqs = s.migReqs := rfl
@[simp] theorem State.putCslr_tdisp (s : State) (c : Cslr) : (s.putCslr c).tdisp = s.tdisp := rfl
@[simp] theorem State.putCslr_ports (s : State) (c : Cslr) : (s.putCslr c).ports = s.ports := rfl
@[simp] theorem State.putCslr_ptpLocked (s : State) (c : Cslr) : (s.putCslr c).ptpLocked = s.ptpLocked := rfl
@[simp] theorem State.putCslr_ptpNs (s : State) (c : Cslr) : (s.putCslr c).ptpNs = s.ptpNs := rfl
@[simp] theorem State.putCslr_ptpSet (s : State) (c : Cslr) : (s.putCslr c).ptpSet = s.ptpSet := rfl
@[simp] theorem State.putCslr_ptpPort (s : State) (c : Cslr) : (s.putCslr c).ptpPort = s.ptpPort := rfl
@[simp] theorem State.putCslr_ptpSub (s : State) (c : Cslr) : (s.putCslr c).ptpSub = s.ptpSub := rfl
@[simp] theorem State.putCslr_ptpDomain (s : State) (c : Cslr) : (s.putCslr c).ptpDomain = s.ptpDomain := rfl
@[simp] theorem State.putCslr_out (s : State) (c : Cslr) : (s.putCslr c).out = s.out := rfl
@[simp] theorem State.putCslr_islands (s : State) (c : Cslr) : (s.putCslr c).islands = s.islands := rfl
@[simp] theorem State.putCslr_cslrs (s : State) (c : Cslr) : (s.putCslr c).cslrs = putKey Cslr.cluster c s.cslrs := rfl
@[simp] theorem State.putCslr_dies (s : State) (c : Cslr) : (s.putCslr c).dies = s.dies := rfl
@[simp] theorem State.putCslr_mgmt (s : State) (c : Cslr) : (s.putCslr c).mgmt = s.mgmt := rfl
@[simp] theorem State.putCslr_wear (s : State) (c : Cslr) : (s.putCslr c).wear = s.wear := rfl
@[simp] theorem State.putCslr_inReset (s : State) (c : Cslr) : (s.putCslr c).inReset = s.inReset := rfl
@[simp] theorem State.putCslr_crash (s : State) (c : Cslr) : (s.putCslr c).crash = s.crash := rfl
@[simp] theorem State.putCslr_boots (s : State) (c : Cslr) : (s.putCslr c).boots = s.boots := rfl
@[simp] theorem State.putCslr_events (s : State) (c : Cslr) : (s.putCslr c).events = s.events := rfl
@[simp] theorem State.putCslr_bankB (s : State) (c : Cslr) : (s.putCslr c).bankB = s.bankB := rfl
@[simp] theorem State.putCslr_fwVersion (s : State) (c : Cslr) : (s.putCslr c).fwVersion = s.fwVersion := rfl
@[simp] theorem State.putCslr_fwBuild (s : State) (c : Cslr) : (s.putCslr c).fwBuild = s.fwBuild := rfl
@[simp] theorem State.putCslr_fwMin (s : State) (c : Cslr) : (s.putCslr c).fwMin = s.fwMin := rfl
@[simp] theorem State.putCslr_fwStaged (s : State) (c : Cslr) : (s.putCslr c).fwStaged = s.fwStaged := rfl
@[simp] theorem State.putCslr_fwReady (s : State) (c : Cslr) : (s.putCslr c).fwReady = s.fwReady := rfl
@[simp] theorem State.putCslr_leafIndex (s : State) (c : Cslr) : (s.putCslr c).leafIndex = s.leafIndex := rfl
@[simp] theorem State.putCslr_repair (s : State) (c : Cslr) : (s.putCslr c).repair = s.repair := rfl
@[simp] theorem State.putCslr_crashRead (s : State) (c : Cslr) : (s.putCslr c).crashRead = s.crashRead := rfl

@[simp] theorem State.putDie_clk (s : State) (d : DieMgmt) : (s.putDie d).clk = s.clk := rfl
@[simp] theorem State.putDie_code (s : State) (d : DieMgmt) : (s.putDie d).code = s.code := rfl
@[simp] theorem State.putDie_defect (s : State) (d : DieMgmt) : (s.putDie d).defect = s.defect := rfl
@[simp] theorem State.putDie_opStep (s : State) (d : DieMgmt) : (s.putDie d).opStep = s.opStep := rfl
@[simp] theorem State.putDie_nextId (s : State) (d : DieMgmt) : (s.putDie d).nextId = s.nextId := rfl
@[simp] theorem State.putDie_freeCount (s : State) (d : DieMgmt) : (s.putDie d).freeCount = s.freeCount := rfl
@[simp] theorem State.putDie_issue (s : State) (d : DieMgmt) : (s.putDie d).issue = s.issue := rfl
@[simp] theorem State.putDie_arg (s : State) (d : DieMgmt) : (s.putDie d).arg = s.arg := rfl
@[simp] theorem State.putDie_sched (s : State) (d : DieMgmt) : (s.putDie d).sched = s.sched := rfl
@[simp] theorem State.putDie_dev (s : State) (d : DieMgmt) : (s.putDie d).dev = s.dev := rfl
@[simp] theorem State.putDie_hostMem (s : State) (d : DieMgmt) : (s.putDie d).hostMem = s.hostMem := rfl
@[simp] theorem State.putDie_peers (s : State) (d : DieMgmt) : (s.putDie d).peers = s.peers := rfl
@[simp] theorem State.putDie_devPoison (s : State) (d : DieMgmt) : (s.putDie d).devPoison = s.devPoison := rfl
@[simp] theorem State.putDie_hostPoison (s : State) (d : DieMgmt) : (s.putDie d).hostPoison = s.hostPoison := rfl
@[simp] theorem State.putDie_peerPoison (s : State) (d : DieMgmt) : (s.putDie d).peerPoison = s.peerPoison := rfl
@[simp] theorem State.putDie_co (s : State) (d : DieMgmt) : (s.putDie d).co = s.co := rfl
@[simp] theorem State.putDie_stores (s : State) (d : DieMgmt) : (s.putDie d).stores = s.stores := rfl
@[simp] theorem State.putDie_l1 (s : State) (d : DieMgmt) : (s.putDie d).l1 = s.l1 := rfl
@[simp] theorem State.putDie_groups (s : State) (d : DieMgmt) : (s.putDie d).groups = s.groups := rfl
@[simp] theorem State.putDie_teams (s : State) (d : DieMgmt) : (s.putDie d).teams = s.teams := rfl
@[simp] theorem State.putDie_cores (s : State) (d : DieMgmt) : (s.putDie d).cores = s.cores := rfl
@[simp] theorem State.putDie_jobs (s : State) (d : DieMgmt) : (s.putDie d).jobs = s.jobs := rfl
@[simp] theorem State.putDie_chains (s : State) (d : DieMgmt) : (s.putDie d).chains = s.chains := rfl
@[simp] theorem State.putDie_launches (s : State) (d : DieMgmt) : (s.putDie d).launches = s.launches := rfl
@[simp] theorem State.putDie_tickets (s : State) (d : DieMgmt) : (s.putDie d).tickets = s.tickets := rfl
@[simp] theorem State.putDie_batches (s : State) (d : DieMgmt) : (s.putDie d).batches = s.batches := rfl
@[simp] theorem State.putDie_ctxs (s : State) (d : DieMgmt) : (s.putDie d).ctxs = s.ctxs := rfl
@[simp] theorem State.putDie_pages (s : State) (d : DieMgmt) : (s.putDie d).pages = s.pages := rfl
@[simp] theorem State.putDie_images (s : State) (d : DieMgmt) : (s.putDie d).images = s.images := rfl
@[simp] theorem State.putDie_frames (s : State) (d : DieMgmt) : (s.putDie d).frames = s.frames := rfl
@[simp] theorem State.putDie_tags (s : State) (d : DieMgmt) : (s.putDie d).tags = s.tags := rfl
@[simp] theorem State.putDie_recs (s : State) (d : DieMgmt) : (s.putDie d).recs = s.recs := rfl
@[simp] theorem State.putDie_queues (s : State) (d : DieMgmt) : (s.putDie d).queues = s.queues := rfl
@[simp] theorem State.putDie_publishes (s : State) (d : DieMgmt) : (s.putDie d).publishes = s.publishes := rfl
@[simp] theorem State.putDie_prod (s : State) (d : DieMgmt) : (s.putDie d).prod = s.prod := rfl
@[simp] theorem State.putDie_cons (s : State) (d : DieMgmt) : (s.putDie d).cons = s.cons := rfl
@[simp] theorem State.putDie_ncount (s : State) (d : DieMgmt) : (s.putDie d).ncount = s.ncount := rfl
@[simp] theorem State.putDie_nhold (s : State) (d : DieMgmt) : (s.putDie d).nhold = s.nhold := rfl
@[simp] theorem State.putDie_overrun (s : State) (d : DieMgmt) : (s.putDie d).overrun = s.overrun := rfl
@[simp] theorem State.putDie_nvector (s : State) (d : DieMgmt) : (s.putDie d).nvector = s.nvector := rfl
@[simp] theorem State.putDie_notes (s : State) (d : DieMgmt) : (s.putDie d).notes = s.notes := rfl
@[simp] theorem State.putDie_noteSeq (s : State) (d : DieMgmt) : (s.putDie d).noteSeq = s.noteSeq := rfl
@[simp] theorem State.putDie_pendingNotes (s : State) (d : DieMgmt) : (s.putDie d).pendingNotes = s.pendingNotes := rfl
@[simp] theorem State.putDie_noteHeld (s : State) (d : DieMgmt) : (s.putDie d).noteHeld = s.noteHeld := rfl
@[simp] theorem State.putDie_masked (s : State) (d : DieMgmt) : (s.putDie d).masked = s.masked := rfl
@[simp] theorem State.putDie_heldMsix (s : State) (d : DieMgmt) : (s.putDie d).heldMsix = s.heldMsix := rfl
@[simp] theorem State.putDie_fprod (s : State) (d : DieMgmt) : (s.putDie d).fprod = s.fprod := rfl
@[simp] theorem State.putDie_fcount (s : State) (d : DieMgmt) : (s.putDie d).fcount = s.fcount := rfl
@[simp] theorem State.putDie_fcons (s : State) (d : DieMgmt) : (s.putDie d).fcons = s.fcons := rfl
@[simp] theorem State.putDie_foverrun (s : State) (d : DieMgmt) : (s.putDie d).foverrun = s.foverrun := rfl
@[simp] theorem State.putDie_fvector (s : State) (d : DieMgmt) : (s.putDie d).fvector = s.fvector := rfl
@[simp] theorem State.putDie_fheld (s : State) (d : DieMgmt) : (s.putDie d).fheld = s.fheld := rfl
@[simp] theorem State.putDie_batchSeq (s : State) (d : DieMgmt) : (s.putDie d).batchSeq = s.batchSeq := rfl
@[simp] theorem State.putDie_faults (s : State) (d : DieMgmt) : (s.putDie d).faults = s.faults := rfl
@[simp] theorem State.putDie_shoots (s : State) (d : DieMgmt) : (s.putDie d).shoots = s.shoots := rfl
@[simp] theorem State.putDie_moves (s : State) (d : DieMgmt) : (s.putDie d).moves = s.moves := rfl
@[simp] theorem State.putDie_holds (s : State) (d : DieMgmt) : (s.putDie d).holds = s.holds := rfl
@[simp] theorem State.putDie_migReqs (s : State) (d : DieMgmt) : (s.putDie d).migReqs = s.migReqs := rfl
@[simp] theorem State.putDie_tdisp (s : State) (d : DieMgmt) : (s.putDie d).tdisp = s.tdisp := rfl
@[simp] theorem State.putDie_ports (s : State) (d : DieMgmt) : (s.putDie d).ports = s.ports := rfl
@[simp] theorem State.putDie_ptpLocked (s : State) (d : DieMgmt) : (s.putDie d).ptpLocked = s.ptpLocked := rfl
@[simp] theorem State.putDie_ptpNs (s : State) (d : DieMgmt) : (s.putDie d).ptpNs = s.ptpNs := rfl
@[simp] theorem State.putDie_ptpSet (s : State) (d : DieMgmt) : (s.putDie d).ptpSet = s.ptpSet := rfl
@[simp] theorem State.putDie_ptpPort (s : State) (d : DieMgmt) : (s.putDie d).ptpPort = s.ptpPort := rfl
@[simp] theorem State.putDie_ptpSub (s : State) (d : DieMgmt) : (s.putDie d).ptpSub = s.ptpSub := rfl
@[simp] theorem State.putDie_ptpDomain (s : State) (d : DieMgmt) : (s.putDie d).ptpDomain = s.ptpDomain := rfl
@[simp] theorem State.putDie_out (s : State) (d : DieMgmt) : (s.putDie d).out = s.out := rfl
@[simp] theorem State.putDie_islands (s : State) (d : DieMgmt) : (s.putDie d).islands = s.islands := rfl
@[simp] theorem State.putDie_cslrs (s : State) (d : DieMgmt) : (s.putDie d).cslrs = s.cslrs := rfl
@[simp] theorem State.putDie_dies (s : State) (d : DieMgmt) : (s.putDie d).dies = putKey DieMgmt.die d s.dies := rfl
@[simp] theorem State.putDie_mgmt (s : State) (d : DieMgmt) : (s.putDie d).mgmt = s.mgmt := rfl
@[simp] theorem State.putDie_wear (s : State) (d : DieMgmt) : (s.putDie d).wear = s.wear := rfl
@[simp] theorem State.putDie_inReset (s : State) (d : DieMgmt) : (s.putDie d).inReset = s.inReset := rfl
@[simp] theorem State.putDie_crash (s : State) (d : DieMgmt) : (s.putDie d).crash = s.crash := rfl
@[simp] theorem State.putDie_boots (s : State) (d : DieMgmt) : (s.putDie d).boots = s.boots := rfl
@[simp] theorem State.putDie_events (s : State) (d : DieMgmt) : (s.putDie d).events = s.events := rfl
@[simp] theorem State.putDie_bankB (s : State) (d : DieMgmt) : (s.putDie d).bankB = s.bankB := rfl
@[simp] theorem State.putDie_fwVersion (s : State) (d : DieMgmt) : (s.putDie d).fwVersion = s.fwVersion := rfl
@[simp] theorem State.putDie_fwBuild (s : State) (d : DieMgmt) : (s.putDie d).fwBuild = s.fwBuild := rfl
@[simp] theorem State.putDie_fwMin (s : State) (d : DieMgmt) : (s.putDie d).fwMin = s.fwMin := rfl
@[simp] theorem State.putDie_fwStaged (s : State) (d : DieMgmt) : (s.putDie d).fwStaged = s.fwStaged := rfl
@[simp] theorem State.putDie_fwReady (s : State) (d : DieMgmt) : (s.putDie d).fwReady = s.fwReady := rfl
@[simp] theorem State.putDie_leafIndex (s : State) (d : DieMgmt) : (s.putDie d).leafIndex = s.leafIndex := rfl
@[simp] theorem State.putDie_repair (s : State) (d : DieMgmt) : (s.putDie d).repair = s.repair := rfl
@[simp] theorem State.putDie_crashRead (s : State) (d : DieMgmt) : (s.putDie d).crashRead = s.crashRead := rfl

@[simp] theorem State.putPort_clk (s : State) (p : MPort) : (s.putPort p).clk = s.clk := rfl
@[simp] theorem State.putPort_code (s : State) (p : MPort) : (s.putPort p).code = s.code := rfl
@[simp] theorem State.putPort_defect (s : State) (p : MPort) : (s.putPort p).defect = s.defect := rfl
@[simp] theorem State.putPort_opStep (s : State) (p : MPort) : (s.putPort p).opStep = s.opStep := rfl
@[simp] theorem State.putPort_nextId (s : State) (p : MPort) : (s.putPort p).nextId = s.nextId := rfl
@[simp] theorem State.putPort_freeCount (s : State) (p : MPort) : (s.putPort p).freeCount = s.freeCount := rfl
@[simp] theorem State.putPort_issue (s : State) (p : MPort) : (s.putPort p).issue = s.issue := rfl
@[simp] theorem State.putPort_arg (s : State) (p : MPort) : (s.putPort p).arg = s.arg := rfl
@[simp] theorem State.putPort_sched (s : State) (p : MPort) : (s.putPort p).sched = s.sched := rfl
@[simp] theorem State.putPort_dev (s : State) (p : MPort) : (s.putPort p).dev = s.dev := rfl
@[simp] theorem State.putPort_hostMem (s : State) (p : MPort) : (s.putPort p).hostMem = s.hostMem := rfl
@[simp] theorem State.putPort_peers (s : State) (p : MPort) : (s.putPort p).peers = s.peers := rfl
@[simp] theorem State.putPort_devPoison (s : State) (p : MPort) : (s.putPort p).devPoison = s.devPoison := rfl
@[simp] theorem State.putPort_hostPoison (s : State) (p : MPort) : (s.putPort p).hostPoison = s.hostPoison := rfl
@[simp] theorem State.putPort_peerPoison (s : State) (p : MPort) : (s.putPort p).peerPoison = s.peerPoison := rfl
@[simp] theorem State.putPort_co (s : State) (p : MPort) : (s.putPort p).co = s.co := rfl
@[simp] theorem State.putPort_stores (s : State) (p : MPort) : (s.putPort p).stores = s.stores := rfl
@[simp] theorem State.putPort_l1 (s : State) (p : MPort) : (s.putPort p).l1 = s.l1 := rfl
@[simp] theorem State.putPort_groups (s : State) (p : MPort) : (s.putPort p).groups = s.groups := rfl
@[simp] theorem State.putPort_teams (s : State) (p : MPort) : (s.putPort p).teams = s.teams := rfl
@[simp] theorem State.putPort_cores (s : State) (p : MPort) : (s.putPort p).cores = s.cores := rfl
@[simp] theorem State.putPort_jobs (s : State) (p : MPort) : (s.putPort p).jobs = s.jobs := rfl
@[simp] theorem State.putPort_chains (s : State) (p : MPort) : (s.putPort p).chains = s.chains := rfl
@[simp] theorem State.putPort_launches (s : State) (p : MPort) : (s.putPort p).launches = s.launches := rfl
@[simp] theorem State.putPort_tickets (s : State) (p : MPort) : (s.putPort p).tickets = s.tickets := rfl
@[simp] theorem State.putPort_batches (s : State) (p : MPort) : (s.putPort p).batches = s.batches := rfl
@[simp] theorem State.putPort_ctxs (s : State) (p : MPort) : (s.putPort p).ctxs = s.ctxs := rfl
@[simp] theorem State.putPort_pages (s : State) (p : MPort) : (s.putPort p).pages = s.pages := rfl
@[simp] theorem State.putPort_images (s : State) (p : MPort) : (s.putPort p).images = s.images := rfl
@[simp] theorem State.putPort_frames (s : State) (p : MPort) : (s.putPort p).frames = s.frames := rfl
@[simp] theorem State.putPort_tags (s : State) (p : MPort) : (s.putPort p).tags = s.tags := rfl
@[simp] theorem State.putPort_recs (s : State) (p : MPort) : (s.putPort p).recs = s.recs := rfl
@[simp] theorem State.putPort_queues (s : State) (p : MPort) : (s.putPort p).queues = s.queues := rfl
@[simp] theorem State.putPort_publishes (s : State) (p : MPort) : (s.putPort p).publishes = s.publishes := rfl
@[simp] theorem State.putPort_prod (s : State) (p : MPort) : (s.putPort p).prod = s.prod := rfl
@[simp] theorem State.putPort_cons (s : State) (p : MPort) : (s.putPort p).cons = s.cons := rfl
@[simp] theorem State.putPort_ncount (s : State) (p : MPort) : (s.putPort p).ncount = s.ncount := rfl
@[simp] theorem State.putPort_nhold (s : State) (p : MPort) : (s.putPort p).nhold = s.nhold := rfl
@[simp] theorem State.putPort_overrun (s : State) (p : MPort) : (s.putPort p).overrun = s.overrun := rfl
@[simp] theorem State.putPort_nvector (s : State) (p : MPort) : (s.putPort p).nvector = s.nvector := rfl
@[simp] theorem State.putPort_notes (s : State) (p : MPort) : (s.putPort p).notes = s.notes := rfl
@[simp] theorem State.putPort_noteSeq (s : State) (p : MPort) : (s.putPort p).noteSeq = s.noteSeq := rfl
@[simp] theorem State.putPort_pendingNotes (s : State) (p : MPort) : (s.putPort p).pendingNotes = s.pendingNotes := rfl
@[simp] theorem State.putPort_noteHeld (s : State) (p : MPort) : (s.putPort p).noteHeld = s.noteHeld := rfl
@[simp] theorem State.putPort_masked (s : State) (p : MPort) : (s.putPort p).masked = s.masked := rfl
@[simp] theorem State.putPort_heldMsix (s : State) (p : MPort) : (s.putPort p).heldMsix = s.heldMsix := rfl
@[simp] theorem State.putPort_fprod (s : State) (p : MPort) : (s.putPort p).fprod = s.fprod := rfl
@[simp] theorem State.putPort_fcount (s : State) (p : MPort) : (s.putPort p).fcount = s.fcount := rfl
@[simp] theorem State.putPort_fcons (s : State) (p : MPort) : (s.putPort p).fcons = s.fcons := rfl
@[simp] theorem State.putPort_foverrun (s : State) (p : MPort) : (s.putPort p).foverrun = s.foverrun := rfl
@[simp] theorem State.putPort_fvector (s : State) (p : MPort) : (s.putPort p).fvector = s.fvector := rfl
@[simp] theorem State.putPort_fheld (s : State) (p : MPort) : (s.putPort p).fheld = s.fheld := rfl
@[simp] theorem State.putPort_batchSeq (s : State) (p : MPort) : (s.putPort p).batchSeq = s.batchSeq := rfl
@[simp] theorem State.putPort_faults (s : State) (p : MPort) : (s.putPort p).faults = s.faults := rfl
@[simp] theorem State.putPort_shoots (s : State) (p : MPort) : (s.putPort p).shoots = s.shoots := rfl
@[simp] theorem State.putPort_moves (s : State) (p : MPort) : (s.putPort p).moves = s.moves := rfl
@[simp] theorem State.putPort_holds (s : State) (p : MPort) : (s.putPort p).holds = s.holds := rfl
@[simp] theorem State.putPort_migReqs (s : State) (p : MPort) : (s.putPort p).migReqs = s.migReqs := rfl
@[simp] theorem State.putPort_tdisp (s : State) (p : MPort) : (s.putPort p).tdisp = s.tdisp := rfl
@[simp] theorem State.putPort_ports (s : State) (p : MPort) : (s.putPort p).ports = putKey MPort.port p s.ports := rfl
@[simp] theorem State.putPort_ptpLocked (s : State) (p : MPort) : (s.putPort p).ptpLocked = s.ptpLocked := rfl
@[simp] theorem State.putPort_ptpNs (s : State) (p : MPort) : (s.putPort p).ptpNs = s.ptpNs := rfl
@[simp] theorem State.putPort_ptpSet (s : State) (p : MPort) : (s.putPort p).ptpSet = s.ptpSet := rfl
@[simp] theorem State.putPort_ptpPort (s : State) (p : MPort) : (s.putPort p).ptpPort = s.ptpPort := rfl
@[simp] theorem State.putPort_ptpSub (s : State) (p : MPort) : (s.putPort p).ptpSub = s.ptpSub := rfl
@[simp] theorem State.putPort_ptpDomain (s : State) (p : MPort) : (s.putPort p).ptpDomain = s.ptpDomain := rfl
@[simp] theorem State.putPort_out (s : State) (p : MPort) : (s.putPort p).out = s.out := rfl
@[simp] theorem State.putPort_islands (s : State) (p : MPort) : (s.putPort p).islands = s.islands := rfl
@[simp] theorem State.putPort_cslrs (s : State) (p : MPort) : (s.putPort p).cslrs = s.cslrs := rfl
@[simp] theorem State.putPort_dies (s : State) (p : MPort) : (s.putPort p).dies = s.dies := rfl
@[simp] theorem State.putPort_mgmt (s : State) (p : MPort) : (s.putPort p).mgmt = s.mgmt := rfl
@[simp] theorem State.putPort_wear (s : State) (p : MPort) : (s.putPort p).wear = s.wear := rfl
@[simp] theorem State.putPort_inReset (s : State) (p : MPort) : (s.putPort p).inReset = s.inReset := rfl
@[simp] theorem State.putPort_crash (s : State) (p : MPort) : (s.putPort p).crash = s.crash := rfl
@[simp] theorem State.putPort_boots (s : State) (p : MPort) : (s.putPort p).boots = s.boots := rfl
@[simp] theorem State.putPort_events (s : State) (p : MPort) : (s.putPort p).events = s.events := rfl
@[simp] theorem State.putPort_bankB (s : State) (p : MPort) : (s.putPort p).bankB = s.bankB := rfl
@[simp] theorem State.putPort_fwVersion (s : State) (p : MPort) : (s.putPort p).fwVersion = s.fwVersion := rfl
@[simp] theorem State.putPort_fwBuild (s : State) (p : MPort) : (s.putPort p).fwBuild = s.fwBuild := rfl
@[simp] theorem State.putPort_fwMin (s : State) (p : MPort) : (s.putPort p).fwMin = s.fwMin := rfl
@[simp] theorem State.putPort_fwStaged (s : State) (p : MPort) : (s.putPort p).fwStaged = s.fwStaged := rfl
@[simp] theorem State.putPort_fwReady (s : State) (p : MPort) : (s.putPort p).fwReady = s.fwReady := rfl
@[simp] theorem State.putPort_leafIndex (s : State) (p : MPort) : (s.putPort p).leafIndex = s.leafIndex := rfl
@[simp] theorem State.putPort_repair (s : State) (p : MPort) : (s.putPort p).repair = s.repair := rfl
@[simp] theorem State.putPort_crashRead (s : State) (p : MPort) : (s.putPort p).crashRead = s.crashRead := rfl

@[simp] theorem State.putTdi_clk (s : State) (t : Tdisp) : (s.putTdi t).clk = s.clk := rfl
@[simp] theorem State.putTdi_code (s : State) (t : Tdisp) : (s.putTdi t).code = s.code := rfl
@[simp] theorem State.putTdi_defect (s : State) (t : Tdisp) : (s.putTdi t).defect = s.defect := rfl
@[simp] theorem State.putTdi_opStep (s : State) (t : Tdisp) : (s.putTdi t).opStep = s.opStep := rfl
@[simp] theorem State.putTdi_nextId (s : State) (t : Tdisp) : (s.putTdi t).nextId = s.nextId := rfl
@[simp] theorem State.putTdi_freeCount (s : State) (t : Tdisp) : (s.putTdi t).freeCount = s.freeCount := rfl
@[simp] theorem State.putTdi_issue (s : State) (t : Tdisp) : (s.putTdi t).issue = s.issue := rfl
@[simp] theorem State.putTdi_arg (s : State) (t : Tdisp) : (s.putTdi t).arg = s.arg := rfl
@[simp] theorem State.putTdi_sched (s : State) (t : Tdisp) : (s.putTdi t).sched = s.sched := rfl
@[simp] theorem State.putTdi_dev (s : State) (t : Tdisp) : (s.putTdi t).dev = s.dev := rfl
@[simp] theorem State.putTdi_hostMem (s : State) (t : Tdisp) : (s.putTdi t).hostMem = s.hostMem := rfl
@[simp] theorem State.putTdi_peers (s : State) (t : Tdisp) : (s.putTdi t).peers = s.peers := rfl
@[simp] theorem State.putTdi_devPoison (s : State) (t : Tdisp) : (s.putTdi t).devPoison = s.devPoison := rfl
@[simp] theorem State.putTdi_hostPoison (s : State) (t : Tdisp) : (s.putTdi t).hostPoison = s.hostPoison := rfl
@[simp] theorem State.putTdi_peerPoison (s : State) (t : Tdisp) : (s.putTdi t).peerPoison = s.peerPoison := rfl
@[simp] theorem State.putTdi_co (s : State) (t : Tdisp) : (s.putTdi t).co = s.co := rfl
@[simp] theorem State.putTdi_stores (s : State) (t : Tdisp) : (s.putTdi t).stores = s.stores := rfl
@[simp] theorem State.putTdi_l1 (s : State) (t : Tdisp) : (s.putTdi t).l1 = s.l1 := rfl
@[simp] theorem State.putTdi_groups (s : State) (t : Tdisp) : (s.putTdi t).groups = s.groups := rfl
@[simp] theorem State.putTdi_teams (s : State) (t : Tdisp) : (s.putTdi t).teams = s.teams := rfl
@[simp] theorem State.putTdi_cores (s : State) (t : Tdisp) : (s.putTdi t).cores = s.cores := rfl
@[simp] theorem State.putTdi_jobs (s : State) (t : Tdisp) : (s.putTdi t).jobs = s.jobs := rfl
@[simp] theorem State.putTdi_chains (s : State) (t : Tdisp) : (s.putTdi t).chains = s.chains := rfl
@[simp] theorem State.putTdi_launches (s : State) (t : Tdisp) : (s.putTdi t).launches = s.launches := rfl
@[simp] theorem State.putTdi_tickets (s : State) (t : Tdisp) : (s.putTdi t).tickets = s.tickets := rfl
@[simp] theorem State.putTdi_batches (s : State) (t : Tdisp) : (s.putTdi t).batches = s.batches := rfl
@[simp] theorem State.putTdi_ctxs (s : State) (t : Tdisp) : (s.putTdi t).ctxs = s.ctxs := rfl
@[simp] theorem State.putTdi_pages (s : State) (t : Tdisp) : (s.putTdi t).pages = s.pages := rfl
@[simp] theorem State.putTdi_images (s : State) (t : Tdisp) : (s.putTdi t).images = s.images := rfl
@[simp] theorem State.putTdi_frames (s : State) (t : Tdisp) : (s.putTdi t).frames = s.frames := rfl
@[simp] theorem State.putTdi_tags (s : State) (t : Tdisp) : (s.putTdi t).tags = s.tags := rfl
@[simp] theorem State.putTdi_recs (s : State) (t : Tdisp) : (s.putTdi t).recs = s.recs := rfl
@[simp] theorem State.putTdi_queues (s : State) (t : Tdisp) : (s.putTdi t).queues = s.queues := rfl
@[simp] theorem State.putTdi_publishes (s : State) (t : Tdisp) : (s.putTdi t).publishes = s.publishes := rfl
@[simp] theorem State.putTdi_prod (s : State) (t : Tdisp) : (s.putTdi t).prod = s.prod := rfl
@[simp] theorem State.putTdi_cons (s : State) (t : Tdisp) : (s.putTdi t).cons = s.cons := rfl
@[simp] theorem State.putTdi_ncount (s : State) (t : Tdisp) : (s.putTdi t).ncount = s.ncount := rfl
@[simp] theorem State.putTdi_nhold (s : State) (t : Tdisp) : (s.putTdi t).nhold = s.nhold := rfl
@[simp] theorem State.putTdi_overrun (s : State) (t : Tdisp) : (s.putTdi t).overrun = s.overrun := rfl
@[simp] theorem State.putTdi_nvector (s : State) (t : Tdisp) : (s.putTdi t).nvector = s.nvector := rfl
@[simp] theorem State.putTdi_notes (s : State) (t : Tdisp) : (s.putTdi t).notes = s.notes := rfl
@[simp] theorem State.putTdi_noteSeq (s : State) (t : Tdisp) : (s.putTdi t).noteSeq = s.noteSeq := rfl
@[simp] theorem State.putTdi_pendingNotes (s : State) (t : Tdisp) : (s.putTdi t).pendingNotes = s.pendingNotes := rfl
@[simp] theorem State.putTdi_noteHeld (s : State) (t : Tdisp) : (s.putTdi t).noteHeld = s.noteHeld := rfl
@[simp] theorem State.putTdi_masked (s : State) (t : Tdisp) : (s.putTdi t).masked = s.masked := rfl
@[simp] theorem State.putTdi_heldMsix (s : State) (t : Tdisp) : (s.putTdi t).heldMsix = s.heldMsix := rfl
@[simp] theorem State.putTdi_fprod (s : State) (t : Tdisp) : (s.putTdi t).fprod = s.fprod := rfl
@[simp] theorem State.putTdi_fcount (s : State) (t : Tdisp) : (s.putTdi t).fcount = s.fcount := rfl
@[simp] theorem State.putTdi_fcons (s : State) (t : Tdisp) : (s.putTdi t).fcons = s.fcons := rfl
@[simp] theorem State.putTdi_foverrun (s : State) (t : Tdisp) : (s.putTdi t).foverrun = s.foverrun := rfl
@[simp] theorem State.putTdi_fvector (s : State) (t : Tdisp) : (s.putTdi t).fvector = s.fvector := rfl
@[simp] theorem State.putTdi_fheld (s : State) (t : Tdisp) : (s.putTdi t).fheld = s.fheld := rfl
@[simp] theorem State.putTdi_batchSeq (s : State) (t : Tdisp) : (s.putTdi t).batchSeq = s.batchSeq := rfl
@[simp] theorem State.putTdi_faults (s : State) (t : Tdisp) : (s.putTdi t).faults = s.faults := rfl
@[simp] theorem State.putTdi_shoots (s : State) (t : Tdisp) : (s.putTdi t).shoots = s.shoots := rfl
@[simp] theorem State.putTdi_moves (s : State) (t : Tdisp) : (s.putTdi t).moves = s.moves := rfl
@[simp] theorem State.putTdi_holds (s : State) (t : Tdisp) : (s.putTdi t).holds = s.holds := rfl
@[simp] theorem State.putTdi_migReqs (s : State) (t : Tdisp) : (s.putTdi t).migReqs = s.migReqs := rfl
@[simp] theorem State.putTdi_tdisp (s : State) (t : Tdisp) : (s.putTdi t).tdisp = putKey Tdisp.tdi t s.tdisp := rfl
@[simp] theorem State.putTdi_ports (s : State) (t : Tdisp) : (s.putTdi t).ports = s.ports := rfl
@[simp] theorem State.putTdi_ptpLocked (s : State) (t : Tdisp) : (s.putTdi t).ptpLocked = s.ptpLocked := rfl
@[simp] theorem State.putTdi_ptpNs (s : State) (t : Tdisp) : (s.putTdi t).ptpNs = s.ptpNs := rfl
@[simp] theorem State.putTdi_ptpSet (s : State) (t : Tdisp) : (s.putTdi t).ptpSet = s.ptpSet := rfl
@[simp] theorem State.putTdi_ptpPort (s : State) (t : Tdisp) : (s.putTdi t).ptpPort = s.ptpPort := rfl
@[simp] theorem State.putTdi_ptpSub (s : State) (t : Tdisp) : (s.putTdi t).ptpSub = s.ptpSub := rfl
@[simp] theorem State.putTdi_ptpDomain (s : State) (t : Tdisp) : (s.putTdi t).ptpDomain = s.ptpDomain := rfl
@[simp] theorem State.putTdi_out (s : State) (t : Tdisp) : (s.putTdi t).out = s.out := rfl
@[simp] theorem State.putTdi_islands (s : State) (t : Tdisp) : (s.putTdi t).islands = s.islands := rfl
@[simp] theorem State.putTdi_cslrs (s : State) (t : Tdisp) : (s.putTdi t).cslrs = s.cslrs := rfl
@[simp] theorem State.putTdi_dies (s : State) (t : Tdisp) : (s.putTdi t).dies = s.dies := rfl
@[simp] theorem State.putTdi_mgmt (s : State) (t : Tdisp) : (s.putTdi t).mgmt = s.mgmt := rfl
@[simp] theorem State.putTdi_wear (s : State) (t : Tdisp) : (s.putTdi t).wear = s.wear := rfl
@[simp] theorem State.putTdi_inReset (s : State) (t : Tdisp) : (s.putTdi t).inReset = s.inReset := rfl
@[simp] theorem State.putTdi_crash (s : State) (t : Tdisp) : (s.putTdi t).crash = s.crash := rfl
@[simp] theorem State.putTdi_boots (s : State) (t : Tdisp) : (s.putTdi t).boots = s.boots := rfl
@[simp] theorem State.putTdi_events (s : State) (t : Tdisp) : (s.putTdi t).events = s.events := rfl
@[simp] theorem State.putTdi_bankB (s : State) (t : Tdisp) : (s.putTdi t).bankB = s.bankB := rfl
@[simp] theorem State.putTdi_fwVersion (s : State) (t : Tdisp) : (s.putTdi t).fwVersion = s.fwVersion := rfl
@[simp] theorem State.putTdi_fwBuild (s : State) (t : Tdisp) : (s.putTdi t).fwBuild = s.fwBuild := rfl
@[simp] theorem State.putTdi_fwMin (s : State) (t : Tdisp) : (s.putTdi t).fwMin = s.fwMin := rfl
@[simp] theorem State.putTdi_fwStaged (s : State) (t : Tdisp) : (s.putTdi t).fwStaged = s.fwStaged := rfl
@[simp] theorem State.putTdi_fwReady (s : State) (t : Tdisp) : (s.putTdi t).fwReady = s.fwReady := rfl
@[simp] theorem State.putTdi_leafIndex (s : State) (t : Tdisp) : (s.putTdi t).leafIndex = s.leafIndex := rfl
@[simp] theorem State.putTdi_repair (s : State) (t : Tdisp) : (s.putTdi t).repair = s.repair := rfl
@[simp] theorem State.putTdi_crashRead (s : State) (t : Tdisp) : (s.putTdi t).crashRead = s.crashRead := rfl

@[simp] theorem State.emit_clk (s : State) (o : Out) : (s.emit o).clk = s.clk := rfl
@[simp] theorem State.emit_code (s : State) (o : Out) : (s.emit o).code = s.code := rfl
@[simp] theorem State.emit_defect (s : State) (o : Out) : (s.emit o).defect = s.defect := rfl
@[simp] theorem State.emit_opStep (s : State) (o : Out) : (s.emit o).opStep = s.opStep := rfl
@[simp] theorem State.emit_nextId (s : State) (o : Out) : (s.emit o).nextId = s.nextId := rfl
@[simp] theorem State.emit_freeCount (s : State) (o : Out) : (s.emit o).freeCount = s.freeCount := rfl
@[simp] theorem State.emit_issue (s : State) (o : Out) : (s.emit o).issue = s.issue := rfl
@[simp] theorem State.emit_arg (s : State) (o : Out) : (s.emit o).arg = s.arg := rfl
@[simp] theorem State.emit_sched (s : State) (o : Out) : (s.emit o).sched = s.sched := rfl
@[simp] theorem State.emit_dev (s : State) (o : Out) : (s.emit o).dev = s.dev := rfl
@[simp] theorem State.emit_hostMem (s : State) (o : Out) : (s.emit o).hostMem = s.hostMem := rfl
@[simp] theorem State.emit_peers (s : State) (o : Out) : (s.emit o).peers = s.peers := rfl
@[simp] theorem State.emit_devPoison (s : State) (o : Out) : (s.emit o).devPoison = s.devPoison := rfl
@[simp] theorem State.emit_hostPoison (s : State) (o : Out) : (s.emit o).hostPoison = s.hostPoison := rfl
@[simp] theorem State.emit_peerPoison (s : State) (o : Out) : (s.emit o).peerPoison = s.peerPoison := rfl
@[simp] theorem State.emit_co (s : State) (o : Out) : (s.emit o).co = s.co := rfl
@[simp] theorem State.emit_stores (s : State) (o : Out) : (s.emit o).stores = s.stores := rfl
@[simp] theorem State.emit_l1 (s : State) (o : Out) : (s.emit o).l1 = s.l1 := rfl
@[simp] theorem State.emit_groups (s : State) (o : Out) : (s.emit o).groups = s.groups := rfl
@[simp] theorem State.emit_teams (s : State) (o : Out) : (s.emit o).teams = s.teams := rfl
@[simp] theorem State.emit_cores (s : State) (o : Out) : (s.emit o).cores = s.cores := rfl
@[simp] theorem State.emit_jobs (s : State) (o : Out) : (s.emit o).jobs = s.jobs := rfl
@[simp] theorem State.emit_chains (s : State) (o : Out) : (s.emit o).chains = s.chains := rfl
@[simp] theorem State.emit_launches (s : State) (o : Out) : (s.emit o).launches = s.launches := rfl
@[simp] theorem State.emit_tickets (s : State) (o : Out) : (s.emit o).tickets = s.tickets := rfl
@[simp] theorem State.emit_batches (s : State) (o : Out) : (s.emit o).batches = s.batches := rfl
@[simp] theorem State.emit_ctxs (s : State) (o : Out) : (s.emit o).ctxs = s.ctxs := rfl
@[simp] theorem State.emit_pages (s : State) (o : Out) : (s.emit o).pages = s.pages := rfl
@[simp] theorem State.emit_images (s : State) (o : Out) : (s.emit o).images = s.images := rfl
@[simp] theorem State.emit_frames (s : State) (o : Out) : (s.emit o).frames = s.frames := rfl
@[simp] theorem State.emit_tags (s : State) (o : Out) : (s.emit o).tags = s.tags := rfl
@[simp] theorem State.emit_recs (s : State) (o : Out) : (s.emit o).recs = s.recs := rfl
@[simp] theorem State.emit_queues (s : State) (o : Out) : (s.emit o).queues = s.queues := rfl
@[simp] theorem State.emit_publishes (s : State) (o : Out) : (s.emit o).publishes = s.publishes := rfl
@[simp] theorem State.emit_prod (s : State) (o : Out) : (s.emit o).prod = s.prod := rfl
@[simp] theorem State.emit_cons (s : State) (o : Out) : (s.emit o).cons = s.cons := rfl
@[simp] theorem State.emit_ncount (s : State) (o : Out) : (s.emit o).ncount = s.ncount := rfl
@[simp] theorem State.emit_nhold (s : State) (o : Out) : (s.emit o).nhold = s.nhold := rfl
@[simp] theorem State.emit_overrun (s : State) (o : Out) : (s.emit o).overrun = s.overrun := rfl
@[simp] theorem State.emit_nvector (s : State) (o : Out) : (s.emit o).nvector = s.nvector := rfl
@[simp] theorem State.emit_notes (s : State) (o : Out) : (s.emit o).notes = s.notes := rfl
@[simp] theorem State.emit_noteSeq (s : State) (o : Out) : (s.emit o).noteSeq = s.noteSeq := rfl
@[simp] theorem State.emit_pendingNotes (s : State) (o : Out) : (s.emit o).pendingNotes = s.pendingNotes := rfl
@[simp] theorem State.emit_noteHeld (s : State) (o : Out) : (s.emit o).noteHeld = s.noteHeld := rfl
@[simp] theorem State.emit_masked (s : State) (o : Out) : (s.emit o).masked = s.masked := rfl
@[simp] theorem State.emit_heldMsix (s : State) (o : Out) : (s.emit o).heldMsix = s.heldMsix := rfl
@[simp] theorem State.emit_fprod (s : State) (o : Out) : (s.emit o).fprod = s.fprod := rfl
@[simp] theorem State.emit_fcount (s : State) (o : Out) : (s.emit o).fcount = s.fcount := rfl
@[simp] theorem State.emit_fcons (s : State) (o : Out) : (s.emit o).fcons = s.fcons := rfl
@[simp] theorem State.emit_foverrun (s : State) (o : Out) : (s.emit o).foverrun = s.foverrun := rfl
@[simp] theorem State.emit_fvector (s : State) (o : Out) : (s.emit o).fvector = s.fvector := rfl
@[simp] theorem State.emit_fheld (s : State) (o : Out) : (s.emit o).fheld = s.fheld := rfl
@[simp] theorem State.emit_batchSeq (s : State) (o : Out) : (s.emit o).batchSeq = s.batchSeq := rfl
@[simp] theorem State.emit_faults (s : State) (o : Out) : (s.emit o).faults = s.faults := rfl
@[simp] theorem State.emit_shoots (s : State) (o : Out) : (s.emit o).shoots = s.shoots := rfl
@[simp] theorem State.emit_moves (s : State) (o : Out) : (s.emit o).moves = s.moves := rfl
@[simp] theorem State.emit_holds (s : State) (o : Out) : (s.emit o).holds = s.holds := rfl
@[simp] theorem State.emit_migReqs (s : State) (o : Out) : (s.emit o).migReqs = s.migReqs := rfl
@[simp] theorem State.emit_tdisp (s : State) (o : Out) : (s.emit o).tdisp = s.tdisp := rfl
@[simp] theorem State.emit_ports (s : State) (o : Out) : (s.emit o).ports = s.ports := rfl
@[simp] theorem State.emit_ptpLocked (s : State) (o : Out) : (s.emit o).ptpLocked = s.ptpLocked := rfl
@[simp] theorem State.emit_ptpNs (s : State) (o : Out) : (s.emit o).ptpNs = s.ptpNs := rfl
@[simp] theorem State.emit_ptpSet (s : State) (o : Out) : (s.emit o).ptpSet = s.ptpSet := rfl
@[simp] theorem State.emit_ptpPort (s : State) (o : Out) : (s.emit o).ptpPort = s.ptpPort := rfl
@[simp] theorem State.emit_ptpSub (s : State) (o : Out) : (s.emit o).ptpSub = s.ptpSub := rfl
@[simp] theorem State.emit_ptpDomain (s : State) (o : Out) : (s.emit o).ptpDomain = s.ptpDomain := rfl
@[simp] theorem State.emit_out (s : State) (o : Out) : (s.emit o).out = s.out ++ [o] := rfl
@[simp] theorem State.emit_islands (s : State) (o : Out) : (s.emit o).islands = s.islands := rfl
@[simp] theorem State.emit_cslrs (s : State) (o : Out) : (s.emit o).cslrs = s.cslrs := rfl
@[simp] theorem State.emit_dies (s : State) (o : Out) : (s.emit o).dies = s.dies := rfl
@[simp] theorem State.emit_mgmt (s : State) (o : Out) : (s.emit o).mgmt = s.mgmt := rfl
@[simp] theorem State.emit_wear (s : State) (o : Out) : (s.emit o).wear = s.wear := rfl
@[simp] theorem State.emit_inReset (s : State) (o : Out) : (s.emit o).inReset = s.inReset := rfl
@[simp] theorem State.emit_crash (s : State) (o : Out) : (s.emit o).crash = s.crash := rfl
@[simp] theorem State.emit_boots (s : State) (o : Out) : (s.emit o).boots = s.boots := rfl
@[simp] theorem State.emit_events (s : State) (o : Out) : (s.emit o).events = s.events := rfl
@[simp] theorem State.emit_bankB (s : State) (o : Out) : (s.emit o).bankB = s.bankB := rfl
@[simp] theorem State.emit_fwVersion (s : State) (o : Out) : (s.emit o).fwVersion = s.fwVersion := rfl
@[simp] theorem State.emit_fwBuild (s : State) (o : Out) : (s.emit o).fwBuild = s.fwBuild := rfl
@[simp] theorem State.emit_fwMin (s : State) (o : Out) : (s.emit o).fwMin = s.fwMin := rfl
@[simp] theorem State.emit_fwStaged (s : State) (o : Out) : (s.emit o).fwStaged = s.fwStaged := rfl
@[simp] theorem State.emit_fwReady (s : State) (o : Out) : (s.emit o).fwReady = s.fwReady := rfl
@[simp] theorem State.emit_leafIndex (s : State) (o : Out) : (s.emit o).leafIndex = s.leafIndex := rfl
@[simp] theorem State.emit_repair (s : State) (o : Out) : (s.emit o).repair = s.repair := rfl
@[simp] theorem State.emit_crashRead (s : State) (o : Out) : (s.emit o).crashRead = s.crashRead := rfl

@[simp] theorem State.tidy_clk (s : State) : (s.tidy).clk = s.clk := rfl
@[simp] theorem State.tidy_code (s : State) : (s.tidy).code = s.code := rfl
@[simp] theorem State.tidy_defect (s : State) : (s.tidy).defect = s.defect := rfl
@[simp] theorem State.tidy_opStep (s : State) : (s.tidy).opStep = s.opStep := rfl
@[simp] theorem State.tidy_nextId (s : State) : (s.tidy).nextId = s.nextId := rfl
@[simp] theorem State.tidy_freeCount (s : State) : (s.tidy).freeCount = s.freeCount := rfl
@[simp] theorem State.tidy_issue (s : State) : (s.tidy).issue = none := rfl
@[simp] theorem State.tidy_arg (s : State) : (s.tidy).arg = EvArg.zero := rfl
@[simp] theorem State.tidy_sched (s : State) : (s.tidy).sched = s.sched := rfl
@[simp] theorem State.tidy_dev (s : State) : (s.tidy).dev = s.dev := rfl
@[simp] theorem State.tidy_hostMem (s : State) : (s.tidy).hostMem = s.hostMem := rfl
@[simp] theorem State.tidy_peers (s : State) : (s.tidy).peers = s.peers := rfl
@[simp] theorem State.tidy_devPoison (s : State) : (s.tidy).devPoison = s.devPoison := rfl
@[simp] theorem State.tidy_hostPoison (s : State) : (s.tidy).hostPoison = s.hostPoison := rfl
@[simp] theorem State.tidy_peerPoison (s : State) : (s.tidy).peerPoison = s.peerPoison := rfl
@[simp] theorem State.tidy_co (s : State) : (s.tidy).co = s.co := rfl
@[simp] theorem State.tidy_stores (s : State) : (s.tidy).stores = s.stores := rfl
@[simp] theorem State.tidy_l1 (s : State) : (s.tidy).l1 = s.l1 := rfl
@[simp] theorem State.tidy_groups (s : State) : (s.tidy).groups = s.groups := rfl
@[simp] theorem State.tidy_teams (s : State) : (s.tidy).teams = s.teams := rfl
@[simp] theorem State.tidy_cores (s : State) : (s.tidy).cores = s.cores := rfl
@[simp] theorem State.tidy_jobs (s : State) : (s.tidy).jobs = s.jobs := rfl
@[simp] theorem State.tidy_chains (s : State) : (s.tidy).chains = s.chains := rfl
@[simp] theorem State.tidy_launches (s : State) : (s.tidy).launches = s.launches := rfl
@[simp] theorem State.tidy_tickets (s : State) : (s.tidy).tickets = s.tickets := rfl
@[simp] theorem State.tidy_batches (s : State) : (s.tidy).batches = s.batches := rfl
@[simp] theorem State.tidy_ctxs (s : State) : (s.tidy).ctxs = s.ctxs := rfl
@[simp] theorem State.tidy_pages (s : State) : (s.tidy).pages = s.pages := rfl
@[simp] theorem State.tidy_images (s : State) : (s.tidy).images = s.images := rfl
@[simp] theorem State.tidy_frames (s : State) : (s.tidy).frames = s.frames := rfl
@[simp] theorem State.tidy_tags (s : State) : (s.tidy).tags = s.tags := rfl
@[simp] theorem State.tidy_recs (s : State) : (s.tidy).recs = s.recs := rfl
@[simp] theorem State.tidy_queues (s : State) : (s.tidy).queues = s.queues := rfl
@[simp] theorem State.tidy_publishes (s : State) : (s.tidy).publishes = s.publishes := rfl
@[simp] theorem State.tidy_prod (s : State) : (s.tidy).prod = s.prod := rfl
@[simp] theorem State.tidy_cons (s : State) : (s.tidy).cons = s.cons := rfl
@[simp] theorem State.tidy_ncount (s : State) : (s.tidy).ncount = s.ncount := rfl
@[simp] theorem State.tidy_nhold (s : State) : (s.tidy).nhold = s.nhold := rfl
@[simp] theorem State.tidy_overrun (s : State) : (s.tidy).overrun = s.overrun := rfl
@[simp] theorem State.tidy_nvector (s : State) : (s.tidy).nvector = s.nvector := rfl
@[simp] theorem State.tidy_notes (s : State) : (s.tidy).notes = s.notes := rfl
@[simp] theorem State.tidy_noteSeq (s : State) : (s.tidy).noteSeq = s.noteSeq := rfl
@[simp] theorem State.tidy_pendingNotes (s : State) : (s.tidy).pendingNotes = s.pendingNotes := rfl
@[simp] theorem State.tidy_noteHeld (s : State) : (s.tidy).noteHeld = s.noteHeld := rfl
@[simp] theorem State.tidy_masked (s : State) : (s.tidy).masked = s.masked := rfl
@[simp] theorem State.tidy_heldMsix (s : State) : (s.tidy).heldMsix = s.heldMsix := rfl
@[simp] theorem State.tidy_fprod (s : State) : (s.tidy).fprod = s.fprod := rfl
@[simp] theorem State.tidy_fcount (s : State) : (s.tidy).fcount = s.fcount := rfl
@[simp] theorem State.tidy_fcons (s : State) : (s.tidy).fcons = s.fcons := rfl
@[simp] theorem State.tidy_foverrun (s : State) : (s.tidy).foverrun = s.foverrun := rfl
@[simp] theorem State.tidy_fvector (s : State) : (s.tidy).fvector = s.fvector := rfl
@[simp] theorem State.tidy_fheld (s : State) : (s.tidy).fheld = s.fheld := rfl
@[simp] theorem State.tidy_batchSeq (s : State) : (s.tidy).batchSeq = s.batchSeq := rfl
@[simp] theorem State.tidy_faults (s : State) : (s.tidy).faults = s.faults := rfl
@[simp] theorem State.tidy_shoots (s : State) : (s.tidy).shoots = s.shoots := rfl
@[simp] theorem State.tidy_moves (s : State) : (s.tidy).moves = s.moves := rfl
@[simp] theorem State.tidy_holds (s : State) : (s.tidy).holds = s.holds := rfl
@[simp] theorem State.tidy_migReqs (s : State) : (s.tidy).migReqs = s.migReqs := rfl
@[simp] theorem State.tidy_tdisp (s : State) : (s.tidy).tdisp = s.tdisp := rfl
@[simp] theorem State.tidy_ports (s : State) : (s.tidy).ports = s.ports := rfl
@[simp] theorem State.tidy_ptpLocked (s : State) : (s.tidy).ptpLocked = s.ptpLocked := rfl
@[simp] theorem State.tidy_ptpNs (s : State) : (s.tidy).ptpNs = s.ptpNs := rfl
@[simp] theorem State.tidy_ptpSet (s : State) : (s.tidy).ptpSet = s.ptpSet := rfl
@[simp] theorem State.tidy_ptpPort (s : State) : (s.tidy).ptpPort = s.ptpPort := rfl
@[simp] theorem State.tidy_ptpSub (s : State) : (s.tidy).ptpSub = s.ptpSub := rfl
@[simp] theorem State.tidy_ptpDomain (s : State) : (s.tidy).ptpDomain = s.ptpDomain := rfl
@[simp] theorem State.tidy_out (s : State) : (s.tidy).out = s.out := rfl
@[simp] theorem State.tidy_islands (s : State) : (s.tidy).islands = s.islands := rfl
@[simp] theorem State.tidy_cslrs (s : State) : (s.tidy).cslrs = s.cslrs := rfl
@[simp] theorem State.tidy_dies (s : State) : (s.tidy).dies = s.dies := rfl
@[simp] theorem State.tidy_mgmt (s : State) : (s.tidy).mgmt = s.mgmt := rfl
@[simp] theorem State.tidy_wear (s : State) : (s.tidy).wear = s.wear := rfl
@[simp] theorem State.tidy_inReset (s : State) : (s.tidy).inReset = s.inReset := rfl
@[simp] theorem State.tidy_crash (s : State) : (s.tidy).crash = s.crash := rfl
@[simp] theorem State.tidy_boots (s : State) : (s.tidy).boots = s.boots := rfl
@[simp] theorem State.tidy_events (s : State) : (s.tidy).events = s.events := rfl
@[simp] theorem State.tidy_bankB (s : State) : (s.tidy).bankB = s.bankB := rfl
@[simp] theorem State.tidy_fwVersion (s : State) : (s.tidy).fwVersion = s.fwVersion := rfl
@[simp] theorem State.tidy_fwBuild (s : State) : (s.tidy).fwBuild = s.fwBuild := rfl
@[simp] theorem State.tidy_fwMin (s : State) : (s.tidy).fwMin = s.fwMin := rfl
@[simp] theorem State.tidy_fwStaged (s : State) : (s.tidy).fwStaged = s.fwStaged := rfl
@[simp] theorem State.tidy_fwReady (s : State) : (s.tidy).fwReady = s.fwReady := rfl
@[simp] theorem State.tidy_leafIndex (s : State) : (s.tidy).leafIndex = s.leafIndex := rfl
@[simp] theorem State.tidy_repair (s : State) : (s.tidy).repair = s.repair := rfl
@[simp] theorem State.tidy_crashRead (s : State) : (s.tidy).crashRead = s.crashRead := rfl

@[simp] theorem State.dropStore_clk (s : State) (n : Nat) : (s.dropStore n).clk = s.clk := rfl
@[simp] theorem State.dropStore_code (s : State) (n : Nat) : (s.dropStore n).code = s.code := rfl
@[simp] theorem State.dropStore_defect (s : State) (n : Nat) : (s.dropStore n).defect = s.defect := rfl
@[simp] theorem State.dropStore_opStep (s : State) (n : Nat) : (s.dropStore n).opStep = s.opStep := rfl
@[simp] theorem State.dropStore_nextId (s : State) (n : Nat) : (s.dropStore n).nextId = s.nextId := rfl
@[simp] theorem State.dropStore_freeCount (s : State) (n : Nat) : (s.dropStore n).freeCount = s.freeCount := rfl
@[simp] theorem State.dropStore_issue (s : State) (n : Nat) : (s.dropStore n).issue = s.issue := rfl
@[simp] theorem State.dropStore_arg (s : State) (n : Nat) : (s.dropStore n).arg = s.arg := rfl
@[simp] theorem State.dropStore_sched (s : State) (n : Nat) : (s.dropStore n).sched = s.sched := rfl
@[simp] theorem State.dropStore_dev (s : State) (n : Nat) : (s.dropStore n).dev = s.dev := rfl
@[simp] theorem State.dropStore_hostMem (s : State) (n : Nat) : (s.dropStore n).hostMem = s.hostMem := rfl
@[simp] theorem State.dropStore_peers (s : State) (n : Nat) : (s.dropStore n).peers = s.peers := rfl
@[simp] theorem State.dropStore_devPoison (s : State) (n : Nat) : (s.dropStore n).devPoison = s.devPoison := rfl
@[simp] theorem State.dropStore_hostPoison (s : State) (n : Nat) : (s.dropStore n).hostPoison = s.hostPoison := rfl
@[simp] theorem State.dropStore_peerPoison (s : State) (n : Nat) : (s.dropStore n).peerPoison = s.peerPoison := rfl
@[simp] theorem State.dropStore_co (s : State) (n : Nat) : (s.dropStore n).co = s.co := rfl
@[simp] theorem State.dropStore_stores (s : State) (n : Nat) : (s.dropStore n).stores = s.stores.filter fun y => y.sid ≠ n := rfl
@[simp] theorem State.dropStore_l1 (s : State) (n : Nat) : (s.dropStore n).l1 = s.l1 := rfl
@[simp] theorem State.dropStore_groups (s : State) (n : Nat) : (s.dropStore n).groups = s.groups := rfl
@[simp] theorem State.dropStore_teams (s : State) (n : Nat) : (s.dropStore n).teams = s.teams := rfl
@[simp] theorem State.dropStore_cores (s : State) (n : Nat) : (s.dropStore n).cores = s.cores := rfl
@[simp] theorem State.dropStore_jobs (s : State) (n : Nat) : (s.dropStore n).jobs = s.jobs := rfl
@[simp] theorem State.dropStore_chains (s : State) (n : Nat) : (s.dropStore n).chains = s.chains := rfl
@[simp] theorem State.dropStore_launches (s : State) (n : Nat) : (s.dropStore n).launches = s.launches := rfl
@[simp] theorem State.dropStore_tickets (s : State) (n : Nat) : (s.dropStore n).tickets = s.tickets := rfl
@[simp] theorem State.dropStore_batches (s : State) (n : Nat) : (s.dropStore n).batches = s.batches := rfl
@[simp] theorem State.dropStore_ctxs (s : State) (n : Nat) : (s.dropStore n).ctxs = s.ctxs := rfl
@[simp] theorem State.dropStore_pages (s : State) (n : Nat) : (s.dropStore n).pages = s.pages := rfl
@[simp] theorem State.dropStore_images (s : State) (n : Nat) : (s.dropStore n).images = s.images := rfl
@[simp] theorem State.dropStore_frames (s : State) (n : Nat) : (s.dropStore n).frames = s.frames := rfl
@[simp] theorem State.dropStore_tags (s : State) (n : Nat) : (s.dropStore n).tags = s.tags := rfl
@[simp] theorem State.dropStore_recs (s : State) (n : Nat) : (s.dropStore n).recs = s.recs := rfl
@[simp] theorem State.dropStore_queues (s : State) (n : Nat) : (s.dropStore n).queues = s.queues := rfl
@[simp] theorem State.dropStore_publishes (s : State) (n : Nat) : (s.dropStore n).publishes = s.publishes := rfl
@[simp] theorem State.dropStore_prod (s : State) (n : Nat) : (s.dropStore n).prod = s.prod := rfl
@[simp] theorem State.dropStore_cons (s : State) (n : Nat) : (s.dropStore n).cons = s.cons := rfl
@[simp] theorem State.dropStore_ncount (s : State) (n : Nat) : (s.dropStore n).ncount = s.ncount := rfl
@[simp] theorem State.dropStore_nhold (s : State) (n : Nat) : (s.dropStore n).nhold = s.nhold := rfl
@[simp] theorem State.dropStore_overrun (s : State) (n : Nat) : (s.dropStore n).overrun = s.overrun := rfl
@[simp] theorem State.dropStore_nvector (s : State) (n : Nat) : (s.dropStore n).nvector = s.nvector := rfl
@[simp] theorem State.dropStore_notes (s : State) (n : Nat) : (s.dropStore n).notes = s.notes := rfl
@[simp] theorem State.dropStore_noteSeq (s : State) (n : Nat) : (s.dropStore n).noteSeq = s.noteSeq := rfl
@[simp] theorem State.dropStore_pendingNotes (s : State) (n : Nat) : (s.dropStore n).pendingNotes = s.pendingNotes := rfl
@[simp] theorem State.dropStore_noteHeld (s : State) (n : Nat) : (s.dropStore n).noteHeld = s.noteHeld := rfl
@[simp] theorem State.dropStore_masked (s : State) (n : Nat) : (s.dropStore n).masked = s.masked := rfl
@[simp] theorem State.dropStore_heldMsix (s : State) (n : Nat) : (s.dropStore n).heldMsix = s.heldMsix := rfl
@[simp] theorem State.dropStore_fprod (s : State) (n : Nat) : (s.dropStore n).fprod = s.fprod := rfl
@[simp] theorem State.dropStore_fcount (s : State) (n : Nat) : (s.dropStore n).fcount = s.fcount := rfl
@[simp] theorem State.dropStore_fcons (s : State) (n : Nat) : (s.dropStore n).fcons = s.fcons := rfl
@[simp] theorem State.dropStore_foverrun (s : State) (n : Nat) : (s.dropStore n).foverrun = s.foverrun := rfl
@[simp] theorem State.dropStore_fvector (s : State) (n : Nat) : (s.dropStore n).fvector = s.fvector := rfl
@[simp] theorem State.dropStore_fheld (s : State) (n : Nat) : (s.dropStore n).fheld = s.fheld := rfl
@[simp] theorem State.dropStore_batchSeq (s : State) (n : Nat) : (s.dropStore n).batchSeq = s.batchSeq := rfl
@[simp] theorem State.dropStore_faults (s : State) (n : Nat) : (s.dropStore n).faults = s.faults := rfl
@[simp] theorem State.dropStore_shoots (s : State) (n : Nat) : (s.dropStore n).shoots = s.shoots := rfl
@[simp] theorem State.dropStore_moves (s : State) (n : Nat) : (s.dropStore n).moves = s.moves := rfl
@[simp] theorem State.dropStore_holds (s : State) (n : Nat) : (s.dropStore n).holds = s.holds := rfl
@[simp] theorem State.dropStore_migReqs (s : State) (n : Nat) : (s.dropStore n).migReqs = s.migReqs := rfl
@[simp] theorem State.dropStore_tdisp (s : State) (n : Nat) : (s.dropStore n).tdisp = s.tdisp := rfl
@[simp] theorem State.dropStore_ports (s : State) (n : Nat) : (s.dropStore n).ports = s.ports := rfl
@[simp] theorem State.dropStore_ptpLocked (s : State) (n : Nat) : (s.dropStore n).ptpLocked = s.ptpLocked := rfl
@[simp] theorem State.dropStore_ptpNs (s : State) (n : Nat) : (s.dropStore n).ptpNs = s.ptpNs := rfl
@[simp] theorem State.dropStore_ptpSet (s : State) (n : Nat) : (s.dropStore n).ptpSet = s.ptpSet := rfl
@[simp] theorem State.dropStore_ptpPort (s : State) (n : Nat) : (s.dropStore n).ptpPort = s.ptpPort := rfl
@[simp] theorem State.dropStore_ptpSub (s : State) (n : Nat) : (s.dropStore n).ptpSub = s.ptpSub := rfl
@[simp] theorem State.dropStore_ptpDomain (s : State) (n : Nat) : (s.dropStore n).ptpDomain = s.ptpDomain := rfl
@[simp] theorem State.dropStore_out (s : State) (n : Nat) : (s.dropStore n).out = s.out := rfl
@[simp] theorem State.dropStore_islands (s : State) (n : Nat) : (s.dropStore n).islands = s.islands := rfl
@[simp] theorem State.dropStore_cslrs (s : State) (n : Nat) : (s.dropStore n).cslrs = s.cslrs := rfl
@[simp] theorem State.dropStore_dies (s : State) (n : Nat) : (s.dropStore n).dies = s.dies := rfl
@[simp] theorem State.dropStore_mgmt (s : State) (n : Nat) : (s.dropStore n).mgmt = s.mgmt := rfl
@[simp] theorem State.dropStore_wear (s : State) (n : Nat) : (s.dropStore n).wear = s.wear := rfl
@[simp] theorem State.dropStore_inReset (s : State) (n : Nat) : (s.dropStore n).inReset = s.inReset := rfl
@[simp] theorem State.dropStore_crash (s : State) (n : Nat) : (s.dropStore n).crash = s.crash := rfl
@[simp] theorem State.dropStore_boots (s : State) (n : Nat) : (s.dropStore n).boots = s.boots := rfl
@[simp] theorem State.dropStore_events (s : State) (n : Nat) : (s.dropStore n).events = s.events := rfl
@[simp] theorem State.dropStore_bankB (s : State) (n : Nat) : (s.dropStore n).bankB = s.bankB := rfl
@[simp] theorem State.dropStore_fwVersion (s : State) (n : Nat) : (s.dropStore n).fwVersion = s.fwVersion := rfl
@[simp] theorem State.dropStore_fwBuild (s : State) (n : Nat) : (s.dropStore n).fwBuild = s.fwBuild := rfl
@[simp] theorem State.dropStore_fwMin (s : State) (n : Nat) : (s.dropStore n).fwMin = s.fwMin := rfl
@[simp] theorem State.dropStore_fwStaged (s : State) (n : Nat) : (s.dropStore n).fwStaged = s.fwStaged := rfl
@[simp] theorem State.dropStore_fwReady (s : State) (n : Nat) : (s.dropStore n).fwReady = s.fwReady := rfl
@[simp] theorem State.dropStore_leafIndex (s : State) (n : Nat) : (s.dropStore n).leafIndex = s.leafIndex := rfl
@[simp] theorem State.dropStore_repair (s : State) (n : Nat) : (s.dropStore n).repair = s.repair := rfl
@[simp] theorem State.dropStore_crashRead (s : State) (n : Nat) : (s.dropStore n).crashRead = s.crashRead := rfl

@[simp] theorem State.newId_clk (s : State) : s.newId.2.clk = s.clk := rfl
@[simp] theorem State.newId_code (s : State) : s.newId.2.code = s.code := rfl
@[simp] theorem State.newId_defect (s : State) : s.newId.2.defect = s.defect := rfl
@[simp] theorem State.newId_opStep (s : State) : s.newId.2.opStep = s.opStep := rfl
@[simp] theorem State.newId_nextId (s : State) : s.newId.2.nextId = s.nextId + 1 := rfl
@[simp] theorem State.newId_freeCount (s : State) : s.newId.2.freeCount = s.freeCount := rfl
@[simp] theorem State.newId_issue (s : State) : s.newId.2.issue = s.issue := rfl
@[simp] theorem State.newId_arg (s : State) : s.newId.2.arg = s.arg := rfl
@[simp] theorem State.newId_sched (s : State) : s.newId.2.sched = s.sched := rfl
@[simp] theorem State.newId_dev (s : State) : s.newId.2.dev = s.dev := rfl
@[simp] theorem State.newId_hostMem (s : State) : s.newId.2.hostMem = s.hostMem := rfl
@[simp] theorem State.newId_peers (s : State) : s.newId.2.peers = s.peers := rfl
@[simp] theorem State.newId_devPoison (s : State) : s.newId.2.devPoison = s.devPoison := rfl
@[simp] theorem State.newId_hostPoison (s : State) : s.newId.2.hostPoison = s.hostPoison := rfl
@[simp] theorem State.newId_peerPoison (s : State) : s.newId.2.peerPoison = s.peerPoison := rfl
@[simp] theorem State.newId_co (s : State) : s.newId.2.co = s.co := rfl
@[simp] theorem State.newId_stores (s : State) : s.newId.2.stores = s.stores := rfl
@[simp] theorem State.newId_l1 (s : State) : s.newId.2.l1 = s.l1 := rfl
@[simp] theorem State.newId_groups (s : State) : s.newId.2.groups = s.groups := rfl
@[simp] theorem State.newId_teams (s : State) : s.newId.2.teams = s.teams := rfl
@[simp] theorem State.newId_cores (s : State) : s.newId.2.cores = s.cores := rfl
@[simp] theorem State.newId_jobs (s : State) : s.newId.2.jobs = s.jobs := rfl
@[simp] theorem State.newId_chains (s : State) : s.newId.2.chains = s.chains := rfl
@[simp] theorem State.newId_launches (s : State) : s.newId.2.launches = s.launches := rfl
@[simp] theorem State.newId_tickets (s : State) : s.newId.2.tickets = s.tickets := rfl
@[simp] theorem State.newId_batches (s : State) : s.newId.2.batches = s.batches := rfl
@[simp] theorem State.newId_ctxs (s : State) : s.newId.2.ctxs = s.ctxs := rfl
@[simp] theorem State.newId_pages (s : State) : s.newId.2.pages = s.pages := rfl
@[simp] theorem State.newId_images (s : State) : s.newId.2.images = s.images := rfl
@[simp] theorem State.newId_frames (s : State) : s.newId.2.frames = s.frames := rfl
@[simp] theorem State.newId_tags (s : State) : s.newId.2.tags = s.tags := rfl
@[simp] theorem State.newId_recs (s : State) : s.newId.2.recs = s.recs := rfl
@[simp] theorem State.newId_queues (s : State) : s.newId.2.queues = s.queues := rfl
@[simp] theorem State.newId_publishes (s : State) : s.newId.2.publishes = s.publishes := rfl
@[simp] theorem State.newId_prod (s : State) : s.newId.2.prod = s.prod := rfl
@[simp] theorem State.newId_cons (s : State) : s.newId.2.cons = s.cons := rfl
@[simp] theorem State.newId_ncount (s : State) : s.newId.2.ncount = s.ncount := rfl
@[simp] theorem State.newId_nhold (s : State) : s.newId.2.nhold = s.nhold := rfl
@[simp] theorem State.newId_overrun (s : State) : s.newId.2.overrun = s.overrun := rfl
@[simp] theorem State.newId_nvector (s : State) : s.newId.2.nvector = s.nvector := rfl
@[simp] theorem State.newId_notes (s : State) : s.newId.2.notes = s.notes := rfl
@[simp] theorem State.newId_noteSeq (s : State) : s.newId.2.noteSeq = s.noteSeq := rfl
@[simp] theorem State.newId_pendingNotes (s : State) : s.newId.2.pendingNotes = s.pendingNotes := rfl
@[simp] theorem State.newId_noteHeld (s : State) : s.newId.2.noteHeld = s.noteHeld := rfl
@[simp] theorem State.newId_masked (s : State) : s.newId.2.masked = s.masked := rfl
@[simp] theorem State.newId_heldMsix (s : State) : s.newId.2.heldMsix = s.heldMsix := rfl
@[simp] theorem State.newId_fprod (s : State) : s.newId.2.fprod = s.fprod := rfl
@[simp] theorem State.newId_fcount (s : State) : s.newId.2.fcount = s.fcount := rfl
@[simp] theorem State.newId_fcons (s : State) : s.newId.2.fcons = s.fcons := rfl
@[simp] theorem State.newId_foverrun (s : State) : s.newId.2.foverrun = s.foverrun := rfl
@[simp] theorem State.newId_fvector (s : State) : s.newId.2.fvector = s.fvector := rfl
@[simp] theorem State.newId_fheld (s : State) : s.newId.2.fheld = s.fheld := rfl
@[simp] theorem State.newId_batchSeq (s : State) : s.newId.2.batchSeq = s.batchSeq := rfl
@[simp] theorem State.newId_faults (s : State) : s.newId.2.faults = s.faults := rfl
@[simp] theorem State.newId_shoots (s : State) : s.newId.2.shoots = s.shoots := rfl
@[simp] theorem State.newId_moves (s : State) : s.newId.2.moves = s.moves := rfl
@[simp] theorem State.newId_holds (s : State) : s.newId.2.holds = s.holds := rfl
@[simp] theorem State.newId_migReqs (s : State) : s.newId.2.migReqs = s.migReqs := rfl
@[simp] theorem State.newId_tdisp (s : State) : s.newId.2.tdisp = s.tdisp := rfl
@[simp] theorem State.newId_ports (s : State) : s.newId.2.ports = s.ports := rfl
@[simp] theorem State.newId_ptpLocked (s : State) : s.newId.2.ptpLocked = s.ptpLocked := rfl
@[simp] theorem State.newId_ptpNs (s : State) : s.newId.2.ptpNs = s.ptpNs := rfl
@[simp] theorem State.newId_ptpSet (s : State) : s.newId.2.ptpSet = s.ptpSet := rfl
@[simp] theorem State.newId_ptpPort (s : State) : s.newId.2.ptpPort = s.ptpPort := rfl
@[simp] theorem State.newId_ptpSub (s : State) : s.newId.2.ptpSub = s.ptpSub := rfl
@[simp] theorem State.newId_ptpDomain (s : State) : s.newId.2.ptpDomain = s.ptpDomain := rfl
@[simp] theorem State.newId_out (s : State) : s.newId.2.out = s.out := rfl
@[simp] theorem State.newId_islands (s : State) : s.newId.2.islands = s.islands := rfl
@[simp] theorem State.newId_cslrs (s : State) : s.newId.2.cslrs = s.cslrs := rfl
@[simp] theorem State.newId_dies (s : State) : s.newId.2.dies = s.dies := rfl
@[simp] theorem State.newId_mgmt (s : State) : s.newId.2.mgmt = s.mgmt := rfl
@[simp] theorem State.newId_wear (s : State) : s.newId.2.wear = s.wear := rfl
@[simp] theorem State.newId_inReset (s : State) : s.newId.2.inReset = s.inReset := rfl
@[simp] theorem State.newId_crash (s : State) : s.newId.2.crash = s.crash := rfl
@[simp] theorem State.newId_boots (s : State) : s.newId.2.boots = s.boots := rfl
@[simp] theorem State.newId_events (s : State) : s.newId.2.events = s.events := rfl
@[simp] theorem State.newId_bankB (s : State) : s.newId.2.bankB = s.bankB := rfl
@[simp] theorem State.newId_fwVersion (s : State) : s.newId.2.fwVersion = s.fwVersion := rfl
@[simp] theorem State.newId_fwBuild (s : State) : s.newId.2.fwBuild = s.fwBuild := rfl
@[simp] theorem State.newId_fwMin (s : State) : s.newId.2.fwMin = s.fwMin := rfl
@[simp] theorem State.newId_fwStaged (s : State) : s.newId.2.fwStaged = s.fwStaged := rfl
@[simp] theorem State.newId_fwReady (s : State) : s.newId.2.fwReady = s.fwReady := rfl
@[simp] theorem State.newId_leafIndex (s : State) : s.newId.2.leafIndex = s.leafIndex := rfl
@[simp] theorem State.newId_repair (s : State) : s.newId.2.repair = s.repair := rfl
@[simp] theorem State.newId_crashRead (s : State) : s.newId.2.crashRead = s.crashRead := rfl

@[simp] theorem State.free_clk (s : State) : s.free.2.clk = s.clk := rfl
@[simp] theorem State.free_code (s : State) : s.free.2.code = s.code := rfl
@[simp] theorem State.free_defect (s : State) : s.free.2.defect = s.defect := rfl
@[simp] theorem State.free_opStep (s : State) : s.free.2.opStep = s.opStep := rfl
@[simp] theorem State.free_nextId (s : State) : s.free.2.nextId = s.nextId := rfl
@[simp] theorem State.free_freeCount (s : State) : s.free.2.freeCount = s.freeCount + 1 := rfl
@[simp] theorem State.free_issue (s : State) : s.free.2.issue = s.issue := rfl
@[simp] theorem State.free_arg (s : State) : s.free.2.arg = s.arg := rfl
@[simp] theorem State.free_sched (s : State) : s.free.2.sched = s.sched := rfl
@[simp] theorem State.free_dev (s : State) : s.free.2.dev = s.dev := rfl
@[simp] theorem State.free_hostMem (s : State) : s.free.2.hostMem = s.hostMem := rfl
@[simp] theorem State.free_peers (s : State) : s.free.2.peers = s.peers := rfl
@[simp] theorem State.free_devPoison (s : State) : s.free.2.devPoison = s.devPoison := rfl
@[simp] theorem State.free_hostPoison (s : State) : s.free.2.hostPoison = s.hostPoison := rfl
@[simp] theorem State.free_peerPoison (s : State) : s.free.2.peerPoison = s.peerPoison := rfl
@[simp] theorem State.free_co (s : State) : s.free.2.co = s.co := rfl
@[simp] theorem State.free_stores (s : State) : s.free.2.stores = s.stores := rfl
@[simp] theorem State.free_l1 (s : State) : s.free.2.l1 = s.l1 := rfl
@[simp] theorem State.free_groups (s : State) : s.free.2.groups = s.groups := rfl
@[simp] theorem State.free_teams (s : State) : s.free.2.teams = s.teams := rfl
@[simp] theorem State.free_cores (s : State) : s.free.2.cores = s.cores := rfl
@[simp] theorem State.free_jobs (s : State) : s.free.2.jobs = s.jobs := rfl
@[simp] theorem State.free_chains (s : State) : s.free.2.chains = s.chains := rfl
@[simp] theorem State.free_launches (s : State) : s.free.2.launches = s.launches := rfl
@[simp] theorem State.free_tickets (s : State) : s.free.2.tickets = s.tickets := rfl
@[simp] theorem State.free_batches (s : State) : s.free.2.batches = s.batches := rfl
@[simp] theorem State.free_ctxs (s : State) : s.free.2.ctxs = s.ctxs := rfl
@[simp] theorem State.free_pages (s : State) : s.free.2.pages = s.pages := rfl
@[simp] theorem State.free_images (s : State) : s.free.2.images = s.images := rfl
@[simp] theorem State.free_frames (s : State) : s.free.2.frames = s.frames := rfl
@[simp] theorem State.free_tags (s : State) : s.free.2.tags = s.tags := rfl
@[simp] theorem State.free_recs (s : State) : s.free.2.recs = s.recs := rfl
@[simp] theorem State.free_queues (s : State) : s.free.2.queues = s.queues := rfl
@[simp] theorem State.free_publishes (s : State) : s.free.2.publishes = s.publishes := rfl
@[simp] theorem State.free_prod (s : State) : s.free.2.prod = s.prod := rfl
@[simp] theorem State.free_cons (s : State) : s.free.2.cons = s.cons := rfl
@[simp] theorem State.free_ncount (s : State) : s.free.2.ncount = s.ncount := rfl
@[simp] theorem State.free_nhold (s : State) : s.free.2.nhold = s.nhold := rfl
@[simp] theorem State.free_overrun (s : State) : s.free.2.overrun = s.overrun := rfl
@[simp] theorem State.free_nvector (s : State) : s.free.2.nvector = s.nvector := rfl
@[simp] theorem State.free_notes (s : State) : s.free.2.notes = s.notes := rfl
@[simp] theorem State.free_noteSeq (s : State) : s.free.2.noteSeq = s.noteSeq := rfl
@[simp] theorem State.free_pendingNotes (s : State) : s.free.2.pendingNotes = s.pendingNotes := rfl
@[simp] theorem State.free_noteHeld (s : State) : s.free.2.noteHeld = s.noteHeld := rfl
@[simp] theorem State.free_masked (s : State) : s.free.2.masked = s.masked := rfl
@[simp] theorem State.free_heldMsix (s : State) : s.free.2.heldMsix = s.heldMsix := rfl
@[simp] theorem State.free_fprod (s : State) : s.free.2.fprod = s.fprod := rfl
@[simp] theorem State.free_fcount (s : State) : s.free.2.fcount = s.fcount := rfl
@[simp] theorem State.free_fcons (s : State) : s.free.2.fcons = s.fcons := rfl
@[simp] theorem State.free_foverrun (s : State) : s.free.2.foverrun = s.foverrun := rfl
@[simp] theorem State.free_fvector (s : State) : s.free.2.fvector = s.fvector := rfl
@[simp] theorem State.free_fheld (s : State) : s.free.2.fheld = s.fheld := rfl
@[simp] theorem State.free_batchSeq (s : State) : s.free.2.batchSeq = s.batchSeq := rfl
@[simp] theorem State.free_faults (s : State) : s.free.2.faults = s.faults := rfl
@[simp] theorem State.free_shoots (s : State) : s.free.2.shoots = s.shoots := rfl
@[simp] theorem State.free_moves (s : State) : s.free.2.moves = s.moves := rfl
@[simp] theorem State.free_holds (s : State) : s.free.2.holds = s.holds := rfl
@[simp] theorem State.free_migReqs (s : State) : s.free.2.migReqs = s.migReqs := rfl
@[simp] theorem State.free_tdisp (s : State) : s.free.2.tdisp = s.tdisp := rfl
@[simp] theorem State.free_ports (s : State) : s.free.2.ports = s.ports := rfl
@[simp] theorem State.free_ptpLocked (s : State) : s.free.2.ptpLocked = s.ptpLocked := rfl
@[simp] theorem State.free_ptpNs (s : State) : s.free.2.ptpNs = s.ptpNs := rfl
@[simp] theorem State.free_ptpSet (s : State) : s.free.2.ptpSet = s.ptpSet := rfl
@[simp] theorem State.free_ptpPort (s : State) : s.free.2.ptpPort = s.ptpPort := rfl
@[simp] theorem State.free_ptpSub (s : State) : s.free.2.ptpSub = s.ptpSub := rfl
@[simp] theorem State.free_ptpDomain (s : State) : s.free.2.ptpDomain = s.ptpDomain := rfl
@[simp] theorem State.free_out (s : State) : s.free.2.out = s.out := rfl
@[simp] theorem State.free_islands (s : State) : s.free.2.islands = s.islands := rfl
@[simp] theorem State.free_cslrs (s : State) : s.free.2.cslrs = s.cslrs := rfl
@[simp] theorem State.free_dies (s : State) : s.free.2.dies = s.dies := rfl
@[simp] theorem State.free_mgmt (s : State) : s.free.2.mgmt = s.mgmt := rfl
@[simp] theorem State.free_wear (s : State) : s.free.2.wear = s.wear := rfl
@[simp] theorem State.free_inReset (s : State) : s.free.2.inReset = s.inReset := rfl
@[simp] theorem State.free_crash (s : State) : s.free.2.crash = s.crash := rfl
@[simp] theorem State.free_boots (s : State) : s.free.2.boots = s.boots := rfl
@[simp] theorem State.free_events (s : State) : s.free.2.events = s.events := rfl
@[simp] theorem State.free_bankB (s : State) : s.free.2.bankB = s.bankB := rfl
@[simp] theorem State.free_fwVersion (s : State) : s.free.2.fwVersion = s.fwVersion := rfl
@[simp] theorem State.free_fwBuild (s : State) : s.free.2.fwBuild = s.fwBuild := rfl
@[simp] theorem State.free_fwMin (s : State) : s.free.2.fwMin = s.fwMin := rfl
@[simp] theorem State.free_fwStaged (s : State) : s.free.2.fwStaged = s.fwStaged := rfl
@[simp] theorem State.free_fwReady (s : State) : s.free.2.fwReady = s.fwReady := rfl
@[simp] theorem State.free_leafIndex (s : State) : s.free.2.leafIndex = s.leafIndex := rfl
@[simp] theorem State.free_repair (s : State) : s.free.2.repair = s.repair := rfl
@[simp] theorem State.free_crashRead (s : State) : s.free.2.crashRead = s.crashRead := rfl

@[simp] theorem State.newId_id (s : State) : s.newId.1 = s.nextId := rfl
@[simp] theorem State.free_value (s : State) : s.free.1 = Config.freeValue s.freeCount := rfl

end Sys2Proof.Machine
end

