-- ==== Sys2Proof/Laws/Lookup.lean ====
section
/-!
SUPPORT. Looking an object up after one was put: the object put is found under its own key, and every other is found as
before.
-/

namespace Sys2Proof.Machine

set_option Elab.async false

theorem find?_putKey_same {α : Type} (key : α → Nat) (x : α) (l : List α) (k : Nat) (h : key x = k) :
    (putKey key x l).find? (fun y => key y == k) = some x := by
  induction l with
  | nil => simp [putKey, h]
  | cons y r ih =>
    unfold putKey
    split
    · simp [h]
    · rename_i hy
      have : key y ≠ k := h ▸ hy
      simp [this, ih]

theorem find?_putKey_other {α : Type} (key : α → Nat) (x : α) (l : List α) (k : Nat) (h : key x ≠ k) :
    (putKey key x l).find? (fun y => key y == k) = l.find? (fun y => key y == k) := by
  induction l with
  | nil => simp [putKey, h]
  | cons y r ih =>
    unfold putKey
    split
    · rename_i hy
      have : key y ≠ k := fun e => h (hy ▸ e)
      simp [h, this]
    · by_cases hk : key y = k
      · simp [hk]
      · simp [hk, ih]

theorem findD_putKey_same {α : Type} (key : α → Nat) (x d : α) (l : List α) (k : Nat) (h : key x = k) :
    findD (fun y => key y == k) d (putKey key x l) = x := by
  simp [findD, find?_putKey_same key x l k h]

theorem findD_putKey_other {α : Type} (key : α → Nat) (x d : α) (l : List α) (k : Nat) (h : key x ≠ k) :
    findD (fun y => key y == k) d (putKey key x l) = findD (fun y => key y == k) d l := by
  simp [findD, find?_putKey_other key x l k h]

/-- An element found under a key has it. -/
theorem key_of_find? {α : Type} {key : α → Nat} {l : List α} {k : Nat} {x : α}
    (h : l.find? (fun y => key y == k) = some x) : key x = k := by
  simpa using List.find?_some h

@[simp] theorem State.group?_putGroup_same (s : State) (x : Group) : (s.putGroup x).group? x.gid = some x :=
  find?_putKey_same Group.gid x s.groups _ rfl
theorem State.group?_putGroup_other (s : State) (x : Group) {k : Nat} (h : x.gid ≠ k) : (s.putGroup x).group? k = s.group? k :=
  find?_putKey_other Group.gid x s.groups k h
theorem State.gid_of_group? {s : State} {k : Nat} {x : Group} (h : s.group? k = some x) : x.gid = k := key_of_find? h
@[simp] theorem State.team?_putTeam_same (s : State) (x : Team) : (s.putTeam x).team? x.tid = some x :=
  find?_putKey_same Team.tid x s.teams _ rfl
theorem State.team?_putTeam_other (s : State) (x : Team) {k : Nat} (h : x.tid ≠ k) : (s.putTeam x).team? k = s.team? k :=
  find?_putKey_other Team.tid x s.teams k h
theorem State.tid_of_team? {s : State} {k : Nat} {x : Team} (h : s.team? k = some x) : x.tid = k := key_of_find? h
@[simp] theorem State.job?_putJob_same (s : State) (x : Job) : (s.putJob x).job? x.jid = some x :=
  find?_putKey_same Job.jid x s.jobs _ rfl
theorem State.job?_putJob_other (s : State) (x : Job) {k : Nat} (h : x.jid ≠ k) : (s.putJob x).job? k = s.job? k :=
  find?_putKey_other Job.jid x s.jobs k h
theorem State.jid_of_job? {s : State} {k : Nat} {x : Job} (h : s.job? k = some x) : x.jid = k := key_of_find? h
@[simp] theorem State.chain?_putChain_same (s : State) (x : Chain) : (s.putChain x).chain? x.cid = some x :=
  find?_putKey_same Chain.cid x s.chains _ rfl
theorem State.chain?_putChain_other (s : State) (x : Chain) {k : Nat} (h : x.cid ≠ k) : (s.putChain x).chain? k = s.chain? k :=
  find?_putKey_other Chain.cid x s.chains k h
theorem State.cid_of_chain? {s : State} {k : Nat} {x : Chain} (h : s.chain? k = some x) : x.cid = k := key_of_find? h
@[simp] theorem State.launch?_putLaunch_same (s : State) (x : Launch) : (s.putLaunch x).launch? x.lid = some x :=
  find?_putKey_same Launch.lid x s.launches _ rfl
theorem State.launch?_putLaunch_other (s : State) (x : Launch) {k : Nat} (h : x.lid ≠ k) : (s.putLaunch x).launch? k = s.launch? k :=
  find?_putKey_other Launch.lid x s.launches k h
theorem State.lid_of_launch? {s : State} {k : Nat} {x : Launch} (h : s.launch? k = some x) : x.lid = k := key_of_find? h
@[simp] theorem State.queue?_putQueue_same (s : State) (x : Queue) : (s.putQueue x).queue? x.slot = some x :=
  find?_putKey_same Queue.slot x s.queues _ rfl
theorem State.queue?_putQueue_other (s : State) (x : Queue) {k : Nat} (h : x.slot ≠ k) : (s.putQueue x).queue? k = s.queue? k :=
  find?_putKey_other Queue.slot x s.queues k h
theorem State.slot_of_queue? {s : State} {k : Nat} {x : Queue} (h : s.queue? k = some x) : x.slot = k := key_of_find? h
@[simp] theorem State.ctx?_putCtx_same (s : State) (x : Ctx) : (s.putCtx x).ctx? x.ctx = some x :=
  find?_putKey_same Ctx.ctx x s.ctxs _ rfl
theorem State.ctx?_putCtx_other (s : State) (x : Ctx) {k : Nat} (h : x.ctx ≠ k) : (s.putCtx x).ctx? k = s.ctx? k :=
  find?_putKey_other Ctx.ctx x s.ctxs k h
theorem State.ctx_of_ctx? {s : State} {k : Nat} {x : Ctx} (h : s.ctx? k = some x) : x.ctx = k := key_of_find? h
@[simp] theorem State.record_putRecord_same (s : State) (x : Rec) : (s.putRecord x).record x.slot = x :=
  findD_putKey_same Rec.slot x (Rec.fresh x.slot) s.recs _ rfl
theorem State.record_putRecord_other (s : State) (x : Rec) {k : Nat} (h : x.slot ≠ k) : (s.putRecord x).record k = s.record k :=
  findD_putKey_other Rec.slot x (Rec.fresh k) s.recs k h
@[simp] theorem State.core_putCore_same (s : State) (x : Core) : (s.putCore x).core x.core = x :=
  findD_putKey_same Core.core x (Core.fresh x.core) s.cores _ rfl
theorem State.core_putCore_other (s : State) (x : Core) {k : Nat} (h : x.core ≠ k) : (s.putCore x).core k = s.core k :=
  findD_putKey_other Core.core x (Core.fresh k) s.cores k h
@[simp] theorem State.port_putPort_same (s : State) (x : MPort) : (s.putPort x).port x.port = x :=
  findD_putKey_same MPort.port x (MPort.fresh x.port) s.ports _ rfl
theorem State.port_putPort_other (s : State) (x : MPort) {k : Nat} (h : x.port ≠ k) : (s.putPort x).port k = s.port k :=
  findD_putKey_other MPort.port x (MPort.fresh k) s.ports k h
@[simp] theorem State.tdi_putTdi_same (s : State) (x : Tdisp) : (s.putTdi x).tdi x.tdi = x :=
  findD_putKey_same Tdisp.tdi x (Tdisp.fresh x.tdi) s.tdisp _ rfl
theorem State.tdi_putTdi_other (s : State) (x : Tdisp) {k : Nat} (h : x.tdi ≠ k) : (s.putTdi x).tdi k = s.tdi k :=
  findD_putKey_other Tdisp.tdi x (Tdisp.fresh k) s.tdisp k h
@[simp] theorem State.dieMgmt_putDie_same (s : State) (x : DieMgmt) : (s.putDie x).dieMgmt x.die = x :=
  findD_putKey_same DieMgmt.die x (DieMgmt.fresh x.die) s.dies _ rfl
theorem State.dieMgmt_putDie_other (s : State) (x : DieMgmt) {k : Nat} (h : x.die ≠ k) : (s.putDie x).dieMgmt k = s.dieMgmt k :=
  findD_putKey_other DieMgmt.die x (DieMgmt.fresh k) s.dies k h
@[simp] theorem State.island_putIsland_same (s : State) (x : Island) : (s.putIsland x).island x.isl = x :=
  findD_putKey_same Island.isl x (Island.fresh x.isl) s.islands _ rfl
theorem State.island_putIsland_other (s : State) (x : Island) {k : Nat} (h : x.isl ≠ k) : (s.putIsland x).island k = s.island k :=
  findD_putKey_other Island.isl x (Island.fresh k) s.islands k h
@[simp] theorem State.cslr_putCslr_same (s : State) (x : Cslr) : (s.putCslr x).cslr x.cluster = x :=
  findD_putKey_same Cslr.cluster x (Cslr.fresh x.cluster) s.cslrs _ rfl
theorem State.cslr_putCslr_other (s : State) (x : Cslr) {k : Nat} (h : x.cluster ≠ k) : (s.putCslr x).cslr k = s.cslr k :=
  findD_putKey_other Cslr.cluster x (Cslr.fresh k) s.cslrs k h

end Sys2Proof.Machine
end

