-- ==== Sys2Proof/Laws/Landing.lean ====
section
/-!
SUPPORT. Results landing change the vector and scalar registers alone.
-/

namespace Sys2Proof.Machine

set_option Elab.async false

/-- One result landed leaves everything of the group but its vector and scalar registers. -/
theorem land_eq (g : Group) (w : Landing) : ∃ v x, g.land w = { g with v := v, s := x } := by
  unfold Group.land
  split
  · unfold Group.setS
    split <;> exact ⟨_, _, rfl⟩
  · exact ⟨_, _, rfl⟩

theorem foldl_land_eq (l : List Landing) (g : Group) : ∃ v x, l.foldl Group.land g = { g with v := v, s := x } := by
  induction l generalizing g with
  | nil => exact ⟨g.v, g.s, rfl⟩
  | cons w r ih =>
    obtain ⟨v, x, h⟩ := land_eq g w
    obtain ⟨v', x', h'⟩ := ih (g.land w)
    exact ⟨v', x', by rw [List.foldl_cons, h', h]⟩

/-- The group with every pending result landed differs in its registers, and has none pending. -/
theorem settle_eq (g : Group) : ∃ v x, g.settle = { g with v := v, s := x, landing := [] } := by
  obtain ⟨v, x, h⟩ := foldl_land_eq g.landing g
  exact ⟨v, x, by rw [Group.settle, h]⟩

/-- The group with its due results landed differs in its registers, and only later results are pending. -/
theorem landDue_eq (g : Group) (clk : Nat) : ∃ v x, g.landDue clk
    = { g with v := v, s := x, landing := g.landing.filter (fun w => !decide (w.due ≤ clk)) } := by
  obtain ⟨v, x, h⟩ := foldl_land_eq (g.landing.filter (fun w => decide (w.due ≤ clk))) g
  exact ⟨v, x, by rw [Group.landDue, h]⟩

/-- With nothing pending, landing changes nothing. -/
theorem settle_none {g : Group} (h : g.landing = []) : g.settle = g := by
  cases g
  cases h
  rfl

@[simp] theorem settle_gid (g : Group) : g.settle.gid = g.gid := by obtain ⟨_, _, h⟩ := settle_eq g; rw [h]
@[simp] theorem settle_tid (g : Group) : g.settle.tid = g.tid := by obtain ⟨_, _, h⟩ := settle_eq g; rw [h]
@[simp] theorem settle_ctx (g : Group) : g.settle.ctx = g.ctx := by obtain ⟨_, _, h⟩ := settle_eq g; rw [h]
@[simp] theorem settle_grp (g : Group) : g.settle.grp = g.grp := by obtain ⟨_, _, h⟩ := settle_eq g; rw [h]
@[simp] theorem settle_die (g : Group) : g.settle.die = g.die := by obtain ⟨_, _, h⟩ := settle_eq g; rw [h]
@[simp] theorem settle_core (g : Group) : g.settle.core = g.core := by obtain ⟨_, _, h⟩ := settle_eq g; rw [h]
@[simp] theorem settle_slot (g : Group) : g.settle.slot = g.slot := by obtain ⟨_, _, h⟩ := settle_eq g; rw [h]
@[simp] theorem settle_exec (g : Group) : g.settle.exec = g.exec := by obtain ⟨_, _, h⟩ := settle_eq g; rw [h]
@[simp] theorem settle_fmt (g : Group) : g.settle.fmt = g.fmt := by obtain ⟨_, _, h⟩ := settle_eq g; rw [h]
@[simp] theorem settle_pc (g : Group) : g.settle.pc = g.pc := by obtain ⟨_, _, h⟩ := settle_eq g; rw [h]
@[simp] theorem settle_codeBase (g : Group) : g.settle.codeBase = g.codeBase := by obtain ⟨_, _, h⟩ := settle_eq g; rw [h]
@[simp] theorem settle_codeSize (g : Group) : g.settle.codeSize = g.codeSize := by obtain ⟨_, _, h⟩ := settle_eq g; rw [h]
@[simp] theorem settle_b (g : Group) : g.settle.b = g.b := by obtain ⟨_, _, h⟩ := settle_eq g; rw [h]
@[simp] theorem settle_q (g : Group) : g.settle.q = g.q := by obtain ⟨_, _, h⟩ := settle_eq g; rw [h]
@[simp] theorem settle_path (g : Group) : g.settle.path = g.path := by obtain ⟨_, _, h⟩ := settle_eq g; rw [h]
@[simp] theorem settle_loops (g : Group) : g.settle.loops = g.loops := by obtain ⟨_, _, h⟩ := settle_eq g; rw [h]
@[simp] theorem settle_depth (g : Group) : g.settle.depth = g.depth := by obtain ⟨_, _, h⟩ := settle_eq g; rw [h]
@[simp] theorem settle_u (g : Group) : g.settle.u = g.u := by obtain ⟨_, _, h⟩ := settle_eq g; rw [h]
@[simp] theorem settle_seed (g : Group) : g.settle.seed = g.seed := by obtain ⟨_, _, h⟩ := settle_eq g; rw [h]
@[simp] theorem settle_schk (g : Group) : g.settle.schk = g.schk := by obtain ⟨_, _, h⟩ := settle_eq g; rw [h]
@[simp] theorem settle_prio (g : Group) : g.settle.prio = g.prio := by obtain ⟨_, _, h⟩ := settle_eq g; rw [h]
@[simp] theorem settle_clkh (g : Group) : g.settle.clkh = g.clkh := by obtain ⟨_, _, h⟩ := settle_eq g; rw [h]
@[simp] theorem settle_epc (g : Group) : g.settle.epc = g.epc := by obtain ⟨_, _, h⟩ := settle_eq g; rw [h]
@[simp] theorem settle_ecause (g : Group) : g.settle.ecause = g.ecause := by obtain ⟨_, _, h⟩ := settle_eq g; rw [h]
@[simp] theorem settle_emask (g : Group) : g.settle.emask = g.emask := by obtain ⟨_, _, h⟩ := settle_eq g; rw [h]
@[simp] theorem settle_frec (g : Group) : g.settle.frec = g.frec := by obtain ⟨_, _, h⟩ := settle_eq g; rw [h]
@[simp] theorem settle_teamX (g : Group) : g.settle.teamX = g.teamX := by obtain ⟨_, _, h⟩ := settle_eq g; rw [h]
@[simp] theorem settle_teamY (g : Group) : g.settle.teamY = g.teamY := by obtain ⟨_, _, h⟩ := settle_eq g; rw [h]
@[simp] theorem settle_teamZ (g : Group) : g.settle.teamZ = g.teamZ := by obtain ⟨_, _, h⟩ := settle_eq g; rw [h]
@[simp] theorem settle_nteamX (g : Group) : g.settle.nteamX = g.nteamX := by obtain ⟨_, _, h⟩ := settle_eq g; rw [h]
@[simp] theorem settle_nteamY (g : Group) : g.settle.nteamY = g.nteamY := by obtain ⟨_, _, h⟩ := settle_eq g; rw [h]
@[simp] theorem settle_nteamZ (g : Group) : g.settle.nteamZ = g.nteamZ := by obtain ⟨_, _, h⟩ := settle_eq g; rw [h]
@[simp] theorem settle_tsize (g : Group) : g.settle.tsize = g.tsize := by obtain ⟨_, _, h⟩ := settle_eq g; rw [h]
@[simp] theorem settle_nest (g : Group) : g.settle.nest = g.nest := by obtain ⟨_, _, h⟩ := settle_eq g; rw [h]
@[simp] theorem settle_super (g : Group) : g.settle.super = g.super := by obtain ⟨_, _, h⟩ := settle_eq g; rw [h]
@[simp] theorem settle_handler (g : Group) : g.settle.handler = g.handler := by obtain ⟨_, _, h⟩ := settle_eq g; rw [h]
@[simp] theorem settle_reissue (g : Group) : g.settle.reissue = g.reissue := by obtain ⟨_, _, h⟩ := settle_eq g; rw [h]
@[simp] theorem settle_park (g : Group) : g.settle.park = g.park := by obtain ⟨_, _, h⟩ := settle_eq g; rw [h]
@[simp] theorem settle_pend (g : Group) : g.settle.pend = g.pend := by obtain ⟨_, _, h⟩ := settle_eq g; rw [h]
@[simp] theorem settle_lower (g : Group) : g.settle.lower = g.lower := by obtain ⟨_, _, h⟩ := settle_eq g; rw [h]
@[simp] theorem settle_anchor (g : Group) : g.settle.anchor = g.anchor := by obtain ⟨_, _, h⟩ := settle_eq g; rw [h]
@[simp] theorem settle_fold (g : Group) : g.settle.fold = g.fold := by obtain ⟨_, _, h⟩ := settle_eq g; rw [h]
@[simp] theorem settle_bars (g : Group) : g.settle.bars = g.bars := by obtain ⟨_, _, h⟩ := settle_eq g; rw [h]
@[simp] theorem settle_psts (g : Group) : g.settle.psts = g.psts := by obtain ⟨_, _, h⟩ := settle_eq g; rw [h]
@[simp] theorem settle_landing (g : Group) : g.settle.landing = [] := rfl
@[simp] theorem settle_acc (g : Group) : g.settle.acc = g.acc := by obtain ⟨_, _, h⟩ := settle_eq g; rw [h]
@[simp] theorem settle_poison (g : Group) : g.settle.poison = g.poison := by obtain ⟨_, _, h⟩ := settle_eq g; rw [h]
@[simp] theorem settle_mark (g : Group) : g.settle.mark = g.mark := by obtain ⟨_, _, h⟩ := settle_eq g; rw [h]
@[simp] theorem settle_floors (g : Group) : g.settle.floors = g.floors := by obtain ⟨_, _, h⟩ := settle_eq g; rw [h]
@[simp] theorem settle_epoch (g : Group) : g.settle.epoch = g.epoch := by obtain ⟨_, _, h⟩ := settle_eq g; rw [h]
@[simp] theorem settle_wait (g : Group) : g.settle.wait = g.wait := by obtain ⟨_, _, h⟩ := settle_eq g; rw [h]
@[simp] theorem settle_readyAt (g : Group) : g.settle.readyAt = g.readyAt := by obtain ⟨_, _, h⟩ := settle_eq g; rw [h]
@[simp] theorem settle_tried (g : Group) : g.settle.tried = g.tried := by obtain ⟨_, _, h⟩ := settle_eq g; rw [h]
@[simp] theorem settle_lastIssue (g : Group) : g.settle.lastIssue = g.lastIssue := by obtain ⟨_, _, h⟩ := settle_eq g; rw [h]
@[simp] theorem settle_readyFor (g : Group) : g.settle.readyFor = g.readyFor := by obtain ⟨_, _, h⟩ := settle_eq g; rw [h]
@[simp] theorem settle_maxN (g : Group) : g.settle.maxN = g.maxN := by obtain ⟨_, _, h⟩ := settle_eq g; rw [h]
@[simp] theorem settle_urgent (g : Group) : g.settle.urgent = g.urgent := by obtain ⟨_, _, h⟩ := settle_eq g; rw [h]
@[simp] theorem settle_waitFrom (g : Group) : g.settle.waitFrom = g.waitFrom := by obtain ⟨_, _, h⟩ := settle_eq g; rw [h]
@[simp] theorem settle_priv (g : Group) : g.settle.priv = g.priv := by obtain ⟨_, _, h⟩ := settle_eq g; rw [h]
@[simp] theorem settle_pendPops (g : Group) : g.settle.pendPops = g.pendPops := by obtain ⟨_, _, h⟩ := settle_eq g; rw [h]
@[simp] theorem settle_dlyLeft (g : Group) : g.settle.dlyLeft = g.dlyLeft := by obtain ⟨_, _, h⟩ := settle_eq g; rw [h]
@[simp] theorem settle_ended (g : Group) : g.settle.ended = g.ended := by obtain ⟨_, _, h⟩ := settle_eq g; rw [h]
@[simp] theorem landDue_gid (g : Group) (c : Nat) : (g.landDue c).gid = g.gid := by obtain ⟨_, _, h⟩ := landDue_eq g c; rw [h]
@[simp] theorem landDue_tid (g : Group) (c : Nat) : (g.landDue c).tid = g.tid := by obtain ⟨_, _, h⟩ := landDue_eq g c; rw [h]
@[simp] theorem landDue_ctx (g : Group) (c : Nat) : (g.landDue c).ctx = g.ctx := by obtain ⟨_, _, h⟩ := landDue_eq g c; rw [h]
@[simp] theorem landDue_grp (g : Group) (c : Nat) : (g.landDue c).grp = g.grp := by obtain ⟨_, _, h⟩ := landDue_eq g c; rw [h]
@[simp] theorem landDue_die (g : Group) (c : Nat) : (g.landDue c).die = g.die := by obtain ⟨_, _, h⟩ := landDue_eq g c; rw [h]
@[simp] theorem landDue_core (g : Group) (c : Nat) : (g.landDue c).core = g.core := by obtain ⟨_, _, h⟩ := landDue_eq g c; rw [h]
@[simp] theorem landDue_slot (g : Group) (c : Nat) : (g.landDue c).slot = g.slot := by obtain ⟨_, _, h⟩ := landDue_eq g c; rw [h]
@[simp] theorem landDue_exec (g : Group) (c : Nat) : (g.landDue c).exec = g.exec := by obtain ⟨_, _, h⟩ := landDue_eq g c; rw [h]
@[simp] theorem landDue_fmt (g : Group) (c : Nat) : (g.landDue c).fmt = g.fmt := by obtain ⟨_, _, h⟩ := landDue_eq g c; rw [h]
@[simp] theorem landDue_pc (g : Group) (c : Nat) : (g.landDue c).pc = g.pc := by obtain ⟨_, _, h⟩ := landDue_eq g c; rw [h]
@[simp] theorem landDue_codeBase (g : Group) (c : Nat) : (g.landDue c).codeBase = g.codeBase := by obtain ⟨_, _, h⟩ := landDue_eq g c; rw [h]
@[simp] theorem landDue_codeSize (g : Group) (c : Nat) : (g.landDue c).codeSize = g.codeSize := by obtain ⟨_, _, h⟩ := landDue_eq g c; rw [h]
@[simp] theorem landDue_b (g : Group) (c : Nat) : (g.landDue c).b = g.b := by obtain ⟨_, _, h⟩ := landDue_eq g c; rw [h]
@[simp] theorem landDue_q (g : Group) (c : Nat) : (g.landDue c).q = g.q := by obtain ⟨_, _, h⟩ := landDue_eq g c; rw [h]
@[simp] theorem landDue_path (g : Group) (c : Nat) : (g.landDue c).path = g.path := by obtain ⟨_, _, h⟩ := landDue_eq g c; rw [h]
@[simp] theorem landDue_loops (g : Group) (c : Nat) : (g.landDue c).loops = g.loops := by obtain ⟨_, _, h⟩ := landDue_eq g c; rw [h]
@[simp] theorem landDue_depth (g : Group) (c : Nat) : (g.landDue c).depth = g.depth := by obtain ⟨_, _, h⟩ := landDue_eq g c; rw [h]
@[simp] theorem landDue_u (g : Group) (c : Nat) : (g.landDue c).u = g.u := by obtain ⟨_, _, h⟩ := landDue_eq g c; rw [h]
@[simp] theorem landDue_seed (g : Group) (c : Nat) : (g.landDue c).seed = g.seed := by obtain ⟨_, _, h⟩ := landDue_eq g c; rw [h]
@[simp] theorem landDue_schk (g : Group) (c : Nat) : (g.landDue c).schk = g.schk := by obtain ⟨_, _, h⟩ := landDue_eq g c; rw [h]
@[simp] theorem landDue_prio (g : Group) (c : Nat) : (g.landDue c).prio = g.prio := by obtain ⟨_, _, h⟩ := landDue_eq g c; rw [h]
@[simp] theorem landDue_clkh (g : Group) (c : Nat) : (g.landDue c).clkh = g.clkh := by obtain ⟨_, _, h⟩ := landDue_eq g c; rw [h]
@[simp] theorem landDue_epc (g : Group) (c : Nat) : (g.landDue c).epc = g.epc := by obtain ⟨_, _, h⟩ := landDue_eq g c; rw [h]
@[simp] theorem landDue_ecause (g : Group) (c : Nat) : (g.landDue c).ecause = g.ecause := by obtain ⟨_, _, h⟩ := landDue_eq g c; rw [h]
@[simp] theorem landDue_emask (g : Group) (c : Nat) : (g.landDue c).emask = g.emask := by obtain ⟨_, _, h⟩ := landDue_eq g c; rw [h]
@[simp] theorem landDue_frec (g : Group) (c : Nat) : (g.landDue c).frec = g.frec := by obtain ⟨_, _, h⟩ := landDue_eq g c; rw [h]
@[simp] theorem landDue_teamX (g : Group) (c : Nat) : (g.landDue c).teamX = g.teamX := by obtain ⟨_, _, h⟩ := landDue_eq g c; rw [h]
@[simp] theorem landDue_teamY (g : Group) (c : Nat) : (g.landDue c).teamY = g.teamY := by obtain ⟨_, _, h⟩ := landDue_eq g c; rw [h]
@[simp] theorem landDue_teamZ (g : Group) (c : Nat) : (g.landDue c).teamZ = g.teamZ := by obtain ⟨_, _, h⟩ := landDue_eq g c; rw [h]
@[simp] theorem landDue_nteamX (g : Group) (c : Nat) : (g.landDue c).nteamX = g.nteamX := by obtain ⟨_, _, h⟩ := landDue_eq g c; rw [h]
@[simp] theorem landDue_nteamY (g : Group) (c : Nat) : (g.landDue c).nteamY = g.nteamY := by obtain ⟨_, _, h⟩ := landDue_eq g c; rw [h]
@[simp] theorem landDue_nteamZ (g : Group) (c : Nat) : (g.landDue c).nteamZ = g.nteamZ := by obtain ⟨_, _, h⟩ := landDue_eq g c; rw [h]
@[simp] theorem landDue_tsize (g : Group) (c : Nat) : (g.landDue c).tsize = g.tsize := by obtain ⟨_, _, h⟩ := landDue_eq g c; rw [h]
@[simp] theorem landDue_nest (g : Group) (c : Nat) : (g.landDue c).nest = g.nest := by obtain ⟨_, _, h⟩ := landDue_eq g c; rw [h]
@[simp] theorem landDue_super (g : Group) (c : Nat) : (g.landDue c).super = g.super := by obtain ⟨_, _, h⟩ := landDue_eq g c; rw [h]
@[simp] theorem landDue_handler (g : Group) (c : Nat) : (g.landDue c).handler = g.handler := by obtain ⟨_, _, h⟩ := landDue_eq g c; rw [h]
@[simp] theorem landDue_reissue (g : Group) (c : Nat) : (g.landDue c).reissue = g.reissue := by obtain ⟨_, _, h⟩ := landDue_eq g c; rw [h]
@[simp] theorem landDue_park (g : Group) (c : Nat) : (g.landDue c).park = g.park := by obtain ⟨_, _, h⟩ := landDue_eq g c; rw [h]
@[simp] theorem landDue_pend (g : Group) (c : Nat) : (g.landDue c).pend = g.pend := by obtain ⟨_, _, h⟩ := landDue_eq g c; rw [h]
@[simp] theorem landDue_lower (g : Group) (c : Nat) : (g.landDue c).lower = g.lower := by obtain ⟨_, _, h⟩ := landDue_eq g c; rw [h]
@[simp] theorem landDue_anchor (g : Group) (c : Nat) : (g.landDue c).anchor = g.anchor := by obtain ⟨_, _, h⟩ := landDue_eq g c; rw [h]
@[simp] theorem landDue_fold (g : Group) (c : Nat) : (g.landDue c).fold = g.fold := by obtain ⟨_, _, h⟩ := landDue_eq g c; rw [h]
@[simp] theorem landDue_bars (g : Group) (c : Nat) : (g.landDue c).bars = g.bars := by obtain ⟨_, _, h⟩ := landDue_eq g c; rw [h]
@[simp] theorem landDue_psts (g : Group) (c : Nat) : (g.landDue c).psts = g.psts := by obtain ⟨_, _, h⟩ := landDue_eq g c; rw [h]
@[simp] theorem landDue_acc (g : Group) (c : Nat) : (g.landDue c).acc = g.acc := by obtain ⟨_, _, h⟩ := landDue_eq g c; rw [h]
@[simp] theorem landDue_poison (g : Group) (c : Nat) : (g.landDue c).poison = g.poison := by obtain ⟨_, _, h⟩ := landDue_eq g c; rw [h]
@[simp] theorem landDue_mark (g : Group) (c : Nat) : (g.landDue c).mark = g.mark := by obtain ⟨_, _, h⟩ := landDue_eq g c; rw [h]
@[simp] theorem landDue_floors (g : Group) (c : Nat) : (g.landDue c).floors = g.floors := by obtain ⟨_, _, h⟩ := landDue_eq g c; rw [h]
@[simp] theorem landDue_epoch (g : Group) (c : Nat) : (g.landDue c).epoch = g.epoch := by obtain ⟨_, _, h⟩ := landDue_eq g c; rw [h]
@[simp] theorem landDue_wait (g : Group) (c : Nat) : (g.landDue c).wait = g.wait := by obtain ⟨_, _, h⟩ := landDue_eq g c; rw [h]
@[simp] theorem landDue_readyAt (g : Group) (c : Nat) : (g.landDue c).readyAt = g.readyAt := by obtain ⟨_, _, h⟩ := landDue_eq g c; rw [h]
@[simp] theorem landDue_tried (g : Group) (c : Nat) : (g.landDue c).tried = g.tried := by obtain ⟨_, _, h⟩ := landDue_eq g c; rw [h]
@[simp] theorem landDue_lastIssue (g : Group) (c : Nat) : (g.landDue c).lastIssue = g.lastIssue := by obtain ⟨_, _, h⟩ := landDue_eq g c; rw [h]
@[simp] theorem landDue_readyFor (g : Group) (c : Nat) : (g.landDue c).readyFor = g.readyFor := by obtain ⟨_, _, h⟩ := landDue_eq g c; rw [h]
@[simp] theorem landDue_maxN (g : Group) (c : Nat) : (g.landDue c).maxN = g.maxN := by obtain ⟨_, _, h⟩ := landDue_eq g c; rw [h]
@[simp] theorem landDue_urgent (g : Group) (c : Nat) : (g.landDue c).urgent = g.urgent := by obtain ⟨_, _, h⟩ := landDue_eq g c; rw [h]
@[simp] theorem landDue_waitFrom (g : Group) (c : Nat) : (g.landDue c).waitFrom = g.waitFrom := by obtain ⟨_, _, h⟩ := landDue_eq g c; rw [h]
@[simp] theorem landDue_priv (g : Group) (c : Nat) : (g.landDue c).priv = g.priv := by obtain ⟨_, _, h⟩ := landDue_eq g c; rw [h]
@[simp] theorem landDue_pendPops (g : Group) (c : Nat) : (g.landDue c).pendPops = g.pendPops := by obtain ⟨_, _, h⟩ := landDue_eq g c; rw [h]
@[simp] theorem landDue_dlyLeft (g : Group) (c : Nat) : (g.landDue c).dlyLeft = g.dlyLeft := by obtain ⟨_, _, h⟩ := landDue_eq g c; rw [h]
@[simp] theorem landDue_ended (g : Group) (c : Nat) : (g.landDue c).ended = g.ended := by obtain ⟨_, _, h⟩ := landDue_eq g c; rw [h]

end Sys2Proof.Machine
end

