-- ==== Sys2Proof/Laws/Memory.lean ====
section
/-!
SUPPORT. Laws of memory: what a written list of cells reads as, that every operation over memory keeps the canonical form,
and what each leaves as it was.
-/

namespace Sys2Proof.Machine

/-! ### Lists of cells -/

theorem cellsWfFrom_mono {lo lo' : Nat} {m : List Host.Cell} (h : cellsWfFrom lo m = true) (k : lo' ≤ lo) :
    cellsWfFrom lo' m = true := by
  cases m with
  | nil => rfl
  | cons c r =>
    obtain ⟨a, b⟩ := c
    simp only [cellsWfFrom, Bool.and_eq_true, decide_eq_true_eq] at h ⊢
    exact ⟨⟨by omega, h.1.2⟩, h.2⟩

theorem cellsPut_wfFrom {lo a : Nat} {m : List Host.Cell} (v : Byte) (h : cellsWfFrom lo m = true) (k : lo ≤ a) :
    cellsWfFrom lo (cellsPut m a v) = true := by
  induction m generalizing lo with
  | nil => unfold cellsPut; split <;> simp_all [cellsWfFrom]
  | cons c r ih =>
    obtain ⟨x, b⟩ := c
    simp only [cellsWfFrom, Bool.and_eq_true, decide_eq_true_eq] at h
    unfold cellsPut
    split
    · split
      · simpa [cellsWfFrom] using h
      · simp only [cellsWfFrom, Bool.and_eq_true, decide_eq_true_eq]
        exact ⟨⟨k, ‹_›⟩, ⟨by omega, h.1.2⟩, h.2⟩
    · split
      · split
        · exact cellsWfFrom_mono h.2 (by omega)
        · simp only [cellsWfFrom, Bool.and_eq_true, decide_eq_true_eq]
          exact ⟨⟨k, ‹_›⟩, by simpa [‹a = x›] using h.2⟩
      · simp only [cellsWfFrom, Bool.and_eq_true, decide_eq_true_eq]
        exact ⟨h.1, ih h.2 (by omega)⟩

/-- Writing a byte keeps the canonical form. -/
theorem Memory.wf_put {m : List Host.Cell} (h : Memory.wf m = true) (a : Nat) (v : Byte) : Memory.wf (cellsPut m a v) = true :=
  cellsPut_wfFrom v h (Nat.zero_le a)

/-- Writing bytes keeps the canonical form. -/
theorem Memory.wf_putAll {m : List Host.Cell} (h : Memory.wf m = true) (a : Nat) (bs : List Byte) :
    Memory.wf (cellsPutAll m a bs) = true := by
  induction bs generalizing m a with
  | nil => exact h
  | cons b bs ih => exact ih (Memory.wf_put h a b) (a + 1)

theorem cellsWfFrom_filter {lo : Nat} {m : List Host.Cell} (p : Host.Cell → Bool) (h : cellsWfFrom lo m = true) :
    cellsWfFrom lo (m.filter p) = true := by
  induction m generalizing lo with
  | nil => exact h
  | cons c r ih =>
    obtain ⟨x, b⟩ := c
    simp only [cellsWfFrom, Bool.and_eq_true, decide_eq_true_eq] at h
    rw [List.filter_cons]
    split
    · simp only [cellsWfFrom, Bool.and_eq_true, decide_eq_true_eq]
      exact ⟨h.1, ih h.2⟩
    · exact cellsWfFrom_mono (ih h.2) (by omega)

/-- Zeroing a range keeps the canonical form. -/
theorem Memory.wf_zero {m : List Host.Cell} (h : Memory.wf m = true) (a n : Nat) : Memory.wf (cellsZero m a n) = true :=
  cellsWfFrom_filter _ h

theorem cellsGet_below {lo a : Nat} {m : List Host.Cell} (h : cellsWfFrom lo m = true) (k : a < lo) : cellsGet m a = unlisted := by
  induction m generalizing lo with
  | nil => rfl
  | cons c r ih =>
    obtain ⟨x, b⟩ := c
    simp only [cellsWfFrom, Bool.and_eq_true, decide_eq_true_eq] at h
    unfold cellsGet
    rw [if_neg (by omega)]
    exact ih h.2 (by omega)

/-- A written byte is read back. -/
theorem cellsGet_put_same {lo a : Nat} {m : List Host.Cell} (v : Byte) (h : cellsWfFrom lo m = true) :
    cellsGet (cellsPut m a v) a = v := by
  induction m generalizing lo with
  | nil => unfold cellsPut; split <;> simp_all [cellsGet]
  | cons c r ih =>
    obtain ⟨x, b⟩ := c
    simp only [cellsWfFrom, Bool.and_eq_true, decide_eq_true_eq] at h
    unfold cellsPut
    split
    · split
      · unfold cellsGet
        rw [if_neg (by omega), cellsGet_below h.2 (by omega), ‹v = unlisted›]
      · simp [cellsGet]
    · split
      · split
        · rw [cellsGet_below h.2 (by omega), ‹v = unlisted›]
        · simp [cellsGet]
      · unfold cellsGet
        rw [if_neg (by omega)]
        exact ih h.2

/-- Every other byte reads as before. -/
theorem cellsGet_put_ne (m : List Host.Cell) {a k : Nat} (v : Byte) (h : k ≠ a) : cellsGet (cellsPut m a v) k = cellsGet m k := by
  induction m with
  | nil => unfold cellsPut; split <;> simp_all [cellsGet, Ne.symm h]
  | cons c r ih =>
    obtain ⟨x, b⟩ := c
    unfold cellsPut
    split
    · split
      · rfl
      · conv => lhs; unfold cellsGet
        rw [if_neg (Ne.symm h)]
    · split
      · subst_vars
        split
        · conv => rhs; unfold cellsGet
          rw [if_neg (Ne.symm h)]
        · conv => lhs; unfold cellsGet
          conv => rhs; unfold cellsGet
          rw [if_neg (Ne.symm h), if_neg (Ne.symm h)]
      · conv => lhs; unfold cellsGet
        conv => rhs; unfold cellsGet
        rw [ih]

/-- A byte outside a written run reads as before. -/
theorem cellsGet_putAll_outside (m : List Host.Cell) (a k : Nat) (bs : List Byte) (h : ¬(a ≤ k ∧ k < a + bs.length)) :
    cellsGet (cellsPutAll m a bs) k = cellsGet m k := by
  induction bs generalizing m a with
  | nil => rfl
  | cons b bs ih =>
    simp only [List.length_cons] at h
    show cellsGet (cellsPutAll (cellsPut m a b) (a + 1) bs) k = _
    rw [ih (cellsPut m a b) (a + 1) (by omega), cellsGet_put_ne m b (by omega)]

/-- A byte inside a written run reads as written. -/
theorem cellsGet_putAll_inside {m : List Host.Cell} (hm : Memory.wf m = true) (a i : Nat) (bs : List Byte) (h : i < bs.length) :
    cellsGet (cellsPutAll m a bs) (a + i) = bs.getD i 0 := by
  induction bs generalizing m a i with
  | nil => exact absurd h (Nat.not_lt_zero i)
  | cons b bs ih =>
    cases i with
    | zero =>
      show cellsGet (cellsPutAll (cellsPut m a b) (a + 1) bs) a = b
      rw [cellsGet_putAll_outside _ _ _ _ (by omega)]
      exact cellsGet_put_same b hm
    | succ i =>
      rw [show a + (i + 1) = a + 1 + i by omega]
      show cellsGet (cellsPutAll (cellsPut m a b) (a + 1) bs) (a + 1 + i) = bs.getD i 0
      exact ih (Memory.wf_put hm a b) (a + 1) i (by simpa using h)

/-- A zeroed range reads as nothing listed, and every other byte as before. -/
theorem cellsGet_zero (m : List Host.Cell) (a n k : Nat) :
    cellsGet (cellsZero m a n) k = if a ≤ k ∧ k < a + n then unlisted else cellsGet m k := by
  unfold cellsZero
  induction m with
  | nil => simp [cellsGet]
  | cons c r ih =>
    obtain ⟨x, b⟩ := c
    rw [List.filter_cons]
    split
    · rename_i hx
      simp only [Bool.not_eq_true', Bool.and_eq_false_iff, decide_eq_false_iff_not] at hx
      conv => lhs; unfold cellsGet
      conv => rhs; arg 3; unfold cellsGet
      by_cases hk : x = k
      · subst hk
        rw [if_pos rfl, if_pos rfl, if_neg (by omega)]
      · rw [if_neg hk, if_neg hk, ih]
    · rename_i hx
      simp only [Bool.not_eq_true', Bool.and_eq_false_iff, decide_eq_false_iff_not, not_or, Decidable.not_not] at hx
      conv => rhs; arg 3; unfold cellsGet
      by_cases hk : x = k
      · subst hk
        rw [ih, if_pos hx, if_pos hx]
      · rw [if_neg hk, ih]

/-! ### The canonical form of the state's memories -/

/-- The canonical form depends on the four memories alone. -/
theorem MemoryCanonical.of_same {s t : State} (h : MemoryCanonical s) (d : t.dev = s.dev) (m : t.hostMem = s.hostMem)
    (c : t.crash = s.crash) (p : t.peers = s.peers) : MemoryCanonical t := by
  unfold MemoryCanonical
  rw [d, m, c, p]
  exact h

theorem Memory.wf_peer {s : State} (h : MemoryCanonical s) (l : Nat) : Memory.wf (s.cells (.peer l)) = true := by
  show Memory.wf (match s.peers.find? (fun p => p.1 == l) with
    | some p => p.2
    | none => []) = true
  split
  · rename_i p hp
    exact h.2.2.2 p (List.mem_of_find?_eq_some hp)
  · rfl

/-- An element of a list after one is put by its key was in the list or is the one put. -/
theorem mem_putKey {α : Type} {key : α → Nat} {x y : α} {l : List α} (h : y ∈ putKey key x l) : y = x ∨ y ∈ l := by
  induction l with
  | nil => exact .inl (by simpa [putKey] using h)
  | cons z r ih =>
    unfold putKey at h
    split at h
    · rcases List.mem_cons.1 h with h | h
      · exact .inl h
      · exact .inr (List.mem_cons_of_mem _ h)
    · rcases List.mem_cons.1 h with h | h
      · exact .inr (h ▸ List.mem_cons_self)
      · exact (ih h).imp id (List.mem_cons_of_mem _)

/-- Replacing the bytes of a space by canonical ones keeps the form. -/
theorem putCells_canonical {s : State} (h : MemoryCanonical s) (sp : Space) {m : List Host.Cell} (hm : Memory.wf m = true) :
    MemoryCanonical (s.putCells sp m) := by
  cases sp with
  | dev => exact ⟨hm, h.2⟩
  | host => exact ⟨h.1, hm, h.2.2⟩
  | peer l =>
    refine ⟨h.1, h.2.1, h.2.2.1, fun p hp => ?_⟩
    rcases mem_putKey hp with rfl | hp
    · exact hm
    · exact h.2.2.2 p hp
  | win t =>
    simp only [State.putCells]
    split
    · exact h
    · exact h
  | plane _ _ => exact h
  | kick c => exact h
  | port c => exact h

theorem putPoison_canonical {s : State} (h : MemoryCanonical s) (sp : Space) (l : List Nat) : MemoryCanonical (s.putPoison sp l) := by
  cases sp <;> simp only [State.putPoison] <;> first | exact h | (split <;> exact h)

theorem clearPoison_canonical {s : State} (h : MemoryCanonical s) (p : PAddr) (n : Nat) : MemoryCanonical (s.clearPoison p n) := by
  simp only [State.clearPoison]
  split
  · exact h
  · exact putPoison_canonical h _ _

/-- A change of the bytes of a space that keeps the form of a list keeps the form of memory. -/
theorem editCells_canonical {s : State} (h : MemoryCanonical s) (sp : Space) {f : List Host.Cell → List Host.Cell}
    (hf : ∀ m, Memory.wf m = true → Memory.wf (f m) = true) : MemoryCanonical (s.putCells sp (f (s.cells sp))) := by
  cases sp with
  | dev => exact putCells_canonical h _ (hf _ h.1)
  | host => exact putCells_canonical h _ (hf _ h.2.1)
  | peer l => exact putCells_canonical h _ (hf _ (Memory.wf_peer h l))
  | win t => simp only [State.putCells]; split <;> exact h
  | plane _ _ => exact h
  | kick c => exact h
  | port c => exact h

/-- A step for each element of a list keeps what every single one keeps. -/
theorem each_keeps {α : Type} {P : State → Prop} (f : State → α → State) (hf : ∀ s x, P s → P (f s x)) (l : List α) {s : State}
    (h : P s) : P (s.each l f) := by
  induction l generalizing s with
  | nil => exact h
  | cons x r ih => exact ih (hf s x h)

/-- A store at its home keeps the form. -/
theorem writeHome_canonical {s : State} (h : MemoryCanonical s) (p : PAddr) (bs : List Byte) : MemoryCanonical (s.writeHome p bs) := by
  have hc := clearPoison_canonical h p bs.length
  simp only [State.writeHome]
  split
  · refine each_keeps (P := MemoryCanonical) _ (fun s x hs => ?_) _ hc
    split
    · exact hs
    · exact editCells_canonical hs _ fun _ hm => Memory.wf_put hm _ _
  · exact editCells_canonical hc _ fun _ hm => Memory.wf_putAll hm _ _

theorem watchSlot_canonical {s : State} (h : MemoryCanonical s) (i stop : Nat) (host : Bool) (ctx : Nat) :
    MemoryCanonical (s.watchSlot i stop host ctx) := by
  simp only [State.watchSlot]
  split
  · exact ⟨Memory.wf_putAll h.1 _ _, h.2⟩
  · split <;> exact h

/-- The write-watch hardware keeps the form. -/
theorem watchClaim_canonical {s : State} (h : MemoryCanonical s) (p : PAddr) (n : Nat) (host : Bool) (ctx : Nat) :
    MemoryCanonical (s.watchClaim p n host ctx) := by
  unfold State.watchClaim
  exact each_keeps (P := MemoryCanonical) _ (fun _ i hs => watchSlot_canonical hs i _ host ctx) _ h

theorem watchPolls_canonical {s : State} (h : MemoryCanonical s) : MemoryCanonical s.watchPolls := by
  simp only [State.watchPolls]
  split <;> exact h

/-- A store that joins the coherence order keeps the form. -/
theorem storeHome_canonical {s : State} (h : MemoryCanonical s) (p : PAddr) (bs : List Byte) (sid : Nat) (sys host : Bool)
    (ctx : Nat) : MemoryCanonical (s.storeHome p bs sid sys host ctx) := by
  unfold State.storeHome
  apply watchPolls_canonical
  apply watchClaim_canonical
  apply MemoryCanonical.of_same (writeHome_canonical h p bs) <;> rfl

/-- A store of one of the device's units keeps the form. -/
theorem unitStore_canonical {s : State} (h : MemoryCanonical s) (p : PAddr) (bs : List Byte) : MemoryCanonical (s.unitStore p bs) :=
  storeHome_canonical (s := s.newId.2) h p bs s.nextId true false 0

theorem zeroFrame_canonical {s : State} (h : MemoryCanonical s) (a n : Nat) : MemoryCanonical (s.zeroFrame a n) :=
  ⟨Memory.wf_zero h.1 a n, h.2⟩

theorem freeFrame_canonical {s : State} (h : MemoryCanonical s) (a n : Nat) : MemoryCanonical (s.freeFrame a n) :=
  ⟨Memory.wf_zero h.1 a n, h.2⟩

theorem allocFrame_canonical {s t : State} (h : MemoryCanonical s) {far n ctx a : Nat} (e : s.allocFrame far n ctx = some (a, t)) :
    MemoryCanonical t := by
  simp only [State.allocFrame] at e
  split at e
  · cases e
  · cases e
    exact ⟨Memory.wf_zero h.1 _ _, h.2⟩

end Sys2Proof.Machine
end

