-- ==== Sys2Proof/Laws/PerInstr.lean ====
section
/-!
SUPPORT. Lemmas for every constructor of `Instr`: the word of an instruction fits its length, and its lowest bit tells a
16-bit word from a 32-bit one (R43).
-/

namespace Sys2Proof.Laws.Encodes

set_option Elab.async false

/-- The word of an instruction lies in the bits of its length, of an EXT pair's in those of the first word, and its lowest bit
is 0 for the 16-bit forms alone (R43). -/
def Statement (i : Instr) : Prop :=
  ∀ w, encodeWord i = some w → w < 4294967296 ∧ (wordBytes i = 2 → w < 65536) ∧ (wordBytes i = 2 → w % 2 = 0) ∧
    (wordBytes i ≠ 2 → w % 2 = 1)

theorem vaddI (d : BitVec 7) (a : BitVec 7) (b : BitVec 7) : Statement (.vaddI d a b) := by
  intro w h; simp only [encodeWord, Option.some.injEq] at h; subst h; simp only [wordBytes]; omega
theorem vsubI (d : BitVec 7) (a : BitVec 7) (b : BitVec 7) : Statement (.vsubI d a b) := by
  intro w h; simp only [encodeWord, Option.some.injEq] at h; subst h; simp only [wordBytes]; omega
theorem vmullo (d : BitVec 7) (a : BitVec 7) (b : BitVec 7) : Statement (.vmullo d a b) := by
  intro w h; simp only [encodeWord, Option.some.injEq] at h; subst h; simp only [wordBytes]; omega
theorem vmulhiS (d : BitVec 7) (a : BitVec 7) (b : BitVec 7) : Statement (.vmulhiS d a b) := by
  intro w h; simp only [encodeWord, Option.some.injEq] at h; subst h; simp only [wordBytes]; omega
theorem vmulhiZ (d : BitVec 7) (a : BitVec 7) (b : BitVec 7) : Statement (.vmulhiZ d a b) := by
  intro w h; simp only [encodeWord, Option.some.injEq] at h; subst h; simp only [wordBytes]; omega
theorem vand (d : BitVec 7) (a : BitVec 7) (b : BitVec 7) : Statement (.vand d a b) := by
  intro w h; simp only [encodeWord, Option.some.injEq] at h; subst h; simp only [wordBytes]; omega
theorem vor (d : BitVec 7) (a : BitVec 7) (b : BitVec 7) : Statement (.vor d a b) := by
  intro w h; simp only [encodeWord, Option.some.injEq] at h; subst h; simp only [wordBytes]; omega
theorem vxor (d : BitVec 7) (a : BitVec 7) (b : BitVec 7) : Statement (.vxor d a b) := by
  intro w h; simp only [encodeWord, Option.some.injEq] at h; subst h; simp only [wordBytes]; omega
theorem vshl (d : BitVec 7) (a : BitVec 7) (b : BitVec 7) : Statement (.vshl d a b) := by
  intro w h; simp only [encodeWord, Option.some.injEq] at h; subst h; simp only [wordBytes]; omega
theorem vshrz (d : BitVec 7) (a : BitVec 7) (b : BitVec 7) : Statement (.vshrz d a b) := by
  intro w h; simp only [encodeWord, Option.some.injEq] at h; subst h; simp only [wordBytes]; omega
theorem vshrs (d : BitVec 7) (a : BitVec 7) (b : BitVec 7) : Statement (.vshrs d a b) := by
  intro w h; simp only [encodeWord, Option.some.injEq] at h; subst h; simp only [wordBytes]; omega
theorem vminS (d : BitVec 7) (a : BitVec 7) (b : BitVec 7) : Statement (.vminS d a b) := by
  intro w h; simp only [encodeWord, Option.some.injEq] at h; subst h; simp only [wordBytes]; omega
theorem vmaxS (d : BitVec 7) (a : BitVec 7) (b : BitVec 7) : Statement (.vmaxS d a b) := by
  intro w h; simp only [encodeWord, Option.some.injEq] at h; subst h; simp only [wordBytes]; omega
theorem vminZ (d : BitVec 7) (a : BitVec 7) (b : BitVec 7) : Statement (.vminZ d a b) := by
  intro w h; simp only [encodeWord, Option.some.injEq] at h; subst h; simp only [wordBytes]; omega
theorem vmaxZ (d : BitVec 7) (a : BitVec 7) (b : BitVec 7) : Statement (.vmaxZ d a b) := by
  intro w h; simp only [encodeWord, Option.some.injEq] at h; subst h; simp only [wordBytes]; omega
theorem vrotl (d : BitVec 7) (a : BitVec 7) (b : BitVec 7) : Statement (.vrotl d a b) := by
  intro w h; simp only [encodeWord, Option.some.injEq] at h; subst h; simp only [wordBytes]; omega
theorem vaddF (d : BitVec 7) (a : BitVec 7) (b : BitVec 7) : Statement (.vaddF d a b) := by
  intro w h; simp only [encodeWord, Option.some.injEq] at h; subst h; simp only [wordBytes]; omega
theorem vsubF (d : BitVec 7) (a : BitVec 7) (b : BitVec 7) : Statement (.vsubF d a b) := by
  intro w h; simp only [encodeWord, Option.some.injEq] at h; subst h; simp only [wordBytes]; omega
theorem vmulF (d : BitVec 7) (a : BitVec 7) (b : BitVec 7) : Statement (.vmulF d a b) := by
  intro w h; simp only [encodeWord, Option.some.injEq] at h; subst h; simp only [wordBytes]; omega
theorem vfmaF (d : BitVec 7) (a : BitVec 7) (b : BitVec 7) : Statement (.vfmaF d a b) := by
  intro w h; simp only [encodeWord, Option.some.injEq] at h; subst h; simp only [wordBytes]; omega
theorem vfnmaF (d : BitVec 7) (a : BitVec 7) (b : BitVec 7) : Statement (.vfnmaF d a b) := by
  intro w h; simp only [encodeWord, Option.some.injEq] at h; subst h; simp only [wordBytes]; omega
theorem vminF (d : BitVec 7) (a : BitVec 7) (b : BitVec 7) : Statement (.vminF d a b) := by
  intro w h; simp only [encodeWord, Option.some.injEq] at h; subst h; simp only [wordBytes]; omega
theorem vmaxF (d : BitVec 7) (a : BitVec 7) (b : BitVec 7) : Statement (.vmaxF d a b) := by
  intro w h; simp only [encodeWord, Option.some.injEq] at h; subst h; simp only [wordBytes]; omega
theorem vcpsgn (d : BitVec 7) (a : BitVec 7) (b : BitVec 7) : Statement (.vcpsgn d a b) := by
  intro w h; simp only [encodeWord, Option.some.injEq] at h; subst h; simp only [wordBytes]; omega
theorem vaddH (d : BitVec 7) (a : BitVec 7) (b : BitVec 7) : Statement (.vaddH d a b) := by
  intro w h; simp only [encodeWord, Option.some.injEq] at h; subst h; simp only [wordBytes]; omega
theorem vmulH (d : BitVec 7) (a : BitVec 7) (b : BitVec 7) : Statement (.vmulH d a b) := by
  intro w h; simp only [encodeWord, Option.some.injEq] at h; subst h; simp only [wordBytes]; omega
theorem vfmaH (d : BitVec 7) (a : BitVec 7) (b : BitVec 7) : Statement (.vfmaH d a b) := by
  intro w h; simp only [encodeWord, Option.some.injEq] at h; subst h; simp only [wordBytes]; omega
theorem vdot2H (d : BitVec 7) (a : BitVec 7) (b : BitVec 7) : Statement (.vdot2H d a b) := by
  intro w h; simp only [encodeWord, Option.some.injEq] at h; subst h; simp only [wordBytes]; omega
theorem vaddBf (d : BitVec 7) (a : BitVec 7) (b : BitVec 7) : Statement (.vaddBf d a b) := by
  intro w h; simp only [encodeWord, Option.some.injEq] at h; subst h; simp only [wordBytes]; omega
theorem vmulBf (d : BitVec 7) (a : BitVec 7) (b : BitVec 7) : Statement (.vmulBf d a b) := by
  intro w h; simp only [encodeWord, Option.some.injEq] at h; subst h; simp only [wordBytes]; omega
theorem vfmaBf (d : BitVec 7) (a : BitVec 7) (b : BitVec 7) : Statement (.vfmaBf d a b) := by
  intro w h; simp only [encodeWord, Option.some.injEq] at h; subst h; simp only [wordBytes]; omega
theorem vdot2Bf (d : BitVec 7) (a : BitVec 7) (b : BitVec 7) : Statement (.vdot2Bf d a b) := by
  intro w h; simp only [encodeWord, Option.some.injEq] at h; subst h; simp only [wordBytes]; omega
theorem vcmpEqF (d : BitVec 6) (a : BitVec 7) (b : BitVec 7) : Statement (.vcmpEqF d a b) := by
  intro w h; simp only [encodeWord, Option.some.injEq] at h; subst h; simp only [wordBytes]; omega
theorem vcmpNeF (d : BitVec 6) (a : BitVec 7) (b : BitVec 7) : Statement (.vcmpNeF d a b) := by
  intro w h; simp only [encodeWord, Option.some.injEq] at h; subst h; simp only [wordBytes]; omega
theorem vcmpLtF (d : BitVec 6) (a : BitVec 7) (b : BitVec 7) : Statement (.vcmpLtF d a b) := by
  intro w h; simp only [encodeWord, Option.some.injEq] at h; subst h; simp only [wordBytes]; omega
theorem vcmpLeF (d : BitVec 6) (a : BitVec 7) (b : BitVec 7) : Statement (.vcmpLeF d a b) := by
  intro w h; simp only [encodeWord, Option.some.injEq] at h; subst h; simp only [wordBytes]; omega
theorem vcmpGtF (d : BitVec 6) (a : BitVec 7) (b : BitVec 7) : Statement (.vcmpGtF d a b) := by
  intro w h; simp only [encodeWord, Option.some.injEq] at h; subst h; simp only [wordBytes]; omega
theorem vcmpGeF (d : BitVec 6) (a : BitVec 7) (b : BitVec 7) : Statement (.vcmpGeF d a b) := by
  intro w h; simp only [encodeWord, Option.some.injEq] at h; subst h; simp only [wordBytes]; omega
theorem vcmpUnF (d : BitVec 6) (a : BitVec 7) (b : BitVec 7) : Statement (.vcmpUnF d a b) := by
  intro w h; simp only [encodeWord, Option.some.injEq] at h; subst h; simp only [wordBytes]; omega
theorem vcmpOrF (d : BitVec 6) (a : BitVec 7) (b : BitVec 7) : Statement (.vcmpOrF d a b) := by
  intro w h; simp only [encodeWord, Option.some.injEq] at h; subst h; simp only [wordBytes]; omega
theorem vcmpEqI (d : BitVec 6) (a : BitVec 7) (b : BitVec 7) : Statement (.vcmpEqI d a b) := by
  intro w h; simp only [encodeWord, Option.some.injEq] at h; subst h; simp only [wordBytes]; omega
theorem vcmpNeI (d : BitVec 6) (a : BitVec 7) (b : BitVec 7) : Statement (.vcmpNeI d a b) := by
  intro w h; simp only [encodeWord, Option.some.injEq] at h; subst h; simp only [wordBytes]; omega
theorem vcmpLtS (d : BitVec 6) (a : BitVec 7) (b : BitVec 7) : Statement (.vcmpLtS d a b) := by
  intro w h; simp only [encodeWord, Option.some.injEq] at h; subst h; simp only [wordBytes]; omega
theorem vcmpLeS (d : BitVec 6) (a : BitVec 7) (b : BitVec 7) : Statement (.vcmpLeS d a b) := by
  intro w h; simp only [encodeWord, Option.some.injEq] at h; subst h; simp only [wordBytes]; omega
theorem vcmpLtZ (d : BitVec 6) (a : BitVec 7) (b : BitVec 7) : Statement (.vcmpLtZ d a b) := by
  intro w h; simp only [encodeWord, Option.some.injEq] at h; subst h; simp only [wordBytes]; omega
theorem vcmpLeZ (d : BitVec 6) (a : BitVec 7) (b : BitVec 7) : Statement (.vcmpLeZ d a b) := by
  intro w h; simp only [encodeWord, Option.some.injEq] at h; subst h; simp only [wordBytes]; omega
theorem vcmpTst (d : BitVec 6) (a : BitVec 7) (b : BitVec 7) : Statement (.vcmpTst d a b) := by
  intro w h; simp only [encodeWord, Option.some.injEq] at h; subst h; simp only [wordBytes]; omega
theorem vcmpNtst (d : BitVec 6) (a : BitVec 7) (b : BitVec 7) : Statement (.vcmpNtst d a b) := by
  intro w h; simp only [encodeWord, Option.some.injEq] at h; subst h; simp only [wordBytes]; omega
theorem vaddi (d : BitVec 7) (a : BitVec 7) (i : BitVec 7) : Statement (.vaddi d a i) := by
  intro w h; simp only [encodeWord, Option.some.injEq] at h; subst h; simp only [wordBytes]; omega
theorem vandi (d : BitVec 7) (a : BitVec 7) (i : BitVec 7) : Statement (.vandi d a i) := by
  intro w h; simp only [encodeWord, Option.some.injEq] at h; subst h; simp only [wordBytes]; omega
theorem vori (d : BitVec 7) (a : BitVec 7) (i : BitVec 7) : Statement (.vori d a i) := by
  intro w h; simp only [encodeWord, Option.some.injEq] at h; subst h; simp only [wordBytes]; omega
theorem vxori (d : BitVec 7) (a : BitVec 7) (i : BitVec 7) : Statement (.vxori d a i) := by
  intro w h; simp only [encodeWord, Option.some.injEq] at h; subst h; simp only [wordBytes]; omega
theorem vshli (d : BitVec 7) (a : BitVec 7) (i : BitVec 7) : Statement (.vshli d a i) := by
  intro w h; simp only [encodeWord, Option.some.injEq] at h; subst h; simp only [wordBytes]; omega
theorem vshrzi (d : BitVec 7) (a : BitVec 7) (i : BitVec 7) : Statement (.vshrzi d a i) := by
  intro w h; simp only [encodeWord, Option.some.injEq] at h; subst h; simp only [wordBytes]; omega
theorem vshrsi (d : BitVec 7) (a : BitVec 7) (i : BitVec 7) : Statement (.vshrsi d a i) := by
  intro w h; simp only [encodeWord, Option.some.injEq] at h; subst h; simp only [wordBytes]; omega
theorem vmuli (d : BitVec 7) (a : BitVec 7) (i : BitVec 7) : Statement (.vmuli d a i) := by
  intro w h; simp only [encodeWord, Option.some.injEq] at h; subst h; simp only [wordBytes]; omega
theorem vcvt (d : BitVec 7) (a : BitVec 7) : Statement (.vcvt d a) := by
  intro w h; simp only [encodeWord, Option.some.injEq] at h; subst h; simp only [wordBytes]; omega
theorem vcvtfS (d : BitVec 7) (a : BitVec 7) : Statement (.vcvtfS d a) := by
  intro w h; simp only [encodeWord, Option.some.injEq] at h; subst h; simp only [wordBytes]; omega
theorem vcvtsF (d : BitVec 7) (a : BitVec 7) : Statement (.vcvtsF d a) := by
  intro w h; simp only [encodeWord, Option.some.injEq] at h; subst h; simp only [wordBytes]; omega
theorem vcvtfZ (d : BitVec 7) (a : BitVec 7) : Statement (.vcvtfZ d a) := by
  intro w h; simp only [encodeWord, Option.some.injEq] at h; subst h; simp only [wordBytes]; omega
theorem vcvtzF (d : BitVec 7) (a : BitVec 7) : Statement (.vcvtzF d a) := by
  intro w h; simp only [encodeWord, Option.some.injEq] at h; subst h; simp only [wordBytes]; omega
theorem vpkbx8 (d : BitVec 7) (a : BitVec 7) : Statement (.vpkbx8 d a) := by
  intro w h; simp only [encodeWord, Option.some.injEq] at h; subst h; simp only [wordBytes]; omega
theorem vupbx8 (d : BitVec 7) (a : BitVec 7) : Statement (.vupbx8 d a) := by
  intro w h; simp only [encodeWord, Option.some.injEq] at h; subst h; simp only [wordBytes]; omega
theorem vpkbx4 (d : BitVec 7) (a : BitVec 7) : Statement (.vpkbx4 d a) := by
  intro w h; simp only [encodeWord, Option.some.injEq] at h; subst h; simp only [wordBytes]; omega
theorem vupbx4 (d : BitVec 7) (a : BitVec 7) : Statement (.vupbx4 d a) := by
  intro w h; simp only [encodeWord, Option.some.injEq] at h; subst h; simp only [wordBytes]; omega
theorem vpkf8 (d : BitVec 7) (a : BitVec 7) : Statement (.vpkf8 d a) := by
  intro w h; simp only [encodeWord, Option.some.injEq] at h; subst h; simp only [wordBytes]; omega
theorem vupf8 (d : BitVec 7) (a : BitVec 7) : Statement (.vupf8 d a) := by
  intro w h; simp only [encodeWord, Option.some.injEq] at h; subst h; simp only [wordBytes]; omega
theorem vrcp (d : BitVec 7) (a : BitVec 7) : Statement (.vrcp d a) := by
  intro w h; simp only [encodeWord, Option.some.injEq] at h; subst h; simp only [wordBytes]; omega
theorem vrsq (d : BitVec 7) (a : BitVec 7) : Statement (.vrsq d a) := by
  intro w h; simp only [encodeWord, Option.some.injEq] at h; subst h; simp only [wordBytes]; omega
theorem vsqrt (d : BitVec 7) (a : BitVec 7) : Statement (.vsqrt d a) := by
  intro w h; simp only [encodeWord, Option.some.injEq] at h; subst h; simp only [wordBytes]; omega
theorem vexp2 (d : BitVec 7) (a : BitVec 7) : Statement (.vexp2 d a) := by
  intro w h; simp only [encodeWord, Option.some.injEq] at h; subst h; simp only [wordBytes]; omega
theorem vlog2 (d : BitVec 7) (a : BitVec 7) : Statement (.vlog2 d a) := by
  intro w h; simp only [encodeWord, Option.some.injEq] at h; subst h; simp only [wordBytes]; omega
theorem vsinpi (d : BitVec 7) (a : BitVec 7) : Statement (.vsinpi d a) := by
  intro w h; simp only [encodeWord, Option.some.injEq] at h; subst h; simp only [wordBytes]; omega
theorem vcospi (d : BitVec 7) (a : BitVec 7) : Statement (.vcospi d a) := by
  intro w h; simp only [encodeWord, Option.some.injEq] at h; subst h; simp only [wordBytes]; omega
theorem vtanh (d : BitVec 7) (a : BitVec 7) : Statement (.vtanh d a) := by
  intro w h; simp only [encodeWord, Option.some.injEq] at h; subst h; simp only [wordBytes]; omega
theorem vabsF (d : BitVec 7) (a : BitVec 7) : Statement (.vabsF d a) := by
  intro w h; simp only [encodeWord, Option.some.injEq] at h; subst h; simp only [wordBytes]; omega
theorem vnegF (d : BitVec 7) (a : BitVec 7) : Statement (.vnegF d a) := by
  intro w h; simp only [encodeWord, Option.some.injEq] at h; subst h; simp only [wordBytes]; omega
theorem vfloor (d : BitVec 7) (a : BitVec 7) : Statement (.vfloor d a) := by
  intro w h; simp only [encodeWord, Option.some.injEq] at h; subst h; simp only [wordBytes]; omega
theorem vfract (d : BitVec 7) (a : BitVec 7) : Statement (.vfract d a) := by
  intro w h; simp only [encodeWord, Option.some.injEq] at h; subst h; simp only [wordBytes]; omega
theorem vabsI (d : BitVec 7) (a : BitVec 7) : Statement (.vabsI d a) := by
  intro w h; simp only [encodeWord, Option.some.injEq] at h; subst h; simp only [wordBytes]; omega
theorem vnegI (d : BitVec 7) (a : BitVec 7) : Statement (.vnegI d a) := by
  intro w h; simp only [encodeWord, Option.some.injEq] at h; subst h; simp only [wordBytes]; omega
theorem vnot (d : BitVec 7) (a : BitVec 7) : Statement (.vnot d a) := by
  intro w h; simp only [encodeWord, Option.some.injEq] at h; subst h; simp only [wordBytes]; omega
theorem vpopc (d : BitVec 7) (a : BitVec 7) : Statement (.vpopc d a) := by
  intro w h; simp only [encodeWord, Option.some.injEq] at h; subst h; simp only [wordBytes]; omega
theorem vclz (d : BitVec 7) (a : BitVec 7) : Statement (.vclz d a) := by
  intro w h; simp only [encodeWord, Option.some.injEq] at h; subst h; simp only [wordBytes]; omega
theorem vbrev (d : BitVec 7) (a : BitVec 7) : Statement (.vbrev d a) := by
  intro w h; simp only [encodeWord, Option.some.injEq] at h; subst h; simp only [wordBytes]; omega
theorem vshfl (d : BitVec 7) (a : BitVec 7) (b : BitVec 7) : Statement (.vshfl d a b) := by
  intro w h; simp only [encodeWord, Option.some.injEq] at h; subst h; simp only [wordBytes]; omega
theorem vshflx (d : BitVec 7) (a : BitVec 7) (i : BitVec 7) : Statement (.vshflx d a i) := by
  intro w h; simp only [encodeWord, Option.some.injEq] at h; subst h; simp only [wordBytes]; omega
theorem vshflup (d : BitVec 7) (a : BitVec 7) (i : BitVec 7) : Statement (.vshflup d a i) := by
  intro w h; simp only [encodeWord, Option.some.injEq] at h; subst h; simp only [wordBytes]; omega
theorem vshfldn (d : BitVec 7) (a : BitVec 7) (i : BitVec 7) : Statement (.vshfldn d a i) := by
  intro w h; simp only [encodeWord, Option.some.injEq] at h; subst h; simp only [wordBytes]; omega
theorem vbcast (d : BitVec 7) (a : BitVec 7) (i : BitVec 7) : Statement (.vbcast d a i) := by
  intro w h; simp only [encodeWord, Option.some.injEq] at h; subst h; simp only [wordBytes]; omega
theorem vraddF (d : BitVec 7) (a : BitVec 7) : Statement (.vraddF d a) := by
  intro w h; simp only [encodeWord, Option.some.injEq] at h; subst h; simp only [wordBytes]; omega
theorem vrmaxF (d : BitVec 7) (a : BitVec 7) : Statement (.vrmaxF d a) := by
  intro w h; simp only [encodeWord, Option.some.injEq] at h; subst h; simp only [wordBytes]; omega
theorem vscanF (d : BitVec 7) (a : BitVec 7) : Statement (.vscanF d a) := by
  intro w h; simp only [encodeWord, Option.some.injEq] at h; subst h; simp only [wordBytes]; omega
theorem vbcs (d : BitVec 7) (s : BitVec 6) : Statement (.vbcs d s) := by
  intro w h; simp only [encodeWord, Option.some.injEq] at h; subst h; simp only [wordBytes]; omega
theorem vmovsl (a : BitVec 7) (s : BitVec 6) (i : BitVec 5) : Statement (.vmovsl a s i) := by
  intro w h; simp only [encodeWord, Option.some.injEq] at h; subst h; simp only [wordBytes]; omega
theorem vlaneid (d : BitVec 7) : Statement (.vlaneid d) := by
  intro w h; simp only [encodeWord, Option.some.injEq] at h; subst h; simp only [wordBytes]; omega
theorem vsetl (d : BitVec 7) (s : BitVec 6) (i : BitVec 5) : Statement (.vsetl d s i) := by
  intro w h; simp only [encodeWord, Option.some.injEq] at h; subst h; simp only [wordBytes]; omega
theorem sadd (d : BitVec 6) (a : BitVec 6) (b : BitVec 6) : Statement (.sadd d a b) := by
  intro w h; simp only [encodeWord, Option.some.injEq] at h; subst h; simp only [wordBytes]; omega
theorem ssub (d : BitVec 6) (a : BitVec 6) (b : BitVec 6) : Statement (.ssub d a b) := by
  intro w h; simp only [encodeWord, Option.some.injEq] at h; subst h; simp only [wordBytes]; omega
theorem smul (d : BitVec 6) (a : BitVec 6) (b : BitVec 6) : Statement (.smul d a b) := by
  intro w h; simp only [encodeWord, Option.some.injEq] at h; subst h; simp only [wordBytes]; omega
theorem smulhs (d : BitVec 6) (a : BitVec 6) (b : BitVec 6) : Statement (.smulhs d a b) := by
  intro w h; simp only [encodeWord, Option.some.injEq] at h; subst h; simp only [wordBytes]; omega
theorem smulhz (d : BitVec 6) (a : BitVec 6) (b : BitVec 6) : Statement (.smulhz d a b) := by
  intro w h; simp only [encodeWord, Option.some.injEq] at h; subst h; simp only [wordBytes]; omega
theorem sand (d : BitVec 6) (a : BitVec 6) (b : BitVec 6) : Statement (.sand d a b) := by
  intro w h; simp only [encodeWord, Option.some.injEq] at h; subst h; simp only [wordBytes]; omega
theorem sor (d : BitVec 6) (a : BitVec 6) (b : BitVec 6) : Statement (.sor d a b) := by
  intro w h; simp only [encodeWord, Option.some.injEq] at h; subst h; simp only [wordBytes]; omega
theorem sxor (d : BitVec 6) (a : BitVec 6) (b : BitVec 6) : Statement (.sxor d a b) := by
  intro w h; simp only [encodeWord, Option.some.injEq] at h; subst h; simp only [wordBytes]; omega
theorem sandn (d : BitVec 6) (a : BitVec 6) (b : BitVec 6) : Statement (.sandn d a b) := by
  intro w h; simp only [encodeWord, Option.some.injEq] at h; subst h; simp only [wordBytes]; omega
theorem sshl (d : BitVec 6) (a : BitVec 6) (b : BitVec 6) : Statement (.sshl d a b) := by
  intro w h; simp only [encodeWord, Option.some.injEq] at h; subst h; simp only [wordBytes]; omega
theorem sshrz (d : BitVec 6) (a : BitVec 6) (b : BitVec 6) : Statement (.sshrz d a b) := by
  intro w h; simp only [encodeWord, Option.some.injEq] at h; subst h; simp only [wordBytes]; omega
theorem sshrs (d : BitVec 6) (a : BitVec 6) (b : BitVec 6) : Statement (.sshrs d a b) := by
  intro w h; simp only [encodeWord, Option.some.injEq] at h; subst h; simp only [wordBytes]; omega
theorem smins (d : BitVec 6) (a : BitVec 6) (b : BitVec 6) : Statement (.smins d a b) := by
  intro w h; simp only [encodeWord, Option.some.injEq] at h; subst h; simp only [wordBytes]; omega
theorem smaxs (d : BitVec 6) (a : BitVec 6) (b : BitVec 6) : Statement (.smaxs d a b) := by
  intro w h; simp only [encodeWord, Option.some.injEq] at h; subst h; simp only [wordBytes]; omega
theorem sminz (d : BitVec 6) (a : BitVec 6) (b : BitVec 6) : Statement (.sminz d a b) := by
  intro w h; simp only [encodeWord, Option.some.injEq] at h; subst h; simp only [wordBytes]; omega
theorem smaxz (d : BitVec 6) (a : BitVec 6) (b : BitVec 6) : Statement (.smaxz d a b) := by
  intro w h; simp only [encodeWord, Option.some.injEq] at h; subst h; simp only [wordBytes]; omega
theorem sslts (d : BitVec 6) (a : BitVec 6) (b : BitVec 6) : Statement (.sslts d a b) := by
  intro w h; simp only [encodeWord, Option.some.injEq] at h; subst h; simp only [wordBytes]; omega
theorem ssltz (d : BitVec 6) (a : BitVec 6) (b : BitVec 6) : Statement (.ssltz d a b) := by
  intro w h; simp only [encodeWord, Option.some.injEq] at h; subst h; simp only [wordBytes]; omega
theorem sseq (d : BitVec 6) (a : BitVec 6) (b : BitVec 6) : Statement (.sseq d a b) := by
  intro w h; simp only [encodeWord, Option.some.injEq] at h; subst h; simp only [wordBytes]; omega
theorem spopc (d : BitVec 6) (a : BitVec 6) : Statement (.spopc d a) := by
  intro w h; simp only [encodeWord, Option.some.injEq] at h; subst h; simp only [wordBytes]; omega
theorem sctz (d : BitVec 6) (a : BitVec 6) : Statement (.sctz d a) := by
  intro w h; simp only [encodeWord, Option.some.injEq] at h; subst h; simp only [wordBytes]; omega
theorem sclz (d : BitVec 6) (a : BitVec 6) : Statement (.sclz d a) := by
  intro w h; simp only [encodeWord, Option.some.injEq] at h; subst h; simp only [wordBytes]; omega
theorem sbfe (d : BitVec 6) (a : BitVec 6) (b : BitVec 6) : Statement (.sbfe d a b) := by
  intro w h; simp only [encodeWord, Option.some.injEq] at h; subst h; simp only [wordBytes]; omega
theorem sbfi (d : BitVec 6) (a : BitVec 6) (b : BitVec 6) : Statement (.sbfi d a b) := by
  intro w h; simp only [encodeWord, Option.some.injEq] at h; subst h; simp only [wordBytes]; omega
theorem sadd64 (d : BitVec 6) (a : BitVec 6) (b : BitVec 6) : Statement (.sadd64 d a b) := by
  intro w h; simp only [encodeWord, Option.some.injEq] at h; subst h; simp only [wordBytes]; omega
theorem ssub64 (d : BitVec 6) (a : BitVec 6) (b : BitVec 6) : Statement (.ssub64 d a b) := by
  intro w h; simp only [encodeWord, Option.some.injEq] at h; subst h; simp only [wordBytes]; omega
theorem sshl64 (d : BitVec 6) (a : BitVec 6) (b : BitVec 6) : Statement (.sshl64 d a b) := by
  intro w h; simp only [encodeWord, Option.some.injEq] at h; subst h; simp only [wordBytes]; omega
theorem sshrz64 (d : BitVec 6) (a : BitVec 6) (b : BitVec 6) : Statement (.sshrz64 d a b) := by
  intro w h; simp only [encodeWord, Option.some.injEq] at h; subst h; simp only [wordBytes]; omega
theorem ssel (d : BitVec 6) (a : BitVec 6) (b : BitVec 6) : Statement (.ssel d a b) := by
  intro w h; simp only [encodeWord, Option.some.injEq] at h; subst h; simp only [wordBytes]; omega
theorem saddi (d : BitVec 6) (a : BitVec 6) (i : BitVec 10) : Statement (.saddi d a i) := by
  intro w h; simp only [encodeWord, Option.some.injEq] at h; subst h; simp only [wordBytes]; omega
theorem sandi (d : BitVec 6) (a : BitVec 6) (i : BitVec 10) : Statement (.sandi d a i) := by
  intro w h; simp only [encodeWord, Option.some.injEq] at h; subst h; simp only [wordBytes]; omega
theorem sori (d : BitVec 6) (a : BitVec 6) (i : BitVec 10) : Statement (.sori d a i) := by
  intro w h; simp only [encodeWord, Option.some.injEq] at h; subst h; simp only [wordBytes]; omega
theorem sxori (d : BitVec 6) (a : BitVec 6) (i : BitVec 10) : Statement (.sxori d a i) := by
  intro w h; simp only [encodeWord, Option.some.injEq] at h; subst h; simp only [wordBytes]; omega
theorem slui (d : BitVec 6) (i : BitVec 18) : Statement (.slui d i) := by
  intro w h; simp only [encodeWord, Option.some.injEq] at h; subst h; simp only [wordBytes]; omega
theorem dly (a : BitVec 6) (i : BitVec 12) : Statement (.dly a i) := by
  intro w h; simp only [encodeWord, Option.some.injEq] at h; subst h; simp only [wordBytes]; omega
theorem srd (d : BitVec 6) (x : BitVec 6) : Statement (.srd d x) := by
  intro w h; simp only [encodeWord, Option.some.injEq] at h; subst h; simp only [wordBytes]; omega
theorem swr (a : BitVec 6) (x : BitVec 6) : Statement (.swr a x) := by
  intro w h; simp only [encodeWord, Option.some.injEq] at h; subst h; simp only [wordBytes]; omega
theorem sexec (a : BitVec 6) : Statement (.sexec a) := by
  intro w h; simp only [encodeWord, Option.some.injEq] at h; subst h; simp only [wordBytes]; omega
theorem sexecand (a : BitVec 6) : Statement (.sexecand a) := by
  intro w h; simp only [encodeWord, Option.some.injEq] at h; subst h; simp only [wordBytes]; omega
theorem sexecandn (a : BitVec 6) : Statement (.sexecandn a) := by
  intro w h; simp only [encodeWord, Option.some.injEq] at h; subst h; simp only [wordBytes]; omega
theorem sgetexec (d : BitVec 6) : Statement (.sgetexec d) := by
  intro w h; simp only [encodeWord, Option.some.injEq] at h; subst h; simp only [wordBytes]; omega
theorem fmtset (a : BitVec 6) : Statement (.fmtset a) := by
  intro w h; simp only [encodeWord, Option.some.injEq] at h; subst h; simp only [wordBytes]; omega
theorem fmtget (d : BitVec 6) : Statement (.fmtget d) := by
  intro w h; simp only [encodeWord, Option.some.injEq] at h; subst h; simp only [wordBytes]; omega
theorem jmpr (a : BitVec 6) : Statement (.jmpr a) := by
  intro w h; simp only [encodeWord, Option.some.injEq] at h; subst h; simp only [wordBytes]; omega
theorem callr (a : BitVec 6) : Statement (.callr a) := by
  intro w h; simp only [encodeWord, Option.some.injEq] at h; subst h; simp only [wordBytes]; omega
theorem trap (i : BitVec 18) : Statement (.trap i) := by
  intro w h; simp only [encodeWord, Option.some.injEq] at h; subst h; simp only [wordBytes]; omega
theorem brk (i : BitVec 18) : Statement (.brk i) := by
  intro w h; simp only [encodeWord, Option.some.injEq] at h; subst h; simp only [wordBytes]; omega
theorem launch (a : BitVec 6) (b : BitVec 6) : Statement (.launch a b) := by
  intro w h; simp only [encodeWord, Option.some.injEq] at h; subst h; simp only [wordBytes]; omega
theorem gset (g : BitVec 4) (v : BitVec 2) : Statement (.gset g v) := by
  intro w h; simp only [encodeWord, Option.some.injEq] at h; subst h; simp only [wordBytes]; omega
theorem gclr (g : BitVec 4) : Statement (.gclr g) := by
  intro w h; simp only [encodeWord, Option.some.injEq] at h; subst h; simp only [wordBytes]; omega
theorem brAlways (o : BitVec 14) : Statement (.brAlways o) := by
  intro w h; simp only [encodeWord, Option.some.injEq] at h; subst h; simp only [wordBytes]; omega
theorem brSz (a : BitVec 6) (o : BitVec 14) : Statement (.brSz a o) := by
  intro w h; simp only [encodeWord, Option.some.injEq] at h; subst h; simp only [wordBytes]; omega
theorem brSnz (a : BitVec 6) (o : BitVec 14) : Statement (.brSnz a o) := by
  intro w h; simp only [encodeWord, Option.some.injEq] at h; subst h; simp only [wordBytes]; omega
theorem brSneg (a : BitVec 6) (o : BitVec 14) : Statement (.brSneg a o) := by
  intro w h; simp only [encodeWord, Option.some.injEq] at h; subst h; simp only [wordBytes]; omega
theorem brSnneg (a : BitVec 6) (o : BitVec 14) : Statement (.brSnneg a o) := by
  intro w h; simp only [encodeWord, Option.some.injEq] at h; subst h; simp only [wordBytes]; omega
theorem brExecz (o : BitVec 14) : Statement (.brExecz o) := by
  intro w h; simp only [encodeWord, Option.some.injEq] at h; subst h; simp only [wordBytes]; omega
theorem brExecnz (o : BitVec 14) : Statement (.brExecnz o) := by
  intro w h; simp only [encodeWord, Option.some.injEq] at h; subst h; simp only [wordBytes]; omega
theorem brExecall (o : BitVec 14) : Statement (.brExecall o) := by
  intro w h; simp only [encodeWord, Option.some.injEq] at h; subst h; simp only [wordBytes]; omega
theorem dbr (a : BitVec 6) (o : BitVec 14) : Statement (.dbr a o) := by
  intro w h; simp only [encodeWord, Option.some.injEq] at h; subst h; simp only [wordBytes]; omega
theorem dbrT (a : BitVec 6) (o : BitVec 14) : Statement (.dbrT a o) := by
  intro w h; simp only [encodeWord, Option.some.injEq] at h; subst h; simp only [wordBytes]; omega
theorem call (o : BitVec 24) : Statement (.call o) := by
  intro w h; simp only [encodeWord, Option.some.injEq] at h; subst h; simp only [wordBytes]; omega
theorem loop (a : BitVec 6) (i : BitVec 8) (e : BitVec 10) : Statement (.loop a i e) := by
  intro w h; simp only [encodeWord, Option.some.injEq] at h; subst h; simp only [wordBytes]; omega
theorem ld (d : BitVec 7) (b : BitVec 3) (o : BitVec 7) (w : BitVec 3) (h : BitVec 3) (x : BitVec 1) : Statement (.ld d b o w h x) := by
  intro w h; simp only [encodeWord, Option.some.injEq] at h; subst h; simp only [wordBytes]; omega
theorem st (d : BitVec 7) (b : BitVec 3) (o : BitVec 7) (w : BitVec 3) (h : BitVec 3) : Statement (.st d b o w h) := by
  intro w h; simp only [encodeWord, Option.some.injEq] at h; subst h; simp only [wordBytes]; omega
theorem atomAdd (d : BitVec 7) (b : BitVec 3) (o : BitVec 7) (s : BitVec 3) : Statement (.atomAdd d b o s) := by
  intro w h; simp only [encodeWord, Option.some.injEq] at h; subst h; simp only [wordBytes]; omega
theorem atomMinS (d : BitVec 7) (b : BitVec 3) (o : BitVec 7) (s : BitVec 3) : Statement (.atomMinS d b o s) := by
  intro w h; simp only [encodeWord, Option.some.injEq] at h; subst h; simp only [wordBytes]; omega
theorem atomMaxS (d : BitVec 7) (b : BitVec 3) (o : BitVec 7) (s : BitVec 3) : Statement (.atomMaxS d b o s) := by
  intro w h; simp only [encodeWord, Option.some.injEq] at h; subst h; simp only [wordBytes]; omega
theorem atomMinZ (d : BitVec 7) (b : BitVec 3) (o : BitVec 7) (s : BitVec 3) : Statement (.atomMinZ d b o s) := by
  intro w h; simp only [encodeWord, Option.some.injEq] at h; subst h; simp only [wordBytes]; omega
theorem atomMaxZ (d : BitVec 7) (b : BitVec 3) (o : BitVec 7) (s : BitVec 3) : Statement (.atomMaxZ d b o s) := by
  intro w h; simp only [encodeWord, Option.some.injEq] at h; subst h; simp only [wordBytes]; omega
theorem atomAnd (d : BitVec 7) (b : BitVec 3) (o : BitVec 7) (s : BitVec 3) : Statement (.atomAnd d b o s) := by
  intro w h; simp only [encodeWord, Option.some.injEq] at h; subst h; simp only [wordBytes]; omega
theorem atomOr (d : BitVec 7) (b : BitVec 3) (o : BitVec 7) (s : BitVec 3) : Statement (.atomOr d b o s) := by
  intro w h; simp only [encodeWord, Option.some.injEq] at h; subst h; simp only [wordBytes]; omega
theorem atomXor (d : BitVec 7) (b : BitVec 3) (o : BitVec 7) (s : BitVec 3) : Statement (.atomXor d b o s) := by
  intro w h; simp only [encodeWord, Option.some.injEq] at h; subst h; simp only [wordBytes]; omega
theorem atomXchg (d : BitVec 7) (b : BitVec 3) (o : BitVec 7) (s : BitVec 3) : Statement (.atomXchg d b o s) := by
  intro w h; simp only [encodeWord, Option.some.injEq] at h; subst h; simp only [wordBytes]; omega
theorem atomCas (d : BitVec 7) (b : BitVec 3) (o : BitVec 7) (s : BitVec 3) : Statement (.atomCas d b o s) := by
  intro w h; simp only [encodeWord, Option.some.injEq] at h; subst h; simp only [wordBytes]; omega
theorem atomAddF (d : BitVec 7) (b : BitVec 3) (o : BitVec 7) (s : BitVec 3) : Statement (.atomAddF d b o s) := by
  intro w h; simp only [encodeWord, Option.some.injEq] at h; subst h; simp only [wordBytes]; omega
theorem atomMaxF (d : BitVec 7) (b : BitVec 3) (o : BitVec 7) (s : BitVec 3) : Statement (.atomMaxF d b o s) := by
  intro w h; simp only [encodeWord, Option.some.injEq] at h; subst h; simp only [wordBytes]; omega
theorem atomMinF (d : BitVec 7) (b : BitVec 3) (o : BitVec 7) (s : BitVec 3) : Statement (.atomMinF d b o s) := by
  intro w h; simp only [encodeWord, Option.some.injEq] at h; subst h; simp only [wordBytes]; omega
theorem sld (d : BitVec 6) (b : BitVec 3) (i : BitVec 12) : Statement (.sld d b i) := by
  intro w h; simp only [encodeWord, Option.some.injEq] at h; subst h; simp only [wordBytes]; omega
theorem sld64 (d : BitVec 6) (b : BitVec 3) (i : BitVec 12) : Statement (.sld64 d b i) := by
  intro w h; simp only [encodeWord, Option.some.injEq] at h; subst h; simp only [wordBytes]; omega
theorem sst (d : BitVec 6) (b : BitVec 3) (i : BitVec 12) : Statement (.sst d b i) := by
  intro w h; simp only [encodeWord, Option.some.injEq] at h; subst h; simp only [wordBytes]; omega
theorem sst64 (d : BitVec 6) (b : BitVec 3) (i : BitVec 12) : Statement (.sst64 d b i) := by
  intro w h; simp only [encodeWord, Option.some.injEq] at h; subst h; simp only [wordBytes]; omega
theorem satadd (d : BitVec 6) (b : BitVec 3) (i : BitVec 12) : Statement (.satadd d b i) := by
  intro w h; simp only [encodeWord, Option.some.injEq] at h; subst h; simp only [wordBytes]; omega
theorem satcas (d : BitVec 6) (b : BitVec 3) (i : BitVec 12) : Statement (.satcas d b i) := by
  intro w h; simp only [encodeWord, Option.some.injEq] at h; subst h; simp only [wordBytes]; omega
theorem spollne (d : BitVec 6) (b : BitVec 3) (i : BitVec 12) : Statement (.spollne d b i) := by
  intro w h; simp only [encodeWord, Option.some.injEq] at h; subst h; simp only [wordBytes]; omega
theorem sldacq (d : BitVec 6) (b : BitVec 3) (i : BitVec 12) : Statement (.sldacq d b i) := by
  intro w h; simp only [encodeWord, Option.some.injEq] at h; subst h; simp only [wordBytes]; omega
theorem spld (d : BitVec 7) (a : BitVec 7) (i : BitVec 6) : Statement (.spld d a i) := by
  intro w h; simp only [encodeWord, Option.some.injEq] at h; subst h; simp only [wordBytes]; omega
theorem spldq (d : BitVec 7) (a : BitVec 7) (i : BitVec 6) : Statement (.spldq d a i) := by
  intro w h; simp only [encodeWord, Option.some.injEq] at h; subst h; simp only [wordBytes]; omega
theorem spst (d : BitVec 7) (a : BitVec 7) (i : BitVec 6) : Statement (.spst d a i) := by
  intro w h; simp only [encodeWord, Option.some.injEq] at h; subst h; simp only [wordBytes]; omega
theorem spstq (d : BitVec 7) (a : BitVec 7) (i : BitVec 6) : Statement (.spstq d a i) := by
  intro w h; simp only [encodeWord, Option.some.injEq] at h; subst h; simp only [wordBytes]; omega
theorem vtaglk (d : BitVec 7) (a : BitVec 7) (i : BitVec 6) : Statement (.vtaglk d a i) := by
  intro w h; simp only [encodeWord, Option.some.injEq] at h; subst h; simp only [wordBytes]; omega
theorem tagset (d : BitVec 7) (a : BitVec 7) (i : BitVec 6) : Statement (.tagset d a i) := by
  intro w h; simp only [encodeWord, Option.some.injEq] at h; subst h; simp only [wordBytes]; omega
theorem tagclr (d : BitVec 7) (a : BitVec 7) (i : BitVec 6) : Statement (.tagclr d a i) := by
  intro w h; simp only [encodeWord, Option.some.injEq] at h; subst h; simp only [wordBytes]; omega
theorem spatadd (d : BitVec 7) (a : BitVec 7) (i : BitVec 6) : Statement (.spatadd d a i) := by
  intro w h; simp only [encodeWord, Option.some.injEq] at h; subst h; simp only [wordBytes]; omega
theorem spataddF (d : BitVec 7) (a : BitVec 7) (i : BitVec 6) : Statement (.spataddF d a i) := by
  intro w h; simp only [encodeWord, Option.some.injEq] at h; subst h; simp only [wordBytes]; omega
theorem fence (s : BitVec 3) (k : BitVec 2) : Statement (.fence s k) := by
  intro w h; simp only [encodeWord, Option.some.injEq] at h; subst h; simp only [wordBytes]; omega
theorem bara (b : BitVec 4) : Statement (.bara b) := by
  intro w h; simp only [encodeWord, Option.some.injEq] at h; subst h; simp only [wordBytes]; omega
theorem barw (b : BitVec 4) : Statement (.barw b) := by
  intro w h; simp only [encodeWord, Option.some.injEq] at h; subst h; simp only [wordBytes]; omega
theorem bars (b : BitVec 4) : Statement (.bars b) := by
  intro w h; simp only [encodeWord, Option.some.injEq] at h; subst h; simp only [wordBytes]; omega
theorem gbar (g : BitVec 2) : Statement (.gbar g) := by
  intro w h; simp only [encodeWord, Option.some.injEq] at h; subst h; simp only [wordBytes]; omega
theorem waitcnt (p : BitVec 3) (a : BitVec 6) : Statement (.waitcnt p a) := by
  intro w h; simp only [encodeWord, Option.some.injEq] at h; subst h; simp only [wordBytes]; omega
theorem waitk (k : BitVec 3) : Statement (.waitk k) := by
  intro w h; simp only [encodeWord, Option.some.injEq] at h; subst h; simp only [wordBytes]; omega
theorem xlate (b : BitVec 3) (a : BitVec 6) : Statement (.xlate b a) := by
  intro w h; simp only [encodeWord, Option.some.injEq] at h; subst h; simp only [wordBytes]; omega
theorem xinv (b : BitVec 3) : Statement (.xinv b) := by
  intro w h; simp only [encodeWord, Option.some.injEq] at h; subst h; simp only [wordBytes]; omega
theorem bari (b : BitVec 4) (a : BitVec 6) : Statement (.bari b a) := by
  intro w h; simp only [encodeWord, Option.some.injEq] at h; subst h; simp only [wordBytes]; omega
theorem qbind (q : BitVec 4) (n : BitVec 2) (d : BitVec 6) : Statement (.qbind q n d) := by
  intro w h; simp only [encodeWord, Option.some.injEq] at h; subst h; simp only [wordBytes]; omega
theorem qget (q : BitVec 4) (r : BitVec 7) (n : BitVec 2) : Statement (.qget q r n) := by
  intro w h; simp only [encodeWord, Option.some.injEq] at h; subst h; simp only [wordBytes]; omega
theorem qput (q : BitVec 4) (r : BitVec 7) (n : BitVec 2) : Statement (.qput q r n) := by
  intro w h; simp only [encodeWord, Option.some.injEq] at h; subst h; simp only [wordBytes]; omega
theorem qtry (q : BitVec 4) (r : BitVec 7) (n : BitVec 2) (d : BitVec 6) : Statement (.qtry q r n d) := by
  intro w h; simp only [encodeWord, Option.some.injEq] at h; subst h; simp only [wordBytes]; omega
theorem qtryp (q : BitVec 4) (r : BitVec 7) (n : BitVec 2) (d : BitVec 6) : Statement (.qtryp q r n d) := by
  intro w h; simp only [encodeWord, Option.some.injEq] at h; subst h; simp only [wordBytes]; omega
theorem qstat (q : BitVec 4) (d : BitVec 6) : Statement (.qstat q d) := by
  intro w h; simp only [encodeWord, Option.some.injEq] at h; subst h; simp only [wordBytes]; omega
theorem qunbind (q : BitVec 4) : Statement (.qunbind q) := by
  intro w h; simp only [encodeWord, Option.some.injEq] at h; subst h; simp only [wordBytes]; omega
theorem cpy (k : BitVec 3) (b : BitVec 3) (a : BitVec 6) (g : BitVec 4) (v : BitVec 1) : Statement (.cpy k b a g v) := by
  intro w h; simp only [encodeWord, Option.some.injEq] at h; subst h; simp only [wordBytes]; omega
theorem kstat (k : BitVec 3) (a : BitVec 6) : Statement (.kstat k a) := by
  intro w h; simp only [encodeWord, Option.some.injEq] at h; subst h; simp only [wordBytes]; omega
theorem kbytes (k : BitVec 3) (a : BitVec 6) : Statement (.kbytes k a) := by
  intro w h; simp only [encodeWord, Option.some.injEq] at h; subst h; simp only [wordBytes]; omega
theorem kclr (k : BitVec 3) : Statement (.kclr k) := by
  intro w h; simp only [encodeWord, Option.some.injEq] at h; subst h; simp only [wordBytes]; omega
theorem kreplay (k : BitVec 3) : Statement (.kreplay k) := by
  intro w h; simp only [encodeWord, Option.some.injEq] at h; subst h; simp only [wordBytes]; omega
theorem pld (p : BitVec 3) (v : BitVec 7) (o : BitVec 7) : Statement (.pld p v o) := by
  intro w h; simp only [encodeWord, Option.some.injEq] at h; subst h; simp only [wordBytes]; omega
theorem pst (p : BitVec 3) (v : BitVec 7) (o : BitVec 7) : Statement (.pst p v o) := by
  intro w h; simp only [encodeWord, Option.some.injEq] at h; subst h; simp only [wordBytes]; omega
theorem pstep (p : BitVec 3) : Statement (.pstep p) := by
  intro w h; simp only [encodeWord, Option.some.injEq] at h; subst h; simp only [wordBytes]; omega
theorem pqry (p : BitVec 3) (v : BitVec 7) (o : BitVec 7) : Statement (.pqry p v o) := by
  intro w h; simp only [encodeWord, Option.some.injEq] at h; subst h; simp only [wordBytes]; omega
theorem mma (t : BitVec 4) (a : BitVec 8) (b : BitVec 8) : Statement (.mma t a b) := by
  intro w h; simp only [encodeWord, Option.some.injEq] at h; subst h; simp only [wordBytes]; omega
theorem mzero (t : BitVec 4) : Statement (.mzero t) := by
  intro w h; simp only [encodeWord, Option.some.injEq] at h; subst h; simp only [wordBytes]; omega
theorem mwaitb (b : BitVec 4) : Statement (.mwaitb b) := by
  intro w h; simp only [encodeWord, Option.some.injEq] at h; subst h; simp only [wordBytes]; omega
theorem msigb (b : BitVec 4) : Statement (.msigb b) := by
  intro w h; simp only [encodeWord, Option.some.injEq] at h; subst h; simp only [wordBytes]; omega
theorem mloop (c : BitVec 8) (e : BitVec 12) : Statement (.mloop c e) := by
  intro w h; simp only [encodeWord, Option.some.injEq] at h; subst h; simp only [wordBytes]; omega
theorem mfmt (g : BitVec 8) : Statement (.mfmt g) := by
  intro w h; simp only [encodeWord, Option.some.injEq] at h; subst h; simp only [wordBytes]; omega
theorem accrd (t : BitVec 4) (v : BitVec 7) (r : BitVec 5) : Statement (.accrd t v r) := by
  intro w h; simp only [encodeWord, Option.some.injEq] at h; subst h; simp only [wordBytes]; omega
theorem accwr (t : BitVec 4) (v : BitVec 7) (r : BitVec 5) : Statement (.accwr t v r) := by
  intro w h; simp only [encodeWord, Option.some.injEq] at h; subst h; simp only [wordBytes]; omega
theorem accrdc (t : BitVec 4) (v : BitVec 7) (r : BitVec 5) : Statement (.accrdc t v r) := by
  intro w h; simp only [encodeWord, Option.some.injEq] at h; subst h; simp only [wordBytes]; omega
theorem ext (x : BitVec 24) (w2 : Word) : Statement (.ext x w2) := by
  intro w h; simp only [encodeWord, Option.some.injEq] at h; subst h; simp only [wordBytes]; omega
theorem vmov (d : BitVec 6) (a : BitVec 5) : Statement (.vmov d a) := by
  intro w h; simp only [encodeWord, Option.some.injEq] at h; subst h; simp only [wordBytes]; omega
theorem vaddI16 (d : BitVec 6) (a : BitVec 5) : Statement (.vaddI16 d a) := by
  intro w h; simp only [encodeWord, Option.some.injEq] at h; subst h; simp only [wordBytes]; omega
theorem vsubI16 (d : BitVec 6) (a : BitVec 5) : Statement (.vsubI16 d a) := by
  intro w h; simp only [encodeWord, Option.some.injEq] at h; subst h; simp only [wordBytes]; omega
theorem vand16 (d : BitVec 6) (a : BitVec 5) : Statement (.vand16 d a) := by
  intro w h; simp only [encodeWord, Option.some.injEq] at h; subst h; simp only [wordBytes]; omega
theorem vor16 (d : BitVec 6) (a : BitVec 5) : Statement (.vor16 d a) := by
  intro w h; simp only [encodeWord, Option.some.injEq] at h; subst h; simp only [wordBytes]; omega
theorem vxor16 (d : BitVec 6) (a : BitVec 5) : Statement (.vxor16 d a) := by
  intro w h; simp only [encodeWord, Option.some.injEq] at h; subst h; simp only [wordBytes]; omega
theorem vshl16 (d : BitVec 6) (a : BitVec 5) : Statement (.vshl16 d a) := by
  intro w h; simp only [encodeWord, Option.some.injEq] at h; subst h; simp only [wordBytes]; omega
theorem vshrz16 (d : BitVec 6) (a : BitVec 5) : Statement (.vshrz16 d a) := by
  intro w h; simp only [encodeWord, Option.some.injEq] at h; subst h; simp only [wordBytes]; omega
theorem vaddF16 (d : BitVec 6) (a : BitVec 5) : Statement (.vaddF16 d a) := by
  intro w h; simp only [encodeWord, Option.some.injEq] at h; subst h; simp only [wordBytes]; omega
theorem vsubF16 (d : BitVec 6) (a : BitVec 5) : Statement (.vsubF16 d a) := by
  intro w h; simp only [encodeWord, Option.some.injEq] at h; subst h; simp only [wordBytes]; omega
theorem vmulF16 (d : BitVec 6) (a : BitVec 5) : Statement (.vmulF16 d a) := by
  intro w h; simp only [encodeWord, Option.some.injEq] at h; subst h; simp only [wordBytes]; omega
theorem vmaxF16 (d : BitVec 6) (a : BitVec 5) : Statement (.vmaxF16 d a) := by
  intro w h; simp only [encodeWord, Option.some.injEq] at h; subst h; simp only [wordBytes]; omega
theorem vminF16 (d : BitVec 6) (a : BitVec 5) : Statement (.vminF16 d a) := by
  intro w h; simp only [encodeWord, Option.some.injEq] at h; subst h; simp only [wordBytes]; omega
theorem vmullo16 (d : BitVec 6) (a : BitVec 5) : Statement (.vmullo16 d a) := by
  intro w h; simp only [encodeWord, Option.some.injEq] at h; subst h; simp only [wordBytes]; omega
theorem vshrs16 (d : BitVec 6) (a : BitVec 5) : Statement (.vshrs16 d a) := by
  intro w h; simp only [encodeWord, Option.some.injEq] at h; subst h; simp only [wordBytes]; omega
theorem vnot16 (d : BitVec 6) (a : BitVec 5) : Statement (.vnot16 d a) := by
  intro w h; simp only [encodeWord, Option.some.injEq] at h; subst h; simp only [wordBytes]; omega
theorem nop : Statement (.nop) := by
  intro w h; simp only [encodeWord, Option.some.injEq] at h; subst h; simp only [wordBytes]; decide
theorem join : Statement (.join) := by
  intro w h; simp only [encodeWord, Option.some.injEq] at h; subst h; simp only [wordBytes]; decide
theorem ret : Statement (.ret) := by
  intro w h; simp only [encodeWord, Option.some.injEq] at h; subst h; simp only [wordBytes]; decide
theorem endI : Statement (.endI) := by
  intro w h; simp only [encodeWord, Option.some.injEq] at h; subst h; simp only [wordBytes]; decide
theorem commit : Statement (.commit) := by
  intro w h; simp only [encodeWord, Option.some.injEq] at h; subst h; simp only [wordBytes]; decide
theorem eret : Statement (.eret) := by
  intro w h; simp only [encodeWord, Option.some.injEq] at h; subst h; simp only [wordBytes]; decide
theorem yield : Statement (.yield) := by
  intro w h; simp only [encodeWord, Option.some.injEq] at h; subst h; simp only [wordBytes]; decide
theorem backoff : Statement (.backoff) := by
  intro w h; simp only [encodeWord, Option.some.injEq] at h; subst h; simp only [wordBytes]; decide
theorem fpost : Statement (.fpost) := by
  intro w h; simp only [encodeWord, Option.some.injEq] at h; subst h; simp only [wordBytes]; decide
theorem mend : Statement (.mend) := by
  intro w h; simp only [encodeWord, Option.some.injEq] at h; subst h; simp only [wordBytes]; decide
theorem mnop : Statement (.mnop) := by
  intro w h; simp only [encodeWord, Option.some.injEq] at h; subst h; simp only [wordBytes]; decide
theorem checkPhaseEnd : Statement (.checkPhaseEnd) := by
  intro w h; cases h
theorem xlateFillEnd : Statement (.xlateFillEnd) := by
  intro w h; cases h
theorem icacheFill : Statement (.icacheFill) := by
  intro w h; cases h
theorem perform : Statement (.perform) := by
  intro w h; cases h
theorem read : Statement (.read) := by
  intro w h; cases h
theorem atomic : Statement (.atomic) := by
  intro w h; cases h
theorem fill : Statement (.fill) := by
  intro w h; cases h
theorem evict : Statement (.evict) := by
  intro w h; cases h
theorem pop : Statement (.pop) := by
  intro w h; cases h
theorem linkEntryReady : Statement (.linkEntryReady) := by
  intro w h; cases h
theorem spollneWindowEnd : Statement (.spollneWindowEnd) := by
  intro w h; cases h
theorem spollneReread : Statement (.spollneReread) := by
  intro w h; cases h
theorem dlyEnd : Statement (.dlyEnd) := by
  intro w h; cases h
theorem yieldEnd : Statement (.yieldEnd) := by
  intro w h; cases h
theorem groupEnd : Statement (.groupEnd) := by
  intro w h; cases h
theorem barrierOpen : Statement (.barrierOpen) := by
  intro w h; cases h
theorem barrierWave : Statement (.barrierWave) := by
  intro w h; cases h
theorem gbarDieArrival : Statement (.gbarDieArrival) := by
  intro w h; cases h
theorem gbarRelease : Statement (.gbarRelease) := by
  intro w h; cases h
theorem swap : Statement (.swap) := by
  intro w h; cases h
theorem heldEntryRelease : Statement (.heldEntryRelease) := by
  intro w h; cases h
theorem reorderRelease : Statement (.reorderRelease) := by
  intro w h; cases h
theorem jobStart : Statement (.jobStart) := by
  intro w h; cases h
theorem jobRead : Statement (.jobRead) := by
  intro w h; cases h
theorem jobWrite : Statement (.jobWrite) := by
  intro w h; cases h
theorem jobEnd : Statement (.jobEnd) := by
  intro w h; cases h
theorem mmaRetire : Statement (.mmaRetire) := by
  intro w h; cases h
theorem leaseEnd : Statement (.leaseEnd) := by
  intro w h; cases h
theorem ticketClaim : Statement (.ticketClaim) := by
  intro w h; cases h
theorem teamStart : Statement (.teamStart) := by
  intro w h; cases h
theorem teamRetire : Statement (.teamRetire) := by
  intro w h; cases h
theorem expertFire : Statement (.expertFire) := by
  intro w h; cases h
theorem expertAgeLimit : Statement (.expertAgeLimit) := by
  intro w h; cases h
theorem fpostResume : Statement (.fpostResume) := by
  intro w h; cases h
theorem parkReplay : Statement (.parkReplay) := by
  intro w h; cases h
theorem faultBatchAge : Statement (.faultBatchAge) := by
  intro w h; cases h
theorem faultTimeout : Statement (.faultTimeout) := by
  intro w h; cases h
theorem hostAbsence : Statement (.hostAbsence) := by
  intro w h; cases h
theorem firstTouchRequest : Statement (.firstTouchRequest) := by
  intro w h; cases h
theorem firstTouchStatus : Statement (.firstTouchStatus) := by
  intro w h; cases h
theorem capture : Statement (.capture) := by
  intro w h; cases h
theorem notifyHoldExpiry : Statement (.notifyHoldExpiry) := by
  intro w h; cases h
theorem msixUnmask : Statement (.msixUnmask) := by
  intro w h; cases h
theorem notifyConsWrite : Statement (.notifyConsWrite) := by
  intro w h; cases h
theorem faultRingConsWrite : Statement (.faultRingConsWrite) := by
  intro w h; cases h
theorem ncountWrite : Statement (.ncountWrite) := by
  intro w h; cases h
theorem nholdWrite : Statement (.nholdWrite) := by
  intro w h; cases h
theorem registerWrite : Statement (.registerWrite) := by
  intro w h; cases h
theorem contextAdmit : Statement (.contextAdmit) := by
  intro w h; cases h
theorem contextAllocate : Statement (.contextAllocate) := by
  intro w h; cases h
theorem contextBind : Statement (.contextBind) := by
  intro w h; cases h
theorem contextDelete : Statement (.contextDelete) := by
  intro w h; cases h
theorem mappingPageApply : Statement (.mappingPageApply) := by
  intro w h; cases h
theorem mappingPageRelease : Statement (.mappingPageRelease) := by
  intro w h; cases h
theorem mappingPermNarrow : Statement (.mappingPermNarrow) := by
  intro w h; cases h
theorem shootdownAck : Statement (.shootdownAck) := by
  intro w h; cases h
theorem queueAdmit : Statement (.queueAdmit) := by
  intro w h; cases h
theorem handlePublish : Statement (.handlePublish) := by
  intro w h; cases h
theorem queueOpen : Statement (.queueOpen) := by
  intro w h; cases h
theorem queueClose : Statement (.queueClose) := by
  intro w h; cases h
theorem queueRelease : Statement (.queueRelease) := by
  intro w h; cases h
theorem queueEndAdmission : Statement (.queueEndAdmission) := by
  intro w h; cases h
theorem expertQueueDelete : Statement (.expertQueueDelete) := by
  intro w h; cases h
theorem linkAdmit : Statement (.linkAdmit) := by
  intro w h; cases h
theorem linkConnect : Statement (.linkConnect) := by
  intro w h; cases h
theorem programAdmit : Statement (.programAdmit) := by
  intro w h; cases h
theorem selectVariant : Statement (.selectVariant) := by
  intro w h; cases h
theorem loadImage : Statement (.loadImage) := by
  intro w h; cases h
theorem bindQueues : Statement (.bindQueues) := by
  intro w h; cases h
theorem programLaunch : Statement (.programLaunch) := by
  intro w h; cases h
theorem chainMove : Statement (.chainMove) := by
  intro w h; cases h
theorem chainMoveDone : Statement (.chainMoveDone) := by
  intro w h; cases h
theorem pauseStep : Statement (.pauseStep) := by
  intro w h; cases h
theorem unpauseStep : Statement (.unpauseStep) := by
  intro w h; cases h
theorem preempt : Statement (.preempt) := by
  intro w h; cases h
theorem teamResume : Statement (.teamResume) := by
  intro w h; cases h
theorem migrationCycle : Statement (.migrationCycle) := by
  intro w h; cases h
theorem moveDone : Statement (.moveDone) := by
  intro w h; cases h
theorem lockHoldExpiry : Statement (.lockHoldExpiry) := by
  intro w h; cases h
theorem hostWarmRestart : Statement (.hostWarmRestart) := by
  intro w h; cases h
theorem hostWrite : Statement (.hostWrite) := by
  intro w h; cases h
theorem hostRead : Statement (.hostRead) := by
  intro w h; cases h
theorem keyset : Statement (.keyset) := by
  intro w h; cases h
theorem dbgHalt : Statement (.dbgHalt) := by
  intro w h; cases h
theorem dbgRead : Statement (.dbgRead) := by
  intro w h; cases h
theorem dbgWrite : Statement (.dbgWrite) := by
  intro w h; cases h
theorem dbgStep : Statement (.dbgStep) := by
  intro w h; cases h
theorem dbgResume : Statement (.dbgResume) := by
  intro w h; cases h
theorem fwstage : Statement (.fwstage) := by
  intro w h; cases h
theorem spdmSign : Statement (.spdmSign) := by
  intro w h; cases h
theorem portLossOfLock : Statement (.portLossOfLock) := by
  intro w h; cases h
theorem linkDown : Statement (.linkDown) := by
  intro w h; cases h
theorem inboundRemoteJob : Statement (.inboundRemoteJob) := by
  intro w h; cases h
theorem inboundAccess : Statement (.inboundAccess) := by
  intro w h; cases h
theorem streamPacket : Statement (.streamPacket) := by
  intro w h; cases h
theorem streamDeadline : Statement (.streamDeadline) := by
  intro w h; cases h
theorem gleanerScrub : Statement (.gleanerScrub) := by
  intro w h; cases h
theorem trimWindowEnd : Statement (.trimWindowEnd) := by
  intro w h; cases h
theorem barendExpiry : Statement (.barendExpiry) := by
  intro w h; cases h
theorem nearThresholdEntry : Statement (.nearThresholdEntry) := by
  intro w h; cases h
theorem nearThresholdExit : Statement (.nearThresholdExit) := by
  intro w h; cases h
theorem bankDrowsy : Statement (.bankDrowsy) := by
  intro w h; cases h
theorem bankWake : Statement (.bankWake) := by
  intro w h; cases h
theorem sensorSample : Statement (.sensorSample) := by
  intro w h; cases h
theorem throttleStep : Statement (.throttleStep) := by
  intro w h; cases h
theorem droopAlarm : Statement (.droopAlarm) := by
  intro w h; cases h
theorem droopRestore : Statement (.droopRestore) := by
  intro w h; cases h
theorem firmwareException : Statement (.firmwareException) := by
  intro w h; cases h
theorem coldReset : Statement (.coldReset) := by
  intro w h; cases h
theorem powerOn : Statement (.powerOn) := by
  intro w h; cases h
theorem illegalInstruction : Statement (.illegalInstruction) := by
  intro w h; cases h
theorem writeLands : Statement (.writeLands) := by
  intro w h; cases h
theorem ptpLock : Statement (.ptpLock) := by
  intro w h; cases h
theorem ptpLockLoss : Statement (.ptpLockLoss) := by
  intro w h; cases h
theorem retrainingDone : Statement (.retrainingDone) := by
  intro w h; cases h
theorem formPolicyChoice : Statement (.formPolicyChoice) := by
  intro w h; cases h
theorem deletionStep : Statement (.deletionStep) := by
  intro w h; cases h
theorem thermalResetRelease : Statement (.thermalResetRelease) := by
  intro w h; cases h
theorem tdispRequest : Statement (.tdispRequest) := by
  intro w h; cases h

end Sys2Proof.Laws.Encodes
end

