-- ==== Sys2Proof/Laws/Steps.lean ====
section
/-!
SUPPORT. What the shared forms of a hardware step answer: a step that may be taken has its effect, and one that may not
leaves the state as it is.
-/

namespace Sys2Proof.Machine

theorem hw_takes {s t : State} {f : State → Option State} (h : f s = some t) : hw s f = .next t := by simp [hw, h]
theorem hw_stays {s : State} {f : State → Option State} (h : f s = none) : hw s f = .next s := by simp [hw, h]
/-- A hardware step always answers a next state. -/
theorem hw_next (s : State) (f : State → Option State) : hw s f = .next ((f s).getD s) := rfl

/-- What holds of a state and of the effect of a step holds of its answer. -/
theorem hw_keeps {P : State → Prop} {s t : State} {f : State → Option State} (hs : P s) (hf : ∀ u, f s = some u → P u)
    (h : hw s f = .next t) : P t := by
  rw [hw_next] at h
  injection h with h
  subst h
  cases e : f s with
  | none => exact hs
  | some u => exact hf u e

/-- The step of the record whose turn it is has its effect, and PENDING records that wait then show BLOCKED. -/
theorem harrowStep_takes {s : State} {r : Rec} {kind : Nat} (h : Turn s r kind) {fits : Rec → Bool} (hf : fits r = true)
    (f : State → Rec → State) : harrowStep s kind fits f = .next ((f (s.begun r) r.begun).showBlocked) := by
  have e : (r.slot = s.arg.a ∧ r.kind = kind ∧ fits r = true) := ⟨h.slot.symm, h.kind, hf⟩
  simp only [harrowStep, hw, h.turn, e, and_self, if_true, Option.getD_some, State.begun, Rec.begun]

/-- Every other step of the Harrow leaves the state as it is. -/
theorem harrowStep_stays {s : State} {kind : Nat} {fits : Rec → Bool} (f : State → Rec → State)
    (h : ∀ r, s.turn = some r → ¬(r.slot = s.arg.a ∧ r.kind = kind ∧ fits r = true)) : harrowStep s kind fits f = .next s := by
  simp only [harrowStep, hw]
  cases e : s.turn with
  | none => rfl
  | some r => simp [h r e]

/-- Tidying changes the issue and the arguments alone. -/
theorem tidyAnswer_next {a : Answer} {t : State} (h : tidyAnswer a = .next t) : ∃ u, a = .next u ∧ t = u.tidy := by
  cases a with
  | next u => exact ⟨u, rfl, by injection h with h; exact h.symm⟩
  | fault f => cases h
  | refused r => cases h

/-- The state that firstChange answers is that of one of its steps, and differs from the state before. -/
theorem firstChange_mem {s : State} {l : List Ev} {a : Answer} (h : s.firstChange l = some a) : ∃ e ∈ l, a = s.runEv e := by
  induction l with
  | nil => cases h
  | cons e r ih =>
    unfold State.firstChange at h
    split at h
    · rename_i t ht
      split at h
      · obtain ⟨x, hx, k⟩ := ih h
        exact ⟨x, List.mem_cons_of_mem _ hx, k⟩
      · injection h with h
        exact ⟨e, List.mem_cons_self .., h ▸ ht.symm⟩
    · injection h with h
      exact ⟨e, List.mem_cons_self .., h.symm⟩

/-- All that a word of the management core can do to the device: it leaves the core's own registers and counters drawn
from. -/
theorem mgmtStep_only (s : State) (code : List Byte) (handler : Nat) :
    ∃ g m n, (s.mgmtStep code handler).1 = { s with mgmt := g, nextId := m, freeCount := n } := by
  unfold State.mgmtStep
  dsimp only
  split
  · exact ⟨s.mgmt, s.nextId, s.freeCount, rfl⟩
  · split
    · exact ⟨s.mgmt, s.nextId, s.freeCount, rfl⟩
    · exact ⟨_, _, _, rfl⟩

theorem writeVa_canonical {s : State} (h : MemoryCanonical s) (ctx va : Nat) (bs : List Byte) : MemoryCanonical (s.writeVa ctx va bs).1 := by
  induction bs generalizing s va with
  | nil => exact h
  | cons b r ih =>
    unfold State.writeVa
    split
    · split
      · exact ih (unitStore_canonical h _ _) _
      · exact ih h _
    · exact ih h _

end Sys2Proof.Machine
end

