-- ==== Sys2Proof/Laws/Trap.lean ====
section
/-!
SUPPORT. Taking an exception and returning from one: what each of the cases leaves.
-/

namespace Sys2Proof.Machine

/-- Inside its handler a trap ends the group's context with HANDLER_TRAP (R305). -/
theorem trapEntry_inHandler {s : State} {g : Group} (h : g.inHandler = true) (code : Nat) (info epc emask : Word) (frec : Nat) (p : Bool) :
    s.trapEntry g code info epc emask frec p = (s.putGroup g.settle).endContext g.ctx 0x21 epc.toNat := by
  simp [State.trapEntry, h]

/-- A trap in a context without a handler ends it with NO_HANDLER (R305). -/
theorem trapEntry_noHandler {s : State} {g : Group} {c : Ctx} (h : g.inHandler = false) (hc : s.ctx? g.ctx = some c) (h0 : c.handler = 0)
    (code : Nat) (info epc emask : Word) (frec : Nat) (p : Bool) :
    s.trapEntry g code info epc emask frec p = (s.putGroup g.settle).endContext g.ctx 0x20 epc.toNat := by
  simp [State.trapEntry, h, hc, h0]

/-- Any other trap enters the handler: only the group changes, and it saves what R106 names. -/
theorem trapEntry_enters {s : State} {g : Group} {c : Ctx} (h : g.inHandler = false) (hc : s.ctx? g.ctx = some c) (h0 : c.handler ≠ 0)
    (code : Nat) (info epc emask : Word) (frec : Nat) (p : Bool) :
    ∃ t : Group, s.trapEntry g code info epc emask frec p = s.putGroup t
      ∧ t.gid = g.gid ∧ t.epc = epc ∧ t.ecause = (BitVec.ofNat 32 code ||| (info <<< 8)) ∧ t.emask = emask ∧ t.frec = frec
      ∧ t.exec = emask ∧ t.super = true ∧ t.pc = 0 ∧ t.path = [] ∧ t.loops = [] ∧ t.u = 0 ∧ t.depth = 0
      ∧ t.handler = some { exec := g.reissue.getD g.exec, fmt := g.fmt, path := g.path, loops := g.loops, u := g.u, depth := g.depth,
                           super := g.super, code := code, perLane := p } := by
  refine ⟨_, by simp only [State.trapEntry, h, hc, h0, Bool.false_eq_true, if_false]; rfl, ?_⟩
  simp

/-- A return after a cause that was not raised per lane restores the saved state and goes on at EPC (R107). -/
theorem eret_whole {s : State} {g : Group} {v : SavedCtx} (h : v.perLane = false) :
    ∃ t : Group, s.eret g v = s.putGroup t ∧ t.gid = g.gid ∧ t.exec = v.exec ∧ t.fmt = v.fmt ∧ t.path = v.path ∧ t.loops = v.loops
      ∧ t.u = v.u ∧ t.depth = v.depth ∧ t.super = v.super ∧ t.handler = none ∧ t.pc = g.epc ∧ t.reissue = none := by
  refine ⟨_, by simp only [State.eret, h, Bool.false_eq_true, if_false]; rfl, ?_⟩
  simp

/-- A return after a cause raised per lane issues the instruction at EPC again under EMASK (R107). -/
theorem eret_lanes {s : State} {g : Group} {v : SavedCtx} (h : v.perLane = true) (he : g.emask ≠ 0) :
    ∃ t : Group, s.eret g v = s.putGroup t ∧ t.gid = g.gid ∧ t.exec = g.emask ∧ t.reissue = some v.exec ∧ t.fmt = v.fmt ∧ t.path = v.path
      ∧ t.loops = v.loops ∧ t.u = v.u ∧ t.depth = v.depth ∧ t.super = v.super ∧ t.handler = none ∧ t.pc = g.epc := by
  refine ⟨{ g.settle with
    fmt := v.fmt, path := v.path, loops := v.loops, u := v.u, depth := v.depth, super := v.super, handler := none, park := none,
    wait := .none, pc := g.epc, exec := g.emask, reissue := some v.exec }, ?_, ?_⟩
  · have : g.settle.epc = g.epc ∧ g.settle.emask = g.emask := ⟨settle_epc g, settle_emask g⟩
    simp only [State.eret, h, if_true, this.1, this.2, ne_eq, he, not_false_eq_true]
  · simp

/-- Failing lanes that all park leave the group parked at its instruction with those lanes (R303). -/
theorem failLanes_parks {s : State} {g : Group} {fails : List LaneFail} (h : fails.all LaneFail.parkable = true) :
    s.failLanes g fails = s.parkGroup g fails := by
  simp [State.failLanes, h]

/-- Inside a handler parking leaves the supervisor registers as they are (R303). -/
theorem parkGroup_inHandler {s : State} {g : Group} (h : g.inHandler = true) (fails : List LaneFail) :
    s.parkGroup g fails = s.putGroup { g.settle with
      park := some { pc := g.pc, lanes := failMask fails, fails := fails, posted := false, since := s.clk }, wait := .none } := by
  simp [State.parkGroup, h]

end Sys2Proof.Machine
end

