-- ==== Sys2Proof/Tests/Slice0.lean ====
section
/-!
SUPPORT. Tests of the model, each on fixed values taken from the spec's tables or worked out from its rules by hand, and a
concrete state that meets the hypotheses of each statement.
-/

namespace Sys2Proof.Tests

open Sys2Proof.Machine

set_option Elab.async false
set_option maxRecDepth 40000

/-! ### Well-formedness: a term that each check refuses -/

theorem wf_loop_refuses : (Instr.loop 1 1 0).wellFormed = false := by decide
theorem wf_loop_accepts : (Instr.loop 0 255 0).wellFormed = true ∧ (Instr.loop 63 0 0).wellFormed = true := by decide
theorem wf_cpy_refuses : (Instr.cpy 0 0 0 1 0).wellFormed = false := by decide
theorem wf_cpy_accepts : (Instr.cpy 0 0 0 15 1).wellFormed = true ∧ (Instr.cpy 0 0 0 0 0).wellFormed = true := by decide
theorem wf_ext_refuses : (Instr.ext 0 0x10000).wellFormed = false := by decide
theorem wf_ext_accepts : (Instr.ext 0 0xFFFE).wellFormed = true ∧ (Instr.ext 0 0xFFFFFFFF).wellFormed = true := by decide

/-! ### Decoding: words put together field by field from Tables A.8 to A.21 -/

theorem test_decode_vi3a : decodeTableWord 32 0b111_1111111_0000001_1000000_00000_11_1 = some (.vxor 64 1 127) := by decide
theorem test_decode_vi3b : decodeTableWord 32 0b111_0000011_0000010_0000001_00001_00_1 = some (.vrotl 1 2 3) := by decide
theorem test_decode_vf3a : decodeTableWord 32 0b100_0000011_0000010_0000001_00010_00_1 = some (.vfnmaF 1 2 3) := by decide
theorem test_decode_vf3h : decodeTableWord 32 0b111_0000011_0000010_0000001_00011_01_1 = some (.vdot2Bf 1 2 3) := by decide
theorem test_decode_vcmp : decodeTableWord 32 0b1111_1111111_0000001_111111_00100_00_1 = some (.vcmpNtst 63 1 127) := by decide
theorem test_decode_vvi : decodeTableWord 32 0b111_1000000_0000010_0000001_00101_00_1 = some (.vmuli 1 2 64) := by decide
theorem test_decode_vun : decodeTableWord 32 0b0010001001_0000010_0000001_00110_00_1 = some (.vbrev 1 2) := by decide
theorem test_decode_vlane : decodeTableWord 32 0b011_0011111_0000010_0000001_00111_00_1 = some (.vshfldn 1 2 31) := by decide
theorem test_decode_vmovs : decodeTableWord 32 0b000001_11111_111111_0000111_01000_00_1 = some (.vmovsl 7 63 31) := by decide
theorem test_decode_salu : decodeTableWord 32 0b011100_000011_000010_000001_01001_00_1 = some (.ssel 1 2 3) := by decide
theorem test_decode_simm : decodeTableWord 32 0b1000000001_10_000010_000001_01010_00_1 = some (.sori 1 2 0x201) := by decide
theorem test_decode_slui : decodeTableWord 32 0b100000000000000001_000001_01011_00_1 = some (.slui 1 0x20001) := by decide
theorem test_decode_ssys : decodeTableWord 32 0b000000000000_10_0101_010110_01100_00_1 = some (.gset 5 2) := by decide
theorem test_decode_br : decodeTableWord 32 0b00000000000001_0_100_111111_01101_00_1 = some (.brSnneg 63 1) := by decide
theorem test_decode_dbr : decodeTableWord 32 0b10000000000000_000_1_000001_01110_00_1 = some (.dbrT 1 0x2000) := by decide
theorem test_decode_call : decodeTableWord 32 0b100000000000000000000001_01111_00_1 = some (.call 0x800001) := by decide
theorem test_decode_loop : decodeTableWord 32 0b0000000010_00000000_111111_10000_00_1 = some (.loop 63 0 2) := by decide
theorem test_decode_ld : decodeTableWord 32 0b1_110_001_1111111_111_0000001_10001_00_1 = some (.ld 1 7 127 1 6 1) := by decide
theorem test_decode_st : decodeTableWord 32 0b0_110_100_1111111_111_0000001_10010_00_1 = some (.st 1 7 127 4 6) := by decide
theorem test_decode_atom : decodeTableWord 32 0b100_1100_0000011_001_0000001_10011_00_1 = some (.atomMinF 1 1 3 4) := by decide
theorem test_decode_smem : decodeTableWord 32 0b100000000001_101_111_000010_10100_00_1 = some (.satcas 2 7 0x801) := by decide
theorem test_decode_spad : decodeTableWord 32 0b111111_0111_0000010_0000001_10101_00_1 = some (.spatadd 1 2 63) := by decide
theorem test_decode_sync : decodeTableWord 32 0b000000000_000011_1111_01001_10110_00_1 = some (.bari 15 3) := by decide
theorem test_decode_qreg : decodeTableWord 32 0b0_111111_10_0000001_1111_0100_10111_00_1 = some (.qtryp 15 1 2 63) := by decide
theorem test_decode_copy : decodeTableWord 32 0b0000_0_0000_000000_000_111_100_11000_00_1 = some (.kreplay 7) := by decide
theorem test_decode_plane : decodeTableWord 32 0b00000_0000010_0000001_111_01_11001_00_1 = some (.pst 7 1 2) := by decide
theorem test_decode_mstr : decodeTableWord 32 0b100000000001_10000001_0100_11100_00_1 = some (.mloop 0x81 0x801) := by decide
theorem test_decode_acc : decodeTableWord 32 0b000000_11111_0000001_1111_01_11101_00_1 = some (.accwr 15 1 31) := by decide
theorem test_decode_op16 : decodeTableWord 16 0b11111_111111_1110_0 = some (.vshrs16 63 31) := by decide
/-- R54: reserved minors and reserved bits are refused, among them the reserved words that R54 lists. -/
theorem test_decode_reserved : (decodeTableWord 32 0b011101_000011_000010_000001_01001_00_1 = none)
    ∧ decodeTableWord 32 0b1_110_100_1111111_111_0000001_10010_00_1 = none
    ∧ decodeTableWord 32 0b00000000000001_0_000_000001_01101_00_1 = none
    ∧ decodeTableWord 32 0b00000000000001_1_001_000001_01101_00_1 = none
    ∧ decodeTableWord 32 0b0000000010_00000001_000001_10000_00_1 = none
    ∧ decodeTableWord 32 0b0000_0_0001_000001_000_000_000_11000_00_1 = none
    ∧ decodeTableWord 32 0b00000_0000000_0000001_000_10_11001_00_1 = none
    ∧ decodeTableWord 32 0b101_0000001_0000010_0000001_00111_00_1 = none
    ∧ decodeTableWord 32 0b000010_00001_000000_0000001_01000_00_1 = none
    ∧ decodeTableWord 32 0b000000000000_00000000_0111_11100_01_1 = none := by decide
/-- The bytes of an encoding, low byte first (R43), with its stall count (R47). -/
theorem test_encode : encode 2 (.vmulF 2 0 1) = [0x15, 0x02, 0x40, 0x40] ∧ encode 0 (.vmov 1 31) = [0x20, 0xF8] := by decide

/-! ### One instruction of a group -/

/-- An issue by group 2. -/
def tIssue : Issue := { who := .group 2, sc := 0, len := 4, ext := none }

/-- A device with one team of one group, which issues. -/
def at_ (g : Group) : State :=
  { State.reset with
    issue := some tIssue, groups := [g], teams := [wordTeam false], ctxs := [wordCtx], pages := [wordPage] }

theorem issues_at {g : Group} (h : g.gid = 2) (p : g.pend = []) : Issues (at_ g) tIssue g := by
  refine ⟨rfl, congrArg Who.group h.symm, ?_, ?_⟩
  · show [g].find? _ = some g
    simp
  · have e : (at_ g).team? g.tid = some (wordTeam false) ∨ (at_ g).team? g.tid = none := by
      show [wordTeam false].find? _ = _ ∨ [wordTeam false].find? _ = _
      rw [List.find?_cons]
      split
      · exact .inl rfl
      · exact .inr rfl
    have n : (at_ g).streamOf g = none := by rcases e with e | e <;> simp only [State.streamOf, e] <;> rfl
    simp only [State.duePend, p, n]; split <;> rfl

/-- Whether a group may use the registers of an instruction, as a decision. -/
def usableB (g : Group) (u : Uses) : Bool :=
  u.vN.all (fun r => decide (r < g.v.length)) && (!g.fold || u.sN.all fun r => decide (r ≤ 15))
    && (!g.schk || u.vR.all (fun r => !g.busyV r) && u.sR.all fun r => !g.busyS r)

theorem usable_of {g : Group} {u : Uses} (h : usableB g u = true) : Usable g u := by
  simp only [usableB, Bool.and_eq_true, Bool.or_eq_true, List.all_eq_true, Bool.not_eq_true', decide_eq_true_eq] at h
  obtain ⟨⟨hv, hf⟩, hs⟩ := h
  refine ⟨hv, fun k r hr => ?_, fun k r hr => ?_, fun k r hr => ?_⟩
  · rcases hf with hf | hf
    · simp [k] at hf
    · exact hf r hr
  · rcases hs with hs | hs
    · simp [k] at hs
    · exact hs.1 r hr
  · rcases hs with hs | hs
    · simp [k] at hs
    · exact hs.2 r hr

/-- The group as an instruction leaves it, its results landed. -/
def ran (g : Group) (i : Instr) : Group :=
  match exec i (at_ g) with
  | .next t => ((t.group? 2).map fun h => h.landDue 1000).getD g
  | _ => g

/-- The cause with which an instruction ends a context that has no handler (R105). -/
def endsWith (g : Group) (i : Instr) : Nat :=
  match exec i (at_ g) with
  | .next t => ((t.ctx? 0).map Ctx.endCode).getD 0
  | _ => 0

/-- A group with some scalar registers, the checking scoreboard on, and a write to v9 that has not landed. -/
def scalars (l : List (Nat × Word)) : Group :=
  { wordGroup with s := l.foldl (fun s e => s.set e.1 e.2) wordGroup.s, schk := true, landing := [⟨false, 9, 1, [], 8⟩] }

/-- A group with vector registers of one value each, of which lanes 0 and 31 are in exec. -/
def vectors (l : List (Nat × Word)) : Group :=
  { wordGroup with v := l.foldl (fun v e => v.set e.1 (List.replicate 32 e.2)) wordGroup.v, exec := 0x80000001 }

/-! ### Scalar results (Tables A.38 and A.23) -/

def sGroup : Group := scalars [(1, 0xFFFFFFFF), (2, 5), (6, 0xFFFFFFFF), (7, 1), (8, 1)]
def sRes (i : Instr) : Word := (ran sGroup i).sreg 3
def pRes (i : Instr) : BitVec 64 := (ran sGroup i).pair 4

theorem test_salu_arithmetic : [sRes (.sadd 3 1 2), sRes (.ssub 3 2 1), sRes (.smul 3 1 2), sRes (.smulhs 3 1 2),
    sRes (.smulhz 3 1 2)] = [4, 6, 0xFFFFFFFB, 0xFFFFFFFF, 4] := by decide
theorem test_salu_logic : [sRes (.sand 3 1 2), sRes (.sor 3 1 2), sRes (.sxor 3 1 2), sRes (.sandn 3 1 2), sRes (.sshl 3 1 2),
    sRes (.sshrz 3 1 2), sRes (.sshrs 3 1 2)]
    = [5, 0xFFFFFFFF, 0xFFFFFFFA, 0xFFFFFFFA, 0xFFFFFFE0, 0x07FFFFFF, 0xFFFFFFFF] := by decide
theorem test_salu_order : [sRes (.smins 3 1 2), sRes (.smaxs 3 1 2), sRes (.sminz 3 1 2), sRes (.smaxz 3 1 2), sRes (.sslts 3 1 2),
    sRes (.ssltz 3 1 2), sRes (.sseq 3 1 1)] = [0xFFFFFFFF, 5, 5, 0xFFFFFFFF, 1, 0, 1] := by decide
theorem test_salu_bits : [sRes (.spopc 3 2), sRes (.sctz 3 0), sRes (.sclz 3 2), sRes (.sbfe 3 1 2), sRes (.sbfi 3 1 2),
    sRes (.ssel 3 1 2)] = [2, 32, 29, 1, 0x20, 5] := by decide
theorem test_salu_pairs : [pRes (.sadd64 4 6 8), pRes (.ssub64 4 8 6), pRes (.sshl64 4 6 2), pRes (.sshrz64 4 6 2)]
    = [0x200000000, 0xFFFFFFFE00000002, 0x3FFFFFFFE0, 0xFFFFFFF] := by decide
theorem test_simm : [sRes (.saddi 3 2 0x3FF), sRes (.sandi 3 1 0x3FF), sRes (.sori 3 2 0x3F0), sRes (.sxori 3 2 7),
    sRes (.slui 3 1)] = [4, 0x3FF, 0x3F5, 2, 0x4000] := by decide
theorem test_s0_discards : (ran sGroup (.sadd 0 1 2)).sreg 0 = 0 := by decide
theorem test_odd_pair_traps : endsWith sGroup (.sadd64 5 6 8) = 0x20 := by decide

/-! ### Vector results -/

def vGroup : Group := vectors [(1, 0xFFFFFFFF), (2, 5), (5, 1), (6, 40)]
def fGroup : Group := vectors [(1, 0x3F800000), (2, 0x40000000), (3, 0x40400000), (4, 0xC0000000), (5, 0x40800000)]
def hGroup : Group := vectors [(1, 0x3C003C00), (2, 0x40004000), (3, 0x3C003C00), (5, 0x3F803F80), (6, 0x40004000)]
/-- Lane 31 of v3, which is in exec, and lane 1, which is not. -/
def vRes (g : Group) (i : Instr) : Word × Word := ((ran g i).vlane 3 31, (ran g i).vlane 3 1)
def mRes (g : Group) (i : Instr) : Word := (ran g i).sreg 3

theorem test_vi3a : [vRes vGroup (.vaddI 3 1 2), vRes vGroup (.vsubI 3 2 1), vRes vGroup (.vmullo 3 1 2), vRes vGroup (.vmulhiS 3 1 2),
    vRes vGroup (.vmulhiZ 3 1 2), vRes vGroup (.vand 3 1 2), vRes vGroup (.vor 3 1 2), vRes vGroup (.vxor 3 1 2)]
    = [(4, 0), (6, 0), (0xFFFFFFFB, 0), (0xFFFFFFFF, 0), (4, 0), (5, 0), (0xFFFFFFFF, 0), (0xFFFFFFFA, 0)] := by decide
theorem test_vi3b : [vRes vGroup (.vshl 3 1 6), vRes vGroup (.vshrz 3 1 6), vRes vGroup (.vshrs 3 1 6), vRes vGroup (.vminS 3 1 2),
    vRes vGroup (.vmaxS 3 1 2), vRes vGroup (.vminZ 3 1 2), vRes vGroup (.vmaxZ 3 1 2), vRes vGroup (.vrotl 3 2 6)]
    = [(0xFFFFFF00, 0), (0x00FFFFFF, 0), (0xFFFFFFFF, 0), (0xFFFFFFFF, 0), (5, 0), (5, 0), (0xFFFFFFFF, 0), (0x500, 0)] := by decide
theorem test_vvi : [vRes vGroup (.vaddi 3 2 0x7F), vRes vGroup (.vandi 3 1 0x40), vRes vGroup (.vori 3 2 2), vRes vGroup (.vxori 3 2 1),
    vRes vGroup (.vshli 3 2 31), vRes vGroup (.vshrzi 3 1 31), vRes vGroup (.vshrsi 3 1 31), vRes vGroup (.vmuli 3 2 0x7F)]
    = [(4, 0), (0xFFFFFFC0, 0), (7, 0), (4, 0), (0x80000000, 0), (1, 0), (0xFFFFFFFF, 0), (0xFFFFFFFB, 0)] := by decide
theorem test_vf3a : [vRes fGroup (.vaddF 3 1 2), vRes fGroup (.vsubF 3 1 2), vRes fGroup (.vmulF 3 1 2), vRes fGroup (.vfmaF 3 1 2),
    vRes fGroup (.vfnmaF 3 1 2), vRes fGroup (.vminF 3 1 2), vRes fGroup (.vmaxF 3 1 2), vRes fGroup (.vcpsgn 3 1 4)]
    = [(0x40400000, 0x40400000), (0xBF800000, 0x40400000), (0x40000000, 0x40400000), (0x40A00000, 0x40400000),
       (0x3F800000, 0x40400000), (0x3F800000, 0x40400000), (0x40000000, 0x40400000), (0xBF800000, 0x40400000)] := by decide
theorem test_vf3h : [vRes hGroup (.vaddH 3 1 2), vRes hGroup (.vmulH 3 1 2), vRes hGroup (.vfmaH 3 1 2), vRes hGroup (.vaddBf 3 5 6),
    vRes hGroup (.vmulBf 3 5 6)]
    = [(0x42004200, 0x3C003C00), (0x40004000, 0x3C003C00), (0x42004200, 0x3C003C00), (0x40404040, 0x3C003C00),
       (0x40004000, 0x3C003C00)] := by decide
/-- The dot products and the fused BF16 form add into vd: 1 × 2 twice into the FP32 value 3, and once into the BF16 value 1. -/
theorem test_dot : ((ran (vectors [(1, 0x3C003C00), (2, 0x40004000), (3, 0x40400000)]) (.vdot2H 3 1 2)).vlane 3 31 = 0x40E00000)
    ∧ (ran (vectors [(1, 0x3F803F80), (2, 0x40004000), (3, 0x40400000)]) (.vdot2Bf 3 1 2)).vlane 3 31 = 0x40E00000
    ∧ (ran (vectors [(1, 0x3F803F80), (2, 0x40004000), (3, 0x3F803F80)]) (.vfmaBf 3 1 2)).vlane 3 31 = 0x40404040 := by decide
theorem test_vcmp_float : [mRes fGroup (.vcmpEqF 3 1 2), mRes fGroup (.vcmpNeF 3 1 2), mRes fGroup (.vcmpLtF 3 1 2),
    mRes fGroup (.vcmpLeF 3 1 1), mRes fGroup (.vcmpGtF 3 1 2), mRes fGroup (.vcmpGeF 3 2 1), mRes fGroup (.vcmpUnF 3 1 2),
    mRes fGroup (.vcmpOrF 3 1 2)]
    = [0, 0x80000001, 0x80000001, 0x80000001, 0, 0x80000001, 0, 0x80000001] := by decide
theorem test_vcmp_integer : [mRes vGroup (.vcmpEqI 3 1 2), mRes vGroup (.vcmpNeI 3 1 2), mRes vGroup (.vcmpLtS 3 1 2),
    mRes vGroup (.vcmpLeS 3 2 1), mRes vGroup (.vcmpLtZ 3 1 2), mRes vGroup (.vcmpLeZ 3 2 1), mRes vGroup (.vcmpTst 3 1 2),
    mRes vGroup (.vcmpNtst 3 1 0)]
    = [0, 0x80000001, 0x80000001, 0, 0, 0x80000001, 0x80000001, 0x80000001] := by decide
theorem test_vun_roots : [vRes fGroup (.vrcp 3 2), vRes fGroup (.vrsq 3 5), vRes fGroup (.vsqrt 3 5)].map Prod.fst
    = [0x3F000000, 0x3F000000, 0x40000000] := by decide
theorem test_vun_sign : [vRes fGroup (.vabsF 3 4), vRes fGroup (.vnegF 3 1), vRes fGroup (.vfloor 3 4), vRes fGroup (.vfract 3 4)].map
    Prod.fst = [0x40000000, 0xBF800000, 0xC0000000, 0] := by decide
theorem test_vun_integer : [vRes vGroup (.vabsI 3 1), vRes vGroup (.vnegI 3 2), vRes vGroup (.vnot 3 2), vRes vGroup (.vpopc 3 2),
    vRes vGroup (.vclz 3 2), vRes vGroup (.vbrev 3 2)].map Prod.fst
    = [1, 0xFFFFFFFB, 0xFFFFFFFA, 2, 29, 0xA0000000] := by decide
theorem test_conversions : [vRes vGroup (.vcvtfS 3 1), vRes vGroup (.vcvtfZ 3 2), vRes fGroup (.vcvtsF 3 4), vRes fGroup (.vcvtzF 3 5)].map
    Prod.fst = [0xBF800000, 0x40A00000, 0xFFFFFFFE, 4] := by decide
/-- Lane 31 takes the lane that v6 names (40 mod 32), its neighbours, and lane 0. -/
def lGroup : Group :=
  { vectors [(6, 40)] with v := ((vectors [(6, 40)]).v.set 1 ((List.range 32).map fun l => BitVec.ofNat 32 (100 + l))) }
theorem test_vlane : [vRes lGroup (.vshfl 3 1 6), vRes lGroup (.vshflx 3 1 31), vRes lGroup (.vshflup 3 1 1), vRes lGroup (.vshfldn 3 1 1),
    vRes lGroup (.vbcast 3 1 2)] = [(108, 0), (100, 0), (130, 0), (131, 0), (102, 0)] := by decide
theorem test_vmovs : [vRes { lGroup with s := wordGroup.s.set 7 9 } (.vbcs 3 7), vRes lGroup (.vlaneid 3),
    vRes { lGroup with s := wordGroup.s.set 7 9 } (.vsetl 3 7 31)] = [(9, 0), (31, 0), (9, 0)]
    ∧ (ran lGroup (.vmovsl 1 3 5)).sreg 3 = 105 := by decide
/-- Two lanes hold 1.0; the others enter as −0, and the scan of lane 31 is the whole sum. -/
theorem test_reductions : [vRes fGroup (.vraddF 3 1), vRes fGroup (.vscanF 3 1), vRes fGroup (.vrmaxF 3 1)].map Prod.fst
    = [0x40000000, 0x40000000, 0x3F800000] := by decide
theorem test_short_forms : [vRes vGroup (.vmov 3 1), vRes vGroup (.vaddI16 3 1), vRes vGroup (.vsubI16 3 2), vRes vGroup (.vand16 3 1),
    vRes vGroup (.vor16 3 1), vRes vGroup (.vxor16 3 2), vRes vGroup (.vshl16 3 2), vRes vGroup (.vshrz16 3 2), vRes vGroup (.vmullo16 3 1),
    vRes vGroup (.vshrs16 3 2), vRes vGroup (.vnot16 3 1)].map Prod.fst
    = [0xFFFFFFFF, 0xFFFFFFFF, 0xFFFFFFFB, 0, 0xFFFFFFFF, 5, 0, 0, 0, 0, 0] := by decide
theorem test_short_floats : [vRes fGroup (.vaddF16 3 1), vRes fGroup (.vsubF16 3 1), vRes fGroup (.vmulF16 3 2), vRes fGroup (.vmaxF16 3 5),
    vRes fGroup (.vminF16 3 1)].map Prod.fst = [0x40800000, 0x40000000, 0x40C00000, 0x40800000, 0x3F800000] := by decide
theorem test_register_over_budget : endsWith { wordGroup with v := List.replicate 16 (List.replicate 32 0) } (.vaddI 3 16 2) = 0x20 := by
  decide
theorem test_exec_zero_writes_nothing : (ran { fGroup with exec := 0 } (.vcmpEqF 3 1 1)).sreg 3 = 0
    ∧ (ran { fGroup with exec := 0 } (.vaddF 3 1 2)).vlane 3 31 = 0x40400000 := by decide

/-! ### States that meet the hypotheses of the statements about registers and control -/

theorem witness_decodeOfEncode : (Instr.cpy 7 7 63 15 1).wellFormed = true ∧ (Instr.cpy 7 7 63 15 1).isWord = true := by decide
theorem witness_encodeOfDecode : decodeBytes [0x20, 0xF8, 0xFF] = .ok (.vmov 1 31) [0xFF]
    ∧ (0xFFFFFFD1 < 2 ^ 32 ∧ 0xFFFFFFD1 % 2 = 1 ∧ fld 0xFFFFFFD1 3 5 = 0x1A) ∧ fld 0xFFFFFFFF 3 5 = 0x1F ∧ fld 0xDF 3 5 = 0x1B := by
  decide
theorem witness_scalarRegisters : wordGroup.s.length = 64 ∧ (63 < 64 ∧ 0 < 64) ∧ 62 < 63 ∧ 0 < 63 := by decide
theorem witness_resultsLand : wordGroup.s.length = 64 ∧ wordGroup.landing = [] ∧ (0 < 63 ∧ 63 < 64)
    ∧ 127 < wordGroup.v.length ∧ 31 < 32 ∧ wordGroup.exec.getLsbD 31 = true ∧ (ran { wordGroup with exec := 0 } .nop).exec = 0 := by
  decide
theorem witness_scalarResults : Issues (at_ sGroup) tIssue sGroup ∧ Usable sGroup (usesS [63] [62, 61]) :=
  ⟨issues_at rfl rfl, usable_of (by decide)⟩
/-- A stage of a foldable chain has s0 to s15 (R257). -/
theorem witness_scalarResults_fold : Issues (at_ { sGroup with fold := true }) tIssue { sGroup with fold := true }
    ∧ Usable { sGroup with fold := true } (usesS [15] [15, 14]) :=
  ⟨issues_at rfl rfl, usable_of (by decide)⟩
theorem witness_scalarBitResults : Issues (at_ sGroup) tIssue sGroup ∧ Usable sGroup (usesS [63] [62])
    ∧ Usable sGroup (usesS [63] [62, 61, 63]) :=
  ⟨issues_at rfl rfl, usable_of (by decide), usable_of (by decide)⟩
theorem witness_scalarPairResults : Issues (at_ sGroup) tIssue sGroup
    ∧ Usable sGroup (usesS (pairRegs 62) (pairRegs 60 ++ pairRegs 62)) ∧ Usable sGroup (usesS (pairRegs 61) (pairRegs 60 ++ pairRegs 62))
    ∧ Usable sGroup (usesS (pairRegs 62) (pairRegs 60 ++ [63])) ∧ Usable sGroup (usesS (pairRegs 61) (pairRegs 60 ++ [63])) :=
  ⟨issues_at rfl rfl, usable_of (by decide), usable_of (by decide), usable_of (by decide), usable_of (by decide)⟩
theorem witness_scalarImmediateResults : Issues (at_ sGroup) tIssue sGroup ∧ tIssue.ext = none
    ∧ Usable sGroup (usesS [63] [62]) ∧ Usable sGroup (usesS [63] []) :=
  ⟨issues_at rfl rfl, rfl, usable_of (by decide), usable_of (by decide)⟩
/-- The five words that an EXT may widen here, at registers 63 and 62, with the largest x that SLUI takes and the next. -/
theorem witness_scalarImmediateResults_ext :
    decode32 0b1111111111_00_111110_111111_01010_00_1 = .ok (.saddi 63 62 0x3FF)
    ∧ decode32 0b1111111111_01_111110_111111_01010_00_1 = .ok (.sandi 63 62 0x3FF)
    ∧ decode32 0b1111111111_10_111110_111111_01010_00_1 = .ok (.sori 63 62 0x3FF)
    ∧ decode32 0b1111111111_11_111110_111111_01010_00_1 = .ok (.sxori 63 62 0x3FF)
    ∧ decode32 0b111111111111111111_111111_01011_00_1 = .ok (.slui 63 0x3FFFF)
    ∧ (0x3FFF#24).toNat < 2 ^ 14 ∧ ¬(0x4000#24).toNat < 2 ^ 14 :=
  ⟨rfl, rfl, rfl, rfl, rfl, by decide, by decide⟩
theorem witness_vectorIntegerResults : Issues (at_ vGroup) tIssue vGroup ∧ Usable vGroup (usesV [127] [126, 125]) :=
  ⟨issues_at rfl rfl, usable_of (by decide)⟩
theorem witness_vectorImmediateResults : Issues (at_ vGroup) tIssue vGroup ∧ Usable vGroup (usesV [127] [126]) ∧ tIssue.ext = none
    ∧ (31#7).toNat < 32 ∧ ¬(32#7).toNat < 32 :=
  ⟨issues_at rfl rfl, usable_of (by decide), rfl, by decide, by decide⟩
theorem witness_shortFormResults : Issues (at_ vGroup) tIssue vGroup ∧ Usable vGroup (usesV [63] [63, 31]) ∧ Usable vGroup (usesV [63] [31]) :=
  ⟨issues_at rfl rfl, usable_of (by decide), usable_of (by decide)⟩
theorem witness_vectorFloatResults : Issues (at_ fGroup) tIssue fGroup ∧ Usable fGroup (usesV [127] [126, 125])
    ∧ Usable fGroup (usesV [127] [127, 126, 125]) :=
  ⟨issues_at rfl rfl, usable_of (by decide), usable_of (by decide)⟩
theorem witness_compareMasks :
    (Issues (at_ fGroup) tIssue fGroup ∧ Usable fGroup { vN := [127, 126], sN := [63], vR := [127, 126], sR := [] } ∧ fGroup.exec ≠ 0)
    ∧ Issues (at_ { fGroup with exec := 0 }) tIssue { fGroup with exec := 0 } ∧ ({ fGroup with exec := 0 } : Group).exec = 0 :=
  ⟨⟨issues_at rfl rfl, usable_of (by decide), by decide⟩, issues_at rfl rfl, rfl⟩
theorem witness_oneOperandResults : Issues (at_ fGroup) tIssue fGroup ∧ Usable fGroup (usesV [127] [126]) :=
  ⟨issues_at rfl rfl, usable_of (by decide)⟩

/-- Groups whose fmt names an FP8 format on both sides (Table A.3), a code that no conversion takes, and lanes of one block. -/
def cvGroup (fmt exec : Word) : Group := { fGroup with fmt := fmt, exec := exec }
theorem witness_conversionResults :
    (Issues (at_ (cvGroup 0x303 1)) tIssue (cvGroup 0x303 1) ∧ Usable (cvGroup 0x303 1) (usesV [127] [126])
      ∧ Usable (cvGroup 0x303 1) (usesV [127] (regsFrom 124 4)) ∧ Usable (cvGroup 0x303 1) (usesV (regsFrom 124 4) [0])
      ∧ (fmtCF (cvGroup 0x303 1).fmt = 3 ∧ fmtAF (cvGroup 0x303 1).fmt = 3) ∧ fmtCF (cvGroup 0x404 1).fmt = 4 ∧ fmtCF (cvGroup 0 1).fmt ≠ 3
      ∧ cvtCode (fmtAF (cvGroup 0x303 1).fmt) = true ∧ cvtCode (fmtCF (cvGroup 0x303 1).fmt) = true ∧ cvtCode (fmtCF (cvGroup 0x500 1).fmt) = false
      ∧ Usable (cvGroup 0x303 1) (usesV (regsFrom 120 (cvtWrites 0x303)) (regsFrom 120 (cvtReads 0x303))))
    ∧ (Usable (cvGroup 0 1) (usesV [0, 1] (regsFrom 120 (bxBlocks true)))
      ∧ (blockAny true (cvGroup 0 1).exec 0 = true ∧ blockAll true (cvGroup 0 1).exec 0 = false)
      ∧ ¬∃ k, k < bxBlocks true ∧ blockAny true 0xFFFFFFFF k = true ∧ blockAll true 0xFFFFFFFF k = false)
    ∧ Usable (cvGroup 0 1) (usesV (regsFrom 120 (bxBlocks false)) (regsFrom 0 2)) := by
  refine ⟨⟨issues_at rfl rfl, usable_of (by decide), usable_of (by decide), usable_of (by decide), by decide, by decide, by decide,
    by decide, by decide, by decide, usable_of (by decide)⟩, ⟨usable_of (by decide), by decide, by decide⟩, usable_of (by decide)⟩
theorem witness_laneMoves : Issues (at_ lGroup) tIssue lGroup ∧ Usable lGroup (usesV [127] [126, 125]) ∧ Usable lGroup (usesV [127] [126])
    ∧ ((31#7).toNat ≤ 31 ∧ ¬(32#7).toNat ≤ 31) ∧ Usable lGroup { vN := [127], sN := [63], vR := [], sR := [63] }
    ∧ Usable lGroup { vN := [127], sN := [63], vR := [127], sR := [] } ∧ Usable lGroup (usesV [127] []) :=
  ⟨issues_at rfl rfl, usable_of (by decide), usable_of (by decide), by decide, usable_of (by decide), usable_of (by decide),
    usable_of (by decide)⟩

/-- Groups for each side of the branch conditions: s1 is 0, positive and negative; exec is none, some and all. -/
theorem witness_branchResults : Issues (at_ sGroup) tIssue sGroup ∧ tIssue.ext = none ∧ Usable sGroup (usesS [] [63])
    ∧ (sGroup.sreg 63 = 0 ∧ sGroup.sreg 2 ≠ 0 ∧ (sGroup.sreg 1).toInt < 0 ∧ 0 ≤ (sGroup.sreg 63).toInt)
    ∧ sGroup.exec = 0xFFFFFFFF ∧ vGroup.exec ≠ 0xFFFFFFFF ∧ vGroup.exec ≠ 0
    ∧ Issues (at_ { sGroup with exec := 0 }) tIssue { sGroup with exec := 0 } :=
  ⟨issues_at rfl rfl, rfl, usable_of (by decide), by decide, rfl, by decide, by decide, issues_at rfl rfl⟩
def callGroup (depth : Nat) (target : Word) (path : List PathEntry) : Group :=
  { scalars [(61, target), (2, target)] with depth := depth, path := path }
theorem witness_callsAndReturns :
    (Issues (at_ (callGroup 254 4 [])) tIssue (callGroup 254 4 []) ∧ Usable (callGroup 254 4 []) (usesS [61] []) ∧ tIssue.ext = none
      ∧ Usable (callGroup 254 4 []) (usesS [61] [63]) ∧ Usable (callGroup 254 4 []) (usesS [] [61]) ∧ Usable (callGroup 254 4 []) (usesS [] [63]))
    ∧ ((callGroup 254 4 []).depth ≠ 255 ∧ ((callGroup 254 4 []).sreg 61).toNat % 2 = 0
      ∧ ¬((callGroup 254 4 []).path.head?.any fun e => e.depth == (callGroup 254 4 []).depth) = true)
    ∧ Issues (at_ (callGroup 255 5 [])) tIssue (callGroup 255 5 []) ∧ ((callGroup 255 5 []).sreg 2).toNat % 2 = 1
    ∧ Issues (at_ (callGroup 0 4 [])) tIssue (callGroup 0 4 [])
    ∧ ((callGroup 1 4 [⟨true, 0, 1, 0, 1⟩]).path.head?.any fun e => e.depth == 1) = true
    ∧ wordGroup.handler = none ∧ wordGroup.codeSize ≤ (8#32).toNat :=
  ⟨⟨issues_at rfl rfl, usable_of (by decide), rfl, usable_of (by decide), usable_of (by decide), usable_of (by decide)⟩, by decide,
    issues_at rfl rfl, by decide, issues_at rfl rfl, by decide, rfl, by decide⟩
/-- Divergence: lanes on both sides, on one side, and none; a full path stack; each kind of top entry. -/
def dGroup (u : Nat) (path : List PathEntry) : Group := { scalars [(1, 0xFFFF), (2, 0xFFFFFFFF)] with u := u, path := path }
theorem witness_divergenceResults :
    (Issues (at_ (dGroup 254 [])) tIssue (dGroup 254 []) ∧ Usable (dGroup 254 []) (usesS [] [63]) ∧ tIssue.ext = none)
    ∧ ((dGroup 0 []).exec &&& (dGroup 0 []).sreg 1 ≠ 0 ∧ (dGroup 0 []).exec &&& ~~~(dGroup 0 []).sreg 1 ≠ 0)
    ∧ ((dGroup 0 []).exec &&& (dGroup 0 []).sreg 63 = 0 ∧ (dGroup 0 []).exec &&& ~~~(dGroup 0 []).sreg 2 = 0)
    ∧ (Issues (at_ (dGroup 255 [])) tIssue (dGroup 255 []) ∧ 0 < (dGroup 255 []).u)
    ∧ (Issues (at_ (dGroup 0 (List.replicate 15 ⟨true, 0, 1, 0, 0⟩))) tIssue (dGroup 0 (List.replicate 15 ⟨true, 0, 1, 0, 0⟩))
      ∧ 14 < (List.replicate 15 (⟨true, 0, 1, 0, 0⟩ : PathEntry)).length)
    ∧ (dGroup 0 []).u = 0 ∧ (dGroup 0 []).path = []
    ∧ Issues (at_ (dGroup 0 [⟨true, 0, 1, 0, 1⟩])) tIssue (dGroup 0 [⟨true, 0, 1, 0, 1⟩])
    ∧ Issues (at_ (dGroup 0 [⟨true, 0, 1, 0, 0⟩])) tIssue (dGroup 0 [⟨true, 0, 1, 0, 0⟩])
    ∧ Issues (at_ (dGroup 0 [⟨false, 0, 1, 0, 0⟩])) tIssue (dGroup 0 [⟨false, 0, 1, 0, 0⟩]) :=
  ⟨⟨issues_at rfl rfl, usable_of (by decide), rfl⟩, by decide, by decide, ⟨issues_at rfl rfl, by decide⟩,
    ⟨issues_at rfl rfl, by decide⟩, rfl, rfl, issues_at rfl rfl, issues_at rfl rfl, issues_at rfl rfl⟩
/-- Loops: an end before the body (end10 1) and at its first word (2); a count of 0 whose end lies in the code and past it;
four entries. -/
def loopEntry (n : Word) : LoopEntry := { start := 4, stop := 8, count := n }
/-- The code's page is in a move. -/
def pageMoves (g : Group) : State := { at_ g with pages := [{ wordPage with moving := true }] }
theorem witness_loopResults : Issues (at_ sGroup) tIssue sGroup ∧ tIssue.ext = none ∧ Usable sGroup (usesS [] [63])
    ∧ ((sGroup.pc + 2 * (1#10).zeroExtend 32).toNat < (sGroup.pc + BitVec.ofNat 32 tIssue.len).toNat)
    ∧ ¬((sGroup.pc + 2 * (2#10).zeroExtend 32).toNat < (sGroup.pc + BitVec.ofNat 32 tIssue.len).toNat)
    ∧ ((at_ sGroup).lenAt sGroup 4 = .ok 2 ∧ (at_ sGroup).lenAt sGroup 8 = .error cProtection)
    ∧ (Issues (pageMoves sGroup) tIssue sGroup ∧ (pageMoves sGroup).lenAt sGroup 4 = .error cMoving)
    ∧ sGroup.sreg 63 = 0 ∧ sGroup.loops.length ≠ 4
    ∧ Issues (at_ { sGroup with loops := List.replicate 4 (loopEntry 1) }) tIssue { sGroup with loops := List.replicate 4 (loopEntry 1) }
    ∧ ((loopEntry 1).stop = 8 ∧ (loopEntry 2).count ≠ 1 ∧ (loopEntry 1).count = 1 ∧ (loopEntry 1).stop ≠ 4) :=
  ⟨issues_at rfl rfl, rfl, usable_of (by decide), by decide, by decide, ⟨rfl, rfl⟩, ⟨⟨rfl, rfl, rfl, rfl⟩, rfl⟩, by decide, by decide, issues_at rfl rfl,
    by decide⟩
theorem test_loop_end : endCheck [loopEntry 1, loopEntry 2] 8 12 = ([loopEntry 1], 4) ∧ endCheck [loopEntry 2] 4 8 = ([loopEntry 2], 8) := by
  decide
theorem witness_execAndFmt : Issues (at_ (scalars [(63, 0xFFFFF), (62, 0x888), (61, 0x100000)])) tIssue (scalars [(63, 0xFFFFF), (62, 0x888), (61, 0x100000)])
    ∧ Usable (scalars []) (usesS [] [63]) ∧ Usable (scalars []) (usesS [63] [])
    ∧ ((0x888#32).toNat < 2 ^ 20 ∧ ((0x888#32).extractLsb' 0 4).toNat ≤ 8 ∧ ((0x888#32).extractLsb' 8 4).toNat ≤ 8)
    ∧ ¬((0x900#32).extractLsb' 8 4).toNat ≤ 8 ∧ ¬(0x100000#32).toNat < 2 ^ 20 :=
  ⟨issues_at rfl rfl, usable_of (by decide), usable_of (by decide), by decide, by decide, by decide⟩
theorem test_fmtset : (ran (scalars [(1, 0x888)]) (.fmtset 1)).fmt = 0x888 ∧ (ran (scalars [(1, 0x900)]) (.fmtset 1)).fmt = 0 := by decide
theorem test_exec_writes : (ran (scalars [(1, 0xF0F0)]) (.sexec 1)).exec = 0xF0F0
    ∧ (ran { scalars [(1, 0xF0F0)] with exec := 0xFF } (.sexecand 1)).exec = 0xF0
    ∧ (ran { scalars [(1, 0xF0F0)] with exec := 0xFF } (.sexecandn 1)).exec = 0xF := by decide
theorem witness_specialReads : Issues (at_ sGroup) tIssue sGroup ∧ Usable sGroup (usesS [63] [])
    ∧ (Issues (at_ { sGroup with super := true }) tIssue { sGroup with super := true }
      ∧ Usable { sGroup with super := true } (usesS [63] []))
    ∧ (0x0C < (0x0D#6).toNat ∧ (0x0F#6).toNat < 0x10 ∧ 0x12 < (0x13#6).toNat ∧ 0x1C < (0x1D#6).toNat ∧ 0x23 < (0x24#6).toNat) :=
  ⟨issues_at rfl rfl, usable_of (by decide), ⟨issues_at rfl rfl, usable_of (by decide)⟩, by decide⟩
theorem test_srd_clk_latches :
    (match exec (.srd 3 0x10) { at_ sGroup with clk := 0x500000007 } with
      | .next t => (t.group? 2).map fun h => (h.sreg 3, h.clkh)
      | _ => none) = some (7, 5) := by decide
theorem witness_specialWrites :
    (Issues (at_ (scalars [(63, 7)])) tIssue (scalars [(63, 7)]) ∧ Usable (scalars [(63, 7)]) (usesS [] [63])
      ∧ (scalars [(63, 7)]).sreg 63 = 7 ∧ (at_ (scalars [(63, 7)])).ctx? (scalars [(63, 7)]).ctx = some wordCtx)
    ∧ (sGroup.super = false ∧ Issues (at_ { sGroup with super := true }) tIssue { sGroup with super := true })
    ∧ ((7#32).toNat ≤ 7 ∧ ¬(8#32).toNat ≤ 7 ∧ (1#32).toNat ≤ 1 ∧ ¬(2#32).toNat ≤ 1)
    ∧ ((0x3FFFFFF#32).toNat < 2 ^ 26 ∧ ¬(0x4000000#32).toNat < 2 ^ 26)
    ∧ (0x17#6).toNat < 0x18 ∧ 0x1A < (0x1B#6).toNat ∧ (0x1F#6).toNat < 0x20 ∧ 0x23 < (0x24#6).toNat :=
  ⟨⟨issues_at rfl rfl, usable_of (by decide), rfl, rfl⟩, ⟨rfl, issues_at rfl rfl⟩, by decide, by decide, by decide⟩
theorem witness_hintsAndDelays : Issues (at_ sGroup) tIssue sGroup ∧ Usable sGroup (usesS [] [63]) ∧ tIssue.ext = none :=
  ⟨issues_at rfl rfl, usable_of (by decide), rfl⟩
theorem test_dly_zero : (ran sGroup (.dly 0 0)).wait = .none ∧ (ran sGroup (.dly 2 1)).wait = .dly 28 := by decide

/-! ### Traps -/

/-- A context with a handler, and a group in it. -/
def hCtx : Ctx := { wordCtx with handler := 0x40000 }
def saved (lane : Bool) : SavedCtx := { exec := 0xFF, fmt := 1, path := [], loops := [], u := 0, depth := 3, super := false, code := 0x11, perLane := lane }
def inHandlerGroup (lane : Bool) (emask : Word) : Group :=
  { wordGroup with super := true, handler := some (saved lane), emask := emask, epc := 4, exec := emask }
theorem witness_trapEntry : ({ at_ wordGroup with ctxs := [hCtx] } : State).ctx? wordGroup.ctx = some hCtx ∧ wordGroup.handler = none
    ∧ hCtx.handler ≠ 0 ∧ (at_ wordGroup).ctx? wordGroup.ctx = some wordCtx ∧ wordCtx.handler = 0
    ∧ (inHandlerGroup false 1).handler ≠ none := by
  refine ⟨rfl, rfl, by decide, rfl, rfl, by decide⟩
theorem witness_softwareTraps : Issues (at_ wordGroup) tIssue wordGroup ∧ wordGroup.super = false
    ∧ (Issues (at_ { wordGroup with super := true }) tIssue { wordGroup with super := true }
      ∧ ({ wordGroup with super := true } : Group).handler = none)
    ∧ (Issues (at_ (inHandlerGroup false 1)) tIssue (inHandlerGroup false 1) ∧ (inHandlerGroup false 1).handler = some (saved false))
    ∧ (Issues (at_ (inHandlerGroup true 1)) tIssue (inHandlerGroup true 1) ∧ (inHandlerGroup true 1).emask ≠ 0)
    ∧ (Issues (at_ (inHandlerGroup true 0)) tIssue (inHandlerGroup true 0) ∧ (inHandlerGroup true 0).emask = 0
      ∧ (at_ (inHandlerGroup true 0)).lenAt { inHandlerGroup true 0 with super := false, handler := none } 4 = .ok 2
      ∧ (pageMoves (inHandlerGroup true 0)).lenAt { inHandlerGroup true 0 with super := false, handler := none } 4 = .error cMoving
      ∧ (inHandlerGroup false 1).epc.toNat % 2 = 0 ∧ ({ inHandlerGroup false 1 with epc := 5 } : Group).epc.toNat % 2 = 1)
    ∧ ((at_ (inHandlerGroup true 1)).failsMove (inHandlerGroup true 1) = false
      ∧ (pageMoves { inHandlerGroup true 1 with frec := wordVa }).failsMove { inHandlerGroup true 1 with frec := wordVa } = true) :=
  ⟨issues_at rfl rfl, rfl, ⟨issues_at rfl rfl, rfl⟩, ⟨issues_at rfl rfl, rfl⟩, ⟨issues_at rfl rfl, by decide⟩,
    ⟨issues_at rfl rfl, rfl, rfl, rfl, by decide⟩, by decide⟩
/-- R106, R107: TRAP 5 enters the handler at offset 0, and ERET goes back past it. -/
theorem test_trap_enters :
    (match exec (.trap 5) { at_ sGroup with ctxs := [hCtx] } with
      | .next t => (t.group? 2).map fun h => (h.pc, h.epc, h.ecause, h.super)
      | _ => none) = some (0, 4, 0x517, true) := by decide
theorem test_eret_returns : ((ran (inHandlerGroup false 1) .eret).pc, (ran (inHandlerGroup false 1) .eret).exec, (ran (inHandlerGroup false 1) .eret).super)
    = (4, 0xFF, false) := by decide
theorem test_eret_reissues : ((ran (inHandlerGroup true 1) .eret).exec, (ran (inHandlerGroup true 1) .eret).reissue) = (1, some 0xFF) := by decide
theorem test_trap_without_handler : endsWith sGroup (.trap 5) = 0x20 := by decide

/-! ### States that meet the hypotheses of the statements about memory, synchronisation and the engines -/

/-- The same device with another team. -/
def atTeam (t : Team) (g : Group) : State := { at_ g with teams := [t] }

/-- The lanes that passed a check phase. -/
def passed (cs : List LaneCheck) : List LaneReq := cs.filterMap LaneCheck.req?
/-- No passing lane lies in the kick page of a context, as a decision. -/
def noKickB (cs : List LaneCheck) (c : Nat) : Bool :=
  cs.all fun z => match z with
    | .pass r => r.loc.sp != .kick c
    | _ => true
theorem noKick_of {cs : List LaneCheck} {c : Nat} (h : noKickB cs c = true) : ∀ z ∈ cs, ∀ r, z = .pass r → r.loc.sp ≠ .kick c := by
  intro z hz r e
  have := List.all_eq_true.mp h z hz
  rw [e] at this
  simpa using this

/-- b7 maps the page at 0x10000, and v127 holds an offset of 16 bytes for each lane; lanes 0 and 31 are in exec. -/
def bReg (st : BState) (sp : Space) : TransReg :=
  { base := BitVec.ofNat 52 wordVa, frame := BitVec.ofNat 48 wordVa, limit := 0x10000, perm := 7, state := st, sp := sp, sup := false }
def mGroup (st : BState) : Group :=
  { wordGroup with exec := 0x80000001, b := wordGroup.b.set 7 (bReg st .dev),
                   v := wordGroup.v.set 127 ((List.range 32).map fun l => BitVec.ofNat 32 (16 * l)) }
def rdLanes (st : BState) (w : Nat) : List LaneCheck :=
  (at_ (mGroup st)).checkLanes ((at_ (mGroup st)).refresh (mGroup st) 7) (((at_ (mGroup st)).refresh (mGroup st) 7).breg 7) 127 w .rd
    (fun _ => 0) (fun _ => 0)
def wrLanes (st : BState) (w : Nat) : List LaneCheck :=
  (at_ (mGroup st)).checkLanes ((at_ (mGroup st)).refresh (mGroup st) 7) (((at_ (mGroup st)).refresh (mGroup st) 7).breg 7) 127 w .wr
    (fun _ => 0) (fun _ => 0)

theorem witness_loadAccess :
    (Issues (at_ (mGroup .valid)) tIssue (mGroup .valid)
      ∧ Usable (mGroup .valid) { vN := regsFrom 124 (accRegs 4) ++ [127], sN := [], vR := [127], sR := [] }
      ∧ ((mGroup .valid).breg 7).state = .valid ∧ (4#3).toNat < 5 ∧ (6#3) ≠ 7 ∧ LanesPass (rdLanes .valid 16) (passed (rdLanes .valid 16)))
    ∧ (Issues (at_ (mGroup .stale)) tIssue (mGroup .stale) ∧ ((mGroup .stale).breg 7).state = .stale
      ∧ LanesPass (rdLanes .stale 1) (passed (rdLanes .stale 1)))
    ∧ (Issues (at_ (mGroup .filling)) tIssue (mGroup .filling) ∧ ((mGroup .filling).breg 7).state = .filling)
    ∧ ((mGroup .invalid).breg 7).state = .invalid ∧ 5 ≤ (5#3).toNat ∧ 2 ≤ (2#3).toNat ∧ (1#3).toNat < 2 :=
  ⟨⟨issues_at rfl rfl, usable_of (by decide), rfl, by decide, by decide, by unfold LanesPass; decide⟩,
    ⟨issues_at rfl rfl, rfl, by unfold LanesPass; decide⟩, ⟨issues_at rfl rfl, rfl⟩, rfl, by decide, by decide, by decide⟩
theorem witness_storeAccess :
    (Issues (at_ (mGroup .valid)) tIssue (mGroup .valid)
      ∧ Usable (mGroup .valid) { vN := regsFrom 124 (accRegs 4) ++ [127], sN := [], vR := regsFrom 124 (accRegs 4) ++ [127], sR := [] }
      ∧ ((mGroup .valid).breg 7).state = .valid ∧ LanesPass (wrLanes .valid 16) (passed (wrLanes .valid 16))
      ∧ ∀ r ∈ passed (wrLanes .valid 16), r.loc.sp ≠ .kick (mGroup .valid).ctx)
    ∧ (LanesPass (wrLanes .stale 1) (passed (wrLanes .stale 1)) ∧ ((mGroup .stale).breg 7).state = .stale)
    ∧ ((mGroup .filling).breg 7).state = .filling
    ∧ ∀ z ∈ (at_ (mGroup .filling)).checkLanes (mGroup .filling) ((mGroup .filling).breg 7) 127 16 .wr (fun _ => 0) (fun _ => 0),
        ∀ r, z = .pass r → r.loc.sp ≠ .kick (mGroup .filling).ctx :=
  ⟨⟨issues_at rfl rfl, usable_of (by decide), rfl, by unfold LanesPass; decide, by decide⟩, ⟨by unfold LanesPass; decide, rfl⟩, rfl,
    noKick_of (by decide)⟩
def atLanes (op : Nat) : List LaneCheck :=
  (at_ (mGroup .valid)).checkLanes (mGroup .valid) ((mGroup .valid).breg 7) 127 4 (.at_ op) ((mGroup .valid).vlane 0)
    (fun l => if op = 9 then (mGroup .valid).vlane 1 l else 0)
theorem witness_atomAccess : Issues (at_ (mGroup .valid)) tIssue (mGroup .valid)
    ∧ Usable (mGroup .valid) { vN := [0, 1] ++ [127], sN := [], vR := [0, 1] ++ [127], sR := [] }
    ∧ Usable (mGroup .valid) { vN := [126] ++ [127], sN := [], vR := [126] ++ [127], sR := [] }
    ∧ LanesPass (atLanes 0) (passed (atLanes 0)) ∧ LanesPass (atLanes 9) (passed (atLanes 9)) ∧ LanesPass (atLanes 12) (passed (atLanes 12))
    ∧ (4#3).toNat < 5 ∧ 5 ≤ (5#3).toNat :=
  ⟨issues_at rfl rfl, usable_of (by decide), usable_of (by decide), by unfold LanesPass; decide, by unfold LanesPass; decide,
    by unfold LanesPass; decide, by decide, by decide⟩

/-- b7 maps the kick page of context 0. -/
def kickGroup : Group :=
  { wordGroup with b := wordGroup.b.set 7 { bReg .valid (.kick 0) with frame := 0 }, s := wordGroup.s.set 63 11 }
def heldKick (i : Nat) : HeldEntry := { id := i, turn := i, gid := 2, pc := 0, exec := 1, what := .kick [(0, 0)] 0 }
def fullTeam : Team := { wordTeam false with held := (List.range 64).map heldKick }
theorem witness_scalarMemoryAccess :
    (Issues (at_ (mGroup .valid)) tIssue (mGroup .valid) ∧ tIssue.ext = none
      ∧ Usable (mGroup .valid) { vN := [], sN := [63], vR := [], sR := [63] }
      ∧ Usable (mGroup .valid) { vN := [], sN := [62, 63], vR := [], sR := [62, 63] })
    ∧ ([Dir.rd, .wr, .at_ 0, .at_ 9].all fun d => [4, 8].all fun w =>
        ((at_ (mGroup .valid)).checkLane (mGroup .valid) ((mGroup .valid).breg 7) 0 (4 * (0xFFE#12).toNat) w d true 0 0).req?.isSome) = true
    ∧ (Issues (at_ (mGroup .stale)) tIssue (mGroup .stale)
      ∧ ((at_ (mGroup .stale)).checkLane ((at_ (mGroup .stale)).refresh (mGroup .stale) 7)
          (((at_ (mGroup .stale)).refresh (mGroup .stale) 7).breg 7) 0 0 4 .rd true 0 0).req?.isSome = true)
    ∧ Issues (at_ (mGroup .filling)) tIssue (mGroup .filling) ∧ (61#6).toNat % 2 = 1 ∧ (62#6).toNat % 2 = 0
    ∧ (∀ z ∈ [(at_ (mGroup .filling)).checkLane (mGroup .filling) ((mGroup .filling).breg 7) 0 0 8 .wr true 0 0],
        ∀ r, z = .pass r → r.loc.sp ≠ .kick (mGroup .filling).ctx) :=
  ⟨⟨issues_at rfl rfl, rfl, usable_of (by decide), usable_of (by decide)⟩, by decide, ⟨issues_at rfl rfl, by decide⟩, issues_at rfl rfl,
    by decide, by decide, noKick_of (by decide)⟩
/-- The last kick register, with room in the commit buffer and with 64 entries held. -/
theorem witness_scalarMemoryAccess_kick :
    Issues (at_ kickGroup) tIssue kickGroup ∧ (at_ kickGroup).team? kickGroup.tid = some (wordTeam false) ∧ (kickGroup.breg 7).state = .valid
    ∧ ((at_ kickGroup).checkLane kickGroup (kickGroup.breg 7) 0 (4 * (30#12).toNat) 4 .wr true 0 0).req?.map (fun r => r.loc) = some ⟨.kick 0, 0x78⟩
    ∧ ¬64 ≤ (wordTeam false).held.length
    ∧ Issues (atTeam fullTeam kickGroup) tIssue kickGroup ∧ (atTeam fullTeam kickGroup).team? kickGroup.tid = some fullTeam
    ∧ 64 ≤ fullTeam.held.length :=
  ⟨issues_at rfl rfl, rfl, rfl, by decide, by decide, ⟨rfl, rfl, rfl, rfl⟩, rfl, by decide⟩
/-- R34: a load's lanes show their values when its last lane has read. -/
theorem test_load_then_read :
    (match exec (.ld 1 7 127 2 0 0) { at_ (mGroup .valid) with dev := [(0x10000, 0x78), (0x10001, 0x56), (0x101F0, 0x21)] } with
      | .next t => (match exec .read { t with arg := { EvArg.zero with a := 1, b := 31 } } with
        | .next u => (match exec .read { u with arg := { EvArg.zero with a := 1, b := 0 } } with
          | .next w => (u.group? 2).bind fun g => (w.group? 2).map fun h => (g.vlane 1 31, h.vlane 1 31, h.vlane 1 0)
          | _ => none)
        | _ => none)
      | _ => none) = some (0, 0x21, 0x5678) := by decide
theorem test_store_is_buffered :
    (match exec (.st 0 7 127 2 0) (at_ (mGroup .valid)) with
      | .next t => t.stores.map fun x => (x.lane, x.tgt, x.reach)
      | _ => []) = [(0, .mem ⟨.dev, 0x10000⟩, .none), (31, .mem ⟨.dev, 0x101F0⟩, .none)] := by decide
/-- R129, R131: offsets past the register's limit translate by themselves, and both lanes fail, for want of a mapping. -/
theorem test_load_past_limit :
    (match (ran { mGroup .valid with v := wordGroup.v.set 127 (List.replicate 32 0x10000) } (.ld 1 7 127 2 0 0)).wait with
      | .check due len fails => (due, len, fails.map fun f => (f.lane, f.va, f.cause))
      | _ => (0, 0, [])) = (4, 4, [(0, 0x20000, 0x06), (31, 0x20000, 0x06)]) := by decide

/-- A team with a window, tags and an open plane region of two words. -/
def plane0 : Plane := { id := 7, size := 2, carry := 0, rule := 0, members := 1, present := [], next := [], steps := 0 }
def wTeam : Team := { wordTeam false with scratch := 0x1000, tagN := 8, planes := [plane0] }
def spadLanes (w access : Nat) : List LaneCheck :=
  (lanesOf (mGroup .valid).exec).map fun l => (atTeam wTeam (mGroup .valid)).checkSpad (mGroup .valid) l
    ((mGroup .valid).vlane 127 l + ((60#6).zeroExtend 32) * 4).toNat w access ((mGroup .valid).vlane 1 l)
theorem witness_scratchpadAccess : Issues (atTeam wTeam (mGroup .valid)) tIssue (mGroup .valid) ∧ tIssue.ext = none
    ∧ Usable (mGroup .valid) { vN := regsFrom 124 4 ++ [127], sN := [], vR := regsFrom 124 4 ++ [127], sR := [] }
    ∧ LanesPass (spadLanes 4 0) (passed (spadLanes 4 0)) ∧ LanesPass (spadLanes 16 0) (passed (spadLanes 16 0))
    ∧ LanesPass (spadLanes 4 2) (passed (spadLanes 4 2)) ∧ LanesPass (spadLanes 16 1) (passed (spadLanes 16 1)) :=
  ⟨⟨rfl, rfl, rfl, rfl⟩, rfl, usable_of (by decide), by unfold LanesPass; decide, by unfold LanesPass; decide, by unfold LanesPass; decide,
    by unfold LanesPass; decide⟩
def tagGroup : Group := { mGroup .valid with v := ((mGroup .valid).v.set 126 (List.replicate 32 7)).set 125 (List.replicate 32 8) }
theorem witness_tagTable : Issues (atTeam wTeam tagGroup) tIssue tagGroup ∧ (atTeam wTeam tagGroup).team? tagGroup.tid = some wTeam
    ∧ Usable tagGroup { vN := [126, 127], sN := [], vR := [126, 127], sR := [] } ∧ wTeam.tagN ≠ 0
    ∧ (∀ l ∈ lanesOf tagGroup.exec, (tagGroup.vlane 126 l).toNat < wTeam.tagN
        ∧ (tagGroup.vlane 126 l).toNat / 8 = tagSet wTeam.tagN (tagGroup.vlane 127 l + (63#6).zeroExtend 32))
    ∧ ∃ l ∈ lanesOf tagGroup.exec, wTeam.tagN ≤ (tagGroup.vlane 125 l).toNat :=
  ⟨⟨rfl, rfl, rfl, rfl⟩, rfl, usable_of (by decide), by decide, by decide, ⟨31, by decide, by decide⟩⟩

/-! #### Waits and barriers -/

def pendingStore : Store :=
  { sid := 0, gid := 2, ctx := 0, acc := 0, lane := 0, tgt := .mem ⟨.dev, wordVa⟩, data := [1], reach := .none, rel := none, cluster := 0, die := 0,
    epoch := 0, passC := 0, passD := 0 }
def countedGroup : Group := { wordGroup with acc := [{ Access.make 0 wordGroup 0 .ld 0 with lanes := [] }] }
theorem witness_waitInstructions :
    (Issues (at_ wordGroup) tIssue wordGroup ∧ (at_ wordGroup).awake? wordGroup.gid = some wordGroup
      ∧ (at_ wordGroup).team? wordGroup.tid = some (wordTeam false) ∧ tIssue.len = 4
      ∧ (at_ wordGroup).performedAt 2 1 4 = true ∧ wordGroup.acc = [])
    ∧ ({ at_ wordGroup with stores := [pendingStore] } : State).performedAt 2 1 4 = false
    ∧ Usable wordGroup (usesS [] [63]) ∧ (wordGroup.count 4 ≤ (wordGroup.sreg 63).toNat ∧ (wordGroup.poison.all fun r => r.path != 4) = true)
    ∧ (Issues (at_ countedGroup) tIssue countedGroup ∧ ¬countedGroup.count 0 ≤ (countedGroup.sreg 63).toNat)
    ∧ ((wordTeam false).producer = wordGroup.grp ∧ ((wordTeam false).token 7).state ≠ 1)
    ∧ (({ wordTeam false with tokens := List.replicate 8 { Token.fresh with state := 1 } } : Team).token 7).state = 1
    ∧ ({ wordTeam false with producer := 255 } : Team).producer ≠ wordGroup.grp
    ∧ (wordTeam false).seenGen wordGroup 15 = (wordGroup.bar 15).obs
    ∧ ({ wordTeam false with bars := List.replicate 16 { Barrier.fresh 1 with seen := 1 } } : Team).seenGen wordGroup 15 ≠ (wordGroup.bar 15).obs :=
  ⟨⟨issues_at rfl rfl, rfl, rfl, rfl, by decide, rfl⟩, by decide, usable_of (by decide), by decide, ⟨issues_at rfl rfl, by decide⟩, by decide,
    by decide, by decide, by decide⟩
/-- One arrival is the last in a team of one group, and one of two in a team of two. -/
def pairTeam : Team := { wordTeam false with tsize := 2, bars := List.replicate 16 (Barrier.fresh 2) }
def afterArrival (t : Team) : State × Team :=
  let y : Barrier := { t.bar 15 with arrived := (t.bar 15).arrived + 1 }
  ((({ atTeam t wordGroup with nextId := 2 } : State).putTeam (t.putBar 15 y)).putGroup
    ((wordGroup.stamp 0 0).putBar 15 { wordGroup.bar 15 with arr := some 0, arrId := 1 }), t.putBar 15 y)
def gbarLaunch : Launch :=
  { lid := 0, ctx := 0, die := 0, origin := .program 0, prog := none, roles := [Role.none], sheaf := false, gbar := true, nx := 1, ny := 1, nz := 1, seed := 0,
    prio := 0, depth := 0, qh := [], codeBase := wordVa, codeSize := 8, frags := [], feet := [], places := [], chain := none, form := none, total := 1, more := 0, span := [], parts := [], next := 1,
    again := [], started := true, dones := [], reissue := 0, gbDies := [[], [], [], []] }
def gbarState : State := { at_ wordGroup with launches := [gbarLaunch] }
theorem witness_barrierInstructions :
    (Issues (at_ wordGroup) tIssue wordGroup ∧ (at_ wordGroup).team? wordGroup.tid = some (wordTeam false) ∧ (wordGroup.bar 15).arr ≠ some ((wordTeam false).bar 15).gen)
    ∧ (Issues (at_ { wordGroup with bars := List.replicate 16 ⟨some 0, 0, 0⟩ }) tIssue { wordGroup with bars := List.replicate 16 ⟨some 0, 0, 0⟩ })
    ∧ ((afterArrival pairTeam).1.barrierReady (afterArrival pairTeam).2 15 = false ∧ (atTeam pairTeam wordGroup).awake? 2 = some wordGroup
      ∧ pairTeam.seenGen wordGroup 15 = (wordGroup.bar 15).obs ∧ wordGroup.bars.length = 16)
    ∧ ((afterArrival (wordTeam false)).1.barrierReady (afterArrival (wordTeam false)).2 15 = true ∧ 15 < (wordTeam false).bars.length)
    ∧ (Usable sGroup (usesS [] [7]) ∧ ¬(256 ≤ (sGroup.sreg 7).toNat ∨ sGroup.tsize < (sGroup.sreg 7).toNat ∨ ((wordTeam false).bar 15).arrived ≠ 0)
      ∧ 256 ≤ (sGroup.sreg 1).toNat)
    ∧ ((at_ wordGroup).gridBars wordGroup = false ∧ Issues gbarState tIssue wordGroup ∧ gbarState.gridBars wordGroup = true
      ∧ (gbarState.release 2 1 3).group? 2 = some wordGroup)
    ∧ (Usable sGroup (usesS [] (pairRegs 62)) ∧ ¬((62#6).toNat % 2 = 1 ∨ 2 ^ 52 ≤ (sGroup.pair 62).toNat))
    ∧ 2 ^ 52 ≤ ((scalars [(63, 0x100000)]).pair 62).toNat :=
  ⟨⟨issues_at rfl rfl, rfl, by decide⟩, issues_at rfl rfl, ⟨by decide, rfl, by decide, by decide⟩, by decide, ⟨usable_of (by decide), by decide, by decide⟩,
    ⟨by decide, ⟨rfl, rfl, rfl, rfl⟩, by decide, rfl⟩, ⟨usable_of (by decide), by decide⟩, by decide⟩
theorem test_xlate_fills : ((ran (scalars [(6, 0x10000)]) (.xlate 3 6)).breg 3).state = .filling
    ∧ ((ran (mGroup .valid) (.xinv 7)).breg 7).state = .invalid := by decide
theorem test_barrier_of_one_opens :
    (match exec (.bara 15) (at_ wordGroup) with
      | .next t => (t.team? 1).map fun u => ((u.bar 15).gen, (u.bar 15).arrived)
      | _ => none) = some (1, 0) := by decide

/-! #### Queues, tokens, copy jobs, planes and the matrix stream -/

/-- A QUEUE record's queue of each kind: its handle holds the kind's code in [31:28] (R161). -/
def tQueue (k : QKind) (code : Nat) : Queue :=
  { newQueue { Rec.fresh 5 with sub := 1, body := List.replicate 192 0 } (BitVec.ofNat 32 (code * 2 ^ 28 + 5)) 0 with kind := k, n2 := 0, isOpen := true, cap := 4 }
/-- The group holds the handle in s63, and an unbound queue register, one bound to the queue, and a BATCH binding. -/
def qBind (k : QKind) (n2 : BitVec 2) (code : Nat) : QBind := { kind := k, n2 := n2, handle := BitVec.ofNat 32 (code * 2 ^ 28 + 5), aux := 0 }
def qGroup (code : Nat) : Group :=
  { wordGroup with s := wordGroup.s.set 63 (BitVec.ofNat 32 (code * 2 ^ 28 + 5)),
                   q := ((wordGroup.q.set 14 (qBind .msg 0 1)).set 13 (qBind .batch 2 3)).set 12 (qBind .expert 2 2) }
def qState (g : Group) (qs : List Queue) : State := { at_ g with queues := qs }
def poppingGroup : Group := { qGroup 1 with acc := [{ Access.make 0 wordGroup 4 .qget 0 with op := 15 }] }
theorem witness_queueBindings :
    (Issues (qState (qGroup 1) [tQueue .msg 1]) tIssue (qGroup 1) ∧ (qState (qGroup 1) [tQueue .msg 1]).awake? 2 = some (qGroup 1) ∧ tIssue.len = 4
      ∧ Usable (qGroup 1) (usesS [] [63]) ∧ Usable (qGroup 1) (usesS [63] [])
      ∧ (qState (qGroup 1) [tQueue .msg 1]).queueOf ((qGroup 1).sreg 63) = some (tQueue .msg 1) ∧ (tQueue .msg 1).ctx = (qGroup 1).ctx
      ∧ ((qGroup 1).sreg 63).toNat / 2 ^ 28 = 1 ∧ (tQueue .msg 1).entryN2 = 0 ∧ (tQueue .msg 1).entryN2 ≠ 2)
    ∧ ((qState (qGroup 2) [tQueue .expert 2]).queueOf ((qGroup 2).sreg 63) = some (tQueue .expert 2) ∧ ((qGroup 2).sreg 63).toNat / 2 ^ 28 = 2
      ∧ (tQueue .expert 2).entryN2 = 2)
    ∧ ((qState (qGroup 4) [tQueue .reorder 4]).queueOf ((qGroup 4).sreg 63) = some (tQueue .reorder 4) ∧ ((qGroup 4).sreg 63).toNat / 2 ^ 28 = 4)
    ∧ ((qState (qGroup 5) [tQueue .stream 5]).queueOf ((qGroup 5).sreg 63) = some (tQueue .stream 5) ∧ ((qGroup 5).sreg 63).toNat / 2 ^ 28 = 5
      ∧ (tQueue .stream 5).entryN2 = 0)
    ∧ ((qState (qGroup 7) []).queueOf ((qGroup 7).sreg 63) = none ∧ ((qGroup 7).sreg 63).toNat / 2 ^ 28 ≠ 3 ∧ ((qGroup 7).sreg 63).toNat / 2 ^ 28 ≠ 6)
    ∧ (((qGroup 3).sreg 63).toNat / 2 ^ 28 = 3 ∧ ((qGroup 6).sreg 63).toNat / 2 ^ 28 = 6)
    ∧ ((qGroup 1).qreg 15).kind = .unbound ∧ ((qGroup 1).qreg 13).kind = .batch ∧ ((qGroup 1).qreg 14).kind = .msg
    ∧ (qGroup 1).acc = [] ∧ Issues (qState poppingGroup [tQueue .msg 1]) tIssue poppingGroup
    ∧ ¬∀ a ∈ poppingGroup.acc, a.op = 15 → a.kind ≠ .qget ∧ a.kind ≠ .qtry ∧ a.kind ≠ .qtryp :=
  ⟨⟨⟨rfl, rfl, rfl, rfl⟩, rfl, rfl, usable_of (by decide), usable_of (by decide), by decide, by decide, by decide, by decide, by decide⟩, by decide, by decide,
    by decide, by decide, by decide, by decide, by decide, by decide, rfl, ⟨rfl, rfl, rfl, rfl⟩, by decide⟩

/-- A chain of two stages, of which group 2 runs the second (its link is empty, and then holds one entry). -/
def tChain (folded : Bool) (es : List LinkEntry) : Chain :=
  { cid := 9, launch := 0, slot := some 0, folded := folded, foldable := true, mst := none,
    stages := [⟨3, 16, false, .none⟩, ⟨2, 16, false, .none⟩], links := [{ n2 := 0, entries := es }], running := 1, switchAt := 0,
    request := none, next := none, movingTo := none, moveEnd := 0, users := [] }
def linkEntry : LinkEntry := { regs := [List.replicate 32 7], readyAt := 0 }
def chainGroup (handle : Word) : Group := { wordGroup with q := wordGroup.q.set 15 { kind := .chain, n2 := 0, handle := handle, aux := 0 } }
def chainState (c : Chain) (g : Group) : State := { atTeam { wordTeam false with chain := some 9 } g with chains := [c] }
theorem witness_queuePops :
    (Issues (qState (qGroup 1) [tQueue .msg 1]) tIssue (qGroup 1)
      ∧ Usable (qGroup 1) { vN := regsFrom 127 (2 ^ (0#2).toNat), sN := [63], vR := [], sR := [] }
      ∧ Usable (qGroup 1) { vN := regsFrom 124 (2 ^ (2#2).toNat), sN := [], vR := [], sR := [] }
      ∧ ((qGroup 1).qreg 14).pops = true ∧ ((qGroup 1).qreg 14).n2 = 0 ∧ ((qGroup 1).qreg 14).n2 ≠ 2 ∧ ((qGroup 1).qreg 14).kind ≠ .chain)
    ∧ (((qGroup 1).qreg 12).pops = false ∧ ((qGroup 1).qreg 13).pops = true ∧ ((qGroup 1).qreg 13).n2 = 2)
    ∧ (Issues (chainState (tChain true []) (chainGroup 0)) tIssue (chainGroup 0) ∧ (chainState (tChain true []) (chainGroup 0)).chainOf (chainGroup 0) = some (tChain true [])
      ∧ ((chainGroup 0).qreg 15).kind = .chain ∧ ((chainGroup 0).qreg 15).handle = 0 ∧ (chainGroup 0).exec ≠ 0
      ∧ ((tChain true []).folded = true ∧ ((tChain true []).link 0).entries = [] ∧ (tChain true []).stageEnded 0 = false))
    ∧ Issues (chainState (tChain true [linkEntry]) (chainGroup 0)) tIssue (chainGroup 0) ∧ ((tChain true [linkEntry]).link 0).entries ≠ [] :=
  ⟨⟨⟨rfl, rfl, rfl, rfl⟩, usable_of (by decide), usable_of (by decide), by decide⟩, by decide, ⟨⟨rfl, rfl, rfl, rfl⟩, by decide⟩, ⟨rfl, rfl, rfl, rfl⟩, by decide⟩
def reorderGroup (w : Word) : Group :=
  { wordGroup with q := wordGroup.q.set 15 (qBind .reorder 2 4), v := wordGroup.v.set 126 (List.replicate 32 w) }
theorem witness_queuePushes :
    (Issues (at_ (qGroup 1)) tIssue (qGroup 1) ∧ (at_ (qGroup 1)).team? (qGroup 1).tid = some (wordTeam false)
      ∧ Usable (qGroup 1) { vN := regsFrom 127 (2 ^ (0#2).toNat), sN := [], vR := regsFrom 127 (2 ^ (0#2).toNat), sR := [] }
      ∧ Usable (qGroup 1) { vN := regsFrom 124 (2 ^ (2#2).toNat), sN := [], vR := regsFrom 124 (2 ^ (2#2).toNat), sR := [] }
      ∧ ((qGroup 1).qreg 14).pushes = true ∧ ((qGroup 1).qreg 14).n2 = 0 ∧ ((qGroup 1).qreg 13).pushes = false)
    ∧ (Issues (atTeam fullTeam (qGroup 1)) tIssue (qGroup 1) ∧ 64 ≤ fullTeam.held.length)
    ∧ Issues (at_ { qGroup 1 with exec := 0 }) tIssue { qGroup 1 with exec := 0 }
    ∧ (Issues (at_ (reorderGroup 0x33)) tIssue (reorderGroup 0x33)
      ∧ ∀ l, l < 32 → (reorderGroup 0x33).exec.getLsbD l = true → (reorderGroup 0x33).vlane (124 + 2) l &&& 0xFFFFFF88 = 0
        ∧ ((reorderGroup 0x33).vlane (124 + 2) l).toNat % 8 ≤ ((reorderGroup 0x33).vlane (124 + 2) l).toNat / 16 % 8)
    ∧ (Issues (at_ (reorderGroup 0x34)) tIssue (reorderGroup 0x34)
      ∧ ¬((reorderGroup 0x34).vlane 126 31).toNat % 8 ≤ ((reorderGroup 0x34).vlane 126 31).toNat / 16 % 8)
    ∧ (Issues (chainState (tChain true []) (chainGroup 1)) tIssue (chainGroup 1) ∧ ((chainGroup 1).qreg 15).pushes = true
      ∧ (tChain true []).stageEnded (0 + 1) = false ∧ ¬(tChain true []).room ≤ ((tChain true []).link 0).entries.length)
    ∧ (tChain true [linkEntry]).room ≤ ((tChain true [linkEntry]).link 0).entries.length
    ∧ ({ tChain true [] with stages := [⟨2, 16, false, .none⟩, ⟨3, 16, true, .none⟩] } : Chain).stageEnded (0 + 1) = true :=
  ⟨⟨issues_at rfl rfl, rfl, usable_of (by decide), usable_of (by decide), by decide⟩, ⟨⟨rfl, rfl, rfl, rfl⟩, by decide⟩, issues_at rfl rfl,
    ⟨issues_at rfl rfl, by decide⟩, ⟨issues_at rfl rfl, by decide⟩, ⟨⟨rfl, rfl, rfl, rfl⟩, by decide⟩, by decide, by decide⟩
/-- An entry pushed and the head popped: the registers of the popping group. -/
theorem test_pop_takes_head :
    (match exec (.qget 14 1 0) (qState (qGroup 1) [{ tQueue .msg 1 with entries := [⟨0, [List.replicate 32 42], [], 0⟩, ⟨1, [List.replicate 32 43], [], 0⟩] }]) with
      | .next t => (match exec .pop { t with arg := { EvArg.zero with a := 1 } } with
        | .next u => (u.group? 2).map fun g => (g.vlane 1 31, (u.queues.map fun q => q.entries.length))
        | _ => none)
      | _ => none) = some (42, [1]) := by decide

def tokenTeam (state : Nat) : Team := { wTeam with tokens := List.replicate 8 { Token.fresh with state := state, landed := 0x100000005, skipped := true } }
theorem witness_tokenInstructions : Issues (atTeam (tokenTeam 2) sGroup) tIssue sGroup ∧ (atTeam (tokenTeam 2) sGroup).team? sGroup.tid = some (tokenTeam 2)
    ∧ Usable sGroup (usesS [63] []) ∧ Usable sGroup (usesS (pairRegs 62) []) ∧ (tokenTeam 2).producer = sGroup.grp
    ∧ ((tokenTeam 2).token 7).state ≠ 1 ∧ ((tokenTeam 1).token 7).state = 1 ∧ { tokenTeam 2 with producer := 1 }.producer ≠ sGroup.grp :=
  ⟨⟨rfl, rfl, rfl, rfl⟩, rfl, usable_of (by decide), usable_of (by decide), by decide, by decide, by decide, by decide⟩
theorem test_token_reads :
    (match exec (.kstat 7 3) (atTeam (tokenTeam 2) sGroup), exec (.kbytes 7 4) (atTeam (tokenTeam 2) sGroup) with
      | .next t, .next u => ((t.group? 2).map fun g => g.sreg 3, (u.group? 2).map fun g => g.pair 4)
      | _, _ => (none, none)) = (some 10, some 0x100000005) := by decide

/-- A card of one raw run of 16 bytes from 0x10100 to 0x10200, with its completion area at 0x10400 (Tables A.69 and A.70), in
the team's window and at 0x10040. -/
def goodCard : List Nat := [0xFF00000F, 0x10100, 0x10200, 0x10400, 0, 0, 0, 0]
def badCard : List Nat := [0x3F00000F, 0x10100, 0x10200, 0x10400, 0, 0, 0, 0]
def cardBytes (c : List Nat) : List Byte := c.flatMap fun x => leBytes 8 x
def cardTeam (state : Nat) (c : List Nat) : Team :=
  { tokenTeam state with
    win := cellsPutAll [] 0 (cardBytes c)
    tokens := List.replicate 8 { Token.fresh with state := state, card := goodCard, cardSpad := true, job := 4 } }
def cpyGroup : Group := { mGroup .valid with s := (wordGroup.s.set 63 0x80000000).set 62 0x40 }
def oldJob : Job :=
  { jid := 4, tid := 1, gid := 2, tok := 7, ctx := 0, core := 0, card := goodCard, fmt := 0, guard := none, state := .ended, reads := [], writes := [],
    targets := [], bufs := [], runsRead := [0], runsDone := [], runsFaulted := [0], taken := [], posted := [], wrote := [], iv := [], poisoned := false, failed := false,
    landedBefore := [], replay := false, skipped := false }
def cpyState (t : Team) (g : Group) : State := { atTeam t g with dev := cellsPutAll [] 0x10040 (cardBytes goodCard), jobs := [oldJob] }
def cpyBase : State := cpyState (cardTeam 0 goodCard) cpyGroup
theorem witness_copyInstructions :
    (Issues cpyBase tIssue cpyGroup ∧ cpyBase.team? cpyGroup.tid = some (cardTeam 0 goodCard) ∧ (∀ x ∈ cpyBase.stores, x.gid ≠ cpyGroup.gid)
      ∧ cpyGroup.acc = [] ∧ Usable cpyGroup (usesS [] [63]) ∧ (cpyGroup.sreg 63).msb = true ∧ (cardTeam 0 goodCard).producer = cpyGroup.grp)
    ∧ (cpyBase.cardInWindow cpyGroup ((cpyGroup.sreg 63).toNat % 2 ^ 31) = .ok ⟨.win 1, 0⟩ 0 ∧ cpyBase.readCard cpyGroup ⟨.win 1, 0⟩ = goodCard)
    ∧ (cardOk goodCard = true ∧ cpyBase.mcastOk (cardTeam 0 goodCard) goodCard = true ∧ cpyBase.keyOk 0 goodCard = true
      ∧ cpyBase.areaAbroad cpyGroup goodCard = false ∧ cpyBase.areaFails cpyGroup goodCard = [] ∧ cpyBase.codeFails cpyGroup goodCard = [] ∧ ((cardTeam 0 goodCard).token 7).state ≠ 1)
    ∧ (cardOk badCard = false ∧ (cpyState (cardTeam 0 badCard) cpyGroup).readCard cpyGroup ⟨.win 1, 0⟩ = badCard)
    ∧ ((cpyGroup.sreg 62).msb = false ∧ (cpyGroup.breg 0).state = .invalid ∧ (cpyGroup.breg 7).state = .valid
      ∧ cpyBase.cardInMemory cpyGroup (cpyGroup.breg 7) (cpyGroup.sreg 62).toNat = .ok ⟨.dev, 0x10040⟩ 0x10040
      ∧ cpyBase.readCard cpyGroup ⟨.dev, 0x10040⟩ = goodCard)
    ∧ (Issues (cpyState (cardTeam 3 goodCard) cpyGroup) tIssue cpyGroup ∧ ((cardTeam 3 goodCard).token 7).state = 3
      ∧ (cpyState (cardTeam 3 goodCard) cpyGroup).cardInWindow cpyGroup ((cardTeam 3 goodCard).token 7).cardLoc = .ok ⟨.win 1, 0⟩ 0
      ∧ ((cardTeam 3 goodCard).token 7).card = goodCard ∧ (cpyState (cardTeam 3 goodCard) cpyGroup).job? 4 = some oldJob)
    ∧ ((cardTeam 3 badCard).token 7).card ≠ badCard ∧ { cardTeam 0 goodCard with producer := 255 }.producer ≠ cpyGroup.grp :=
  ⟨⟨⟨rfl, rfl, rfl, rfl⟩, rfl, by decide, rfl, usable_of (by decide), by decide, rfl⟩, ⟨rfl, by decide⟩, by decide, by decide,
    ⟨by decide, rfl, rfl, rfl, by decide⟩, ⟨⟨rfl, rfl, rfl, rfl⟩, rfl, rfl, rfl, rfl⟩, by decide, by decide⟩
/-- The token is BUSY, and the group goes on after the check phase (R130, R180). -/
theorem test_cpy_takes_token :
    (match exec (.cpy 7 0 63 0 0) cpyBase with
      | .next t => ((t.team? 1).map fun u => (u.token 7).state, (t.group? 2).map fun g => g.wait)
      | _ => (none, none)) = (some 1, some (.check 4 4 [])) := by decide

def planeGroup : Group := { mGroup .valid with v := wordGroup.v.set 126 (List.replicate 32 1) }
theorem witness_planeInstructions :
    (Issues (atTeam wTeam planeGroup) tIssue planeGroup ∧ (∀ x ∈ (atTeam wTeam planeGroup).stores, x.gid ≠ planeGroup.gid) ∧ planeGroup.acc = []
      ∧ Usable planeGroup (usesV [127] [126]) ∧ Usable planeGroup (usesV [] [127, 126])
      ∧ Usable planeGroup { vN := [126, 127, 126], sN := [], vR := [126], sR := [] })
    ∧ ((atTeam wTeam planeGroup).region planeGroup 7 = some plane0 ∧ (∀ l ∈ lanesOf planeGroup.exec, (planeGroup.vlane 126 l).toNat < plane0.size)
      ∧ plane0.members.testBit planeGroup.grp = true ∧ (atTeam wTeam planeGroup).awake? 2 = some planeGroup)
    ∧ (atTeam wTeam planeGroup).region planeGroup 6 = none
    ∧ { plane0 with members := 2 }.members.testBit planeGroup.grp = false :=
  ⟨⟨⟨rfl, rfl, rfl, rfl⟩, by decide, rfl, usable_of (by decide), usable_of (by decide), usable_of (by decide)⟩, ⟨rfl, by decide, by decide, rfl⟩, rfl, by decide⟩

/-- A matrix stream of fmt E4M3 by E4M3 with its fragments, and the issue of its next word. -/
def mStream : Stream :=
  { pc := 0, fmt := 0x33, loops := [], obs := List.replicate 16 0, wait := .none, ended := false, stopped := none, lastIssue := none, mmasNow := 0,
    othersNow := 0, inFlight := [], readyAt := 0, waiting := none, passed := 0, prio := 0 }
def mTeam (m : Stream) : Team :=
  { wordTeam true with stream := some m, frags := [⟨0, 0, 0, 0⟩, ⟨0, 1, 8, 0⟩, ⟨1, 1, 8, 0⟩] }
def mIssue : Issue := { who := .stream 1, sc := 0, len := 4, ext := none }
def mState (m : Stream) : State := { atTeam (mTeam m) fGroup with issue := some mIssue }
theorem witness_streamWords :
    (StreamIssues (mState mStream) mIssue (mTeam mStream) mStream ∧ (mState mStream).teamGroup 1 (0#8).toNat = some fGroup ∧ ¬(mTeam mStream).tsize ≤ (0#8).toNat
      ∧ (mTeam mStream).tsize ≤ (1#8).toNat)
    ∧ ((mStream.pc + 4 * (0#12).zeroExtend 32).toNat < (mStream.pc + 4).toNat ∧ ¬(mStream.pc + 4 * (1#12).zeroExtend 32).toNat < (mStream.pc + 4).toNat)
    ∧ StreamIssues (mState { mStream with loops := List.replicate 4 (loopEntry 1) }) mIssue (mTeam { mStream with loops := List.replicate 4 (loopEntry 1) })
        { mStream with loops := List.replicate 4 (loopEntry 1) }
    ∧ ((mTeam mStream).bar 15).seen = mStream.obs.getD 15 0
    ∧ StreamIssues (mState { mStream with obs := List.replicate 16 7 }) mIssue (mTeam { mStream with obs := List.replicate 16 7 }) { mStream with obs := List.replicate 16 7 }
    ∧ ((mTeam mStream).bar 15).seen ≠ (List.replicate 16 (7 : Word)).getD 15 0 :=
  ⟨⟨⟨rfl, rfl, rfl, rfl⟩, rfl, by decide, by decide⟩, by decide, ⟨rfl, rfl, rfl, rfl⟩, by decide, ⟨rfl, rfl, rfl, rfl⟩, by decide⟩
def leasedElsewhere : State := { mState mStream with cores := [{ Core.fresh 0 with lease := ⟨some 5, 0, 0, 0, none, 0⟩ }] }
def busyStream : Stream := { mStream with inFlight := [⟨15, 0, false, 40⟩] }
def busyState : State := { atTeam (mTeam busyStream) fGroup with clk := 8 }
theorem witness_matrixWords :
    (StreamIssues (mState mStream) mIssue (mTeam mStream) mStream ∧ ((mState mStream).takeLease (mTeam mStream)).isSome = true
      ∧ ¬(mmaPair (fmtAF mStream.fmt) (fmtBF mStream.fmt) = false ∨ ((mTeam mStream).frag 0).side ≠ 0 ∨ ((mTeam mStream).frag 1).side ≠ 1
        ∨ ((mTeam mStream).frag 0).shape ≠ fragShape (fmtAF mStream.fmt) ∨ ((mTeam mStream).frag 1).shape ≠ fragShape (fmtBF mStream.fmt))
      ∧ (mState mStream).teamGroup 1 ((mTeam mStream).frag 0).group = some fGroup ∧ (mState mStream).teamGroup 1 ((mTeam mStream).frag 1).group = some fGroup)
    ∧ (((mTeam mStream).frag 2).shape ≠ fragShape (fmtBF mStream.fmt) ∧ mmaPair 3 1 = false)
    ∧ (StreamIssues leasedElsewhere mIssue (mTeam mStream) mStream ∧ leasedElsewhere.takeLease (mTeam mStream) = none)
    ∧ (Issues (atTeam (mTeam mStream) fGroup) tIssue fGroup ∧ (mTeam mStream).stream ≠ none ∧ (atTeam (mTeam mStream) fGroup).tileBusy fGroup 15 = false
      ∧ Usable fGroup (usesV [127] []) ∧ Usable fGroup (usesV [] [127]))
    ∧ (Issues busyState tIssue fGroup ∧ busyState.tileBusy fGroup 15 = true)
    ∧ (wordTeam false).stream = none
    ∧ (Usable { fGroup with fmt := 0x600 } (usesV [126, 127] []) ∧ fmtCF 0x600 = 6 ∧ fmtCF 0x500 = 5 ∧ (blockAny true fGroup.exec 0 = true ∧ blockAll true fGroup.exec 0 = false)
      ∧ blockAll true 0xFFFFFFFF 0 = true ∧ fmtCF 0x700 = 7 ∧ fmtCF 0x100 = 1 ∧ fmtCF 0x800 = 8 ∧ fmtCF 0 = 0) :=
  ⟨⟨⟨rfl, rfl, rfl, rfl⟩, rfl, by decide, rfl, rfl⟩, by decide, ⟨⟨rfl, rfl, rfl, rfl⟩, rfl⟩, ⟨⟨rfl, rfl, rfl, rfl⟩, by decide, by decide, usable_of (by decide), usable_of (by decide)⟩,
    ⟨⟨rfl, rfl, rfl, rfl⟩, by decide⟩, rfl, ⟨usable_of (by decide), by decide⟩⟩
theorem test_mzero_clears :
    (match exec (.mzero 15) { mState mStream with teams := [{ mTeam mStream with tiles := List.replicate 16 (List.replicate 32 (List.replicate 32 5)) }] } with
      | .next t => (t.team? 1).map fun u => (vget ((u.tile 15).getD 31 []) 31, vget ((u.tile 14).getD 31 []) 31)
      | _ => none) = some (0, 5) := by decide

/-! #### The end of a program, launches and guards -/

def heldTeam : Team := { wordTeam false with held := [heldKick 0] }
def guardTeam (v : Nat) : Team := { wordTeam false with guards := List.replicate 16 v }
theorem witness_endAndCommit :
    (Issues (at_ wordGroup) tIssue wordGroup ∧ (at_ wordGroup).team? 1 = some (wordTeam false)
      ∧ (at_ { wordGroup with wait := .commit ((at_ wordGroup).issueTurn wordGroup) true }).team? 1 = some (wordTeam false)
      ∧ (at_ { wordGroup with wait := .commit ((at_ wordGroup).issueTurn wordGroup) true }).group? 2
        = some { wordGroup with wait := .commit ((at_ wordGroup).issueTurn wordGroup) true })
    ∧ ((∀ x ∈ [heldKick 0], x.turn ≤ (heldKick 1).turn) ∧ Issues (atTeam heldTeam wordGroup) tIssue wordGroup)
    ∧ (Usable wordGroup (usesS [] (pairRegs 62 ++ [63])) ∧ ¬10 ≤ ({ wordGroup with nest := 9 } : Group).nest ∧ 10 ≤ ({ wordGroup with nest := 10 } : Group).nest
      ∧ ¬64 ≤ heldTeam.held.length ∧ 64 ≤ fullTeam.held.length)
    ∧ ((guardTeam 1).guards.getD 15 0 = (1#2).toNat ∧ (guardTeam 0).guards.getD 15 0 = 0 ∧ (guardTeam 2).guards.getD 15 0 ≠ 0 ∧ (guardTeam 2).guards.getD 15 0 ≠ (1#2).toNat)
    ∧ (((at_ wordGroup).release 2 1 3).group? 2 = some wordGroup ∧ ((at_ wordGroup).release 2 1 3).team? 1 = some (wordTeam false)
      ∧ ((at_ wordGroup).release 2 1 3).performedAt 2 1 3 = true) :=
  ⟨⟨issues_at rfl rfl, rfl, rfl, rfl⟩, ⟨by decide, ⟨rfl, rfl, rfl, rfl⟩⟩, ⟨usable_of (by decide), by decide⟩, by decide,
    ⟨rfl, rfl, by decide⟩⟩
theorem test_launch_is_held :
    (match exec (.launch 6 2) (at_ sGroup) with
      | .next t => (t.team? 1).map fun u => u.held.map HeldEntry.what
      | _ => none) = some [.kick [(0x1FFFFFFFF, 5)] 0] := by decide
theorem test_guard_set_and_clear :
    (match exec (.gset 15 2) (at_ wordGroup), exec (.gclr 15) (atTeam (guardTeam 2) wordGroup) with
      | .next t, .next u => ((t.team? 1).map fun x => x.guards.getD 15 0, (u.team? 1).map fun x => x.guards.getD 15 3)
      | _, _ => (none, none)) = (some 2, some 0) := by decide

/-! ### States that meet the hypotheses of the statements about hardware steps -/

/-- A state in which a hardware step is taken for an object `a` and its part `b`. -/
def ev (a b : Nat) (s : State) : State := { s with arg := { EvArg.zero with a := a, b := b } }

/-- A store of group 2 to the last byte below 4 GiB, and an access of it with one lane. -/
def tStore : Store :=
  { sid := 5, gid := 2, ctx := 0, acc := 5, lane := 31, tgt := .mem ⟨.dev, 0xFFFFFFFF⟩, data := [1], reach := .none, rel := none,
    cluster := 0, die := 0, epoch := 0, passC := 0, passD := 0 }
def tLane (sp : Space) : LaneReq := { lane := 31, loc := ⟨sp, 0x10000⟩, va := 0x10000, x := 0, y := 0, finished := false, poisoned := false, lost := none, stale := false }
def tAcc (k : AKind) (sp : Space) : Access := { Access.make 5 wordGroup 0 k 0 with width := 4, lanes := [tLane sp] }
def accGroup (k : AKind) (sp : Space) : Group := { wordGroup with acc := [tAcc k sp] }
def accState (k : AKind) (sp : Space) : State := ev 5 31 (at_ (accGroup k sp))
def checkGroup (fails : List LaneFail) : Group := { wordGroup with wait := .check 8 4 fails }
def tFail : LaneFail := { lane := 31, va := 0, cause := cProtection, access := 0, width := 4, firstTouch := false, parkable := false, mapId := 0 }
def fillGroup : Group := { wordGroup with b := wordGroup.b.set 7 (bReg .filling .dev), acc := [{ Access.make 5 wordGroup 0 .xlate 0 with dst2 := 7 }] }
def landGroup : Group := { wordGroup with landing := [⟨true, 3, 1, [7], 8⟩] }

theorem witness_orderingSteps :
    ((ev 5 0 { at_ wordGroup with stores := [tStore] }).stores.find? (fun y => y.sid == 5) = some tStore
      ∧ (ev 5 0 { at_ wordGroup with stores := [tStore] }).mayPerform tStore = true)
    ∧ (∀ k ∈ [AKind.tag, .pld, .ld, .sld, .sld64, .spld, .sldacq], ∀ sp ∈ [Space.dev, .kick 0],
        (accState k sp).access? 5 = some (accGroup k sp, tAcc k sp) ∧ (tAcc k sp).lanes.find? (fun y => y.lane == 31) = some (tLane sp)
        ∧ (accState k sp).joinClear 2 0 = true ∧ (accState k sp).laneAway 0 (tLane sp) = false
        ∧ (accGroup k sp).accessBefore 5 (tLane sp).loc (tAcc k sp).width = false)
    ∧ (∀ k ∈ [AKind.atom, .satadd, .satcas, .spatadd, .spataddF], (tAcc k .dev).pendingAtomic = true
        ∧ (accState k .dev).mayAtomic (accGroup k .dev) (tAcc k .dev) (tLane .dev) = true)
    ∧ (cached .dev = true ∧ (at_ wordGroup).enabled (3 * 40 + 35) = true ∧ (at_ wordGroup).enabled 36 = false
      ∧ (at_ wordGroup).anyPoison ⟨.dev, 0x10000⟩ 16 = false) := by
  decide
def tBlock : L1Block := { core := 35, loc := ⟨.dev, 0x10000⟩, bytes := List.replicate 16 0, sids := List.replicate 16 0, took := List.replicate 16 0 }
theorem witness_orderingSteps_others :
    (({ at_ wordGroup with l1 := [tBlock], arg := { EvArg.zero with a := 35, loc := ⟨.dev, 0x1000F⟩ } } : State).l1.any
        (fun y => y.core == 35 && decide (y.loc = blockOf ⟨.dev, 0x1000F⟩)) = true)
    ∧ ((tAcc .spollne .dev).issued + 1880 ≤ ({ accState .spollne .dev with clk := 1880 } : State).clk
        ∧ (accGroup .spollne .dev).accessBefore 5 (tLane .dev).loc 4 = false ∧ (accState .spollne .dev).laneAway 0 (tLane .dev) = false
        ∧ (accState .spollne .dev).loadLane (accGroup .spollne .dev) (tAcc .spollne .dev) (tLane .dev) false
          = some [(0, 0), (0, 0), (0, 0), (0, 0)]
        ∧ (({ accState .spollne .dev with clk := 256 } : State).clk - (tAcc .spollne .dev).issued) % 256 = 0)
    ∧ ((∀ f ∈ [[], [tFail]], (ev 2 0 { at_ (checkGroup f) with clk := 8 }).group? 2 = some (checkGroup f)
        ∧ (checkGroup f).wait = .check 8 4 f ∧ (ev 2 0 { at_ (checkGroup f) with clk := 8 }).retranslate (checkGroup f) = some (ev 2 0 { at_ (checkGroup f) with clk := 8 }, [])
        ∧ (checkGroup f).checked = none))
    ∧ ((ev 5 0 (at_ fillGroup)).access? 5 = some (fillGroup, { Access.make 5 wordGroup 0 .xlate 0 with dst2 := 7 })
        ∧ (fillGroup.breg 7).state = .filling ∧ (at_ fillGroup).translate 0 (fillGroup.breg 7).base.toNat ≠ .moving)
    ∧ 0x200 ∉ ((at_ wordGroup).core 0).icache
    ∧ ((ev 2 0 { at_ landGroup with clk := 8 }).group? 2 = some landGroup ∧ landGroup.landing.any (fun w => decide (w.due ≤ 8)) = true) := by
  decide
theorem test_perform_reaches_home :
    ((((at_ wordGroup).performOne { tStore with reach := .die }).byteAt ⟨.dev, 0xFFFFFFFF⟩),
      ((at_ wordGroup).performOne tStore).byteAt ⟨.dev, 0xFFFFFFFF⟩) = (1, 0) := by decide
theorem test_check_phase_end :
    ((match exec .checkPhaseEnd (ev 2 0 { at_ (checkGroup []) with clk := 8 }) with
      | .next t => (t.group? 2).map Group.pc
      | _ => none),
     (match exec .checkPhaseEnd (ev 2 0 { at_ (checkGroup [tFail]) with clk := 8 }) with
      | .next t => (t.ctx? 0).map Ctx.endCode
      | _ => none)) = (some 4, some 0x20) := by decide

/-! #### Groups -/

def waitGroup (w : Wait) : Group := { wordGroup with wait := w }
def tPoison : PoisonRec :=
  { cause := cPoison, path := 0, acc := 5, pc := 0, lanes := [tLane .dev], scalar := false, access := 0, width := 4 }
def tPend : PendTrap := { code := cProtection, emask := 1, frec := 0, recs := [], perLane := false }
/-- A grid of one team with grid barriers. -/
def tLaunch : Launch :=
  { lid := 0, ctx := 0, die := 0, origin := .program 3, prog := some 3, roles := [{ Role.none with budget := 16, threads := 32 }], sheaf := false, gbar := true,
    nx := 1, ny := 1, nz := 1, seed := 0, prio := 0, depth := 0, qh := List.replicate 16 0, codeBase := wordVa, codeSize := 8, frags := [], feet := [],
    places := [], chain := none, form := none, total := 1, more := 0, span := [], parts := [], next := 1, again := [], started := true, dones := [], reissue := 0, gbDies := List.replicate 4 [] }
def gridState (l : Launch) (t : Team) (g : Group) : State := { atTeam t g with launches := [l] }
def arrivedDies : Launch := { tLaunch with gbDies := (List.replicate 4 []).set 3 [0] }
def barTeam : Team := { wordTeam false with bars := List.replicate 16 { Barrier.fresh 1 with arrived := 1 } }
def openedTeam : Team := { wordTeam false with bars := List.replicate 16 { Barrier.fresh 1 with gen := 1, opens := [⟨8, true, 1⟩] } }
def tPlane (rule : Nat) (c : Option (Word × Word)) : Plane :=
  { id := 3, size := 1, carry := 0, rule := rule, members := 1, present := [], next := [{ w := 0, x := 1, key := 0, coll := c }], steps := 0 }
def planeTeam' (rule : Nat) (c : Option (Word × Word)) : Team := { wordTeam false with planes := [tPlane rule c] }
def tStream : Stream :=
  { pc := 0, fmt := 0, loops := [], obs := List.replicate 16 0, wait := .none, ended := false, stopped := none, lastIssue := none, mmasNow := 0,
    othersNow := 0, inFlight := [], readyAt := 0, waiting := none, passed := 0, prio := 0 }
def streamTeam (tid : Nat) (m : Stream) : Team := { wordTeam false with tid := tid, stream := some m }
def tMma : MmaOp := { tile := 15, issued := 0, zero := false, due := 64 }

/-- A word of an opcode that no table gives, and one of the matrix stream's opcodes that no table gives. -/
def badWord (b : Nat) (g : Group) : State := { at_ g with dev := cellsPutAll [] wordVa (leBytes 4 b) }
def noGroup (b : Nat) : State :=
  { at_ wordGroup with issue := some { tIssue with who := .stream 1 }, groups := [], teams := [wordTeam true], dev := cellsPutAll [] wordVa (leBytes 4 b) }
theorem witness_groupSteps_illegal :
    (∀ b ∈ [0xFFFFFFFF, 0xE1], Issues (badWord b wordGroup) tIssue wordGroup
      ∧ (badWord b wordGroup).groupBytes wordGroup wordGroup.pc = .ok (leBytes 4 b))
    ∧ (∀ b ∈ [0xFFFFFFFF, 0xE1], StreamIssues (noGroup b) { tIssue with who := .stream 1 } (wordTeam true) tStream ∧ (noGroup b).streamWord (wordTeam true) tStream = b)
    ∧ (0xFFFFFFFF % 2 == 1 && fld 0xFFFFFFFF 3 5 == 0x1C) = false ∧ (0xE1 % 2 == 1 && fld 0xE1 3 5 == 0x1C) = true := by
  refine ⟨?_, ?_, rfl, rfl⟩ <;> intro b hb <;> simp only [List.mem_cons, List.not_mem_nil, or_false] at hb <;> rcases hb with rfl | rfl
  · exact ⟨⟨rfl, rfl, rfl, rfl⟩, rfl⟩
  · exact ⟨⟨rfl, rfl, rfl, rfl⟩, rfl⟩
  · exact ⟨⟨rfl, rfl, rfl, rfl⟩, rfl⟩
  · exact ⟨⟨rfl, rfl, rfl, rfl⟩, rfl⟩
theorem witness_groupSteps_waits :
    ((ev 2 0 { at_ (waitGroup (.dly 8)) with clk := 8 }).awake? 2 = some (waitGroup (.dly 8)) ∧ (wordTeam false).state = .running)
    ∧ ((ev 2 0 { at_ (waitGroup (.yield 0)) with clk := 32 }).awake? 2 = some (waitGroup (.yield 0)))
    ∧ ((ev 2 0 { at_ (waitGroup (.wave 8 3)) with clk := 8 }).awake? 2 = some (waitGroup (.wave 8 3)))
    ∧ ((ev 1 15 (atTeam barTeam wordGroup)).awakeTeam? 1 = some barTeam ∧ (ev 1 15 (atTeam barTeam wordGroup)).barrierReady barTeam 15 = true)
    ∧ (({ ev 1 15 (atTeam openedTeam wordGroup) with clk := 8 } : State).awakeTeam? 1 = some openedTeam
      ∧ ({ ev 1 15 (atTeam openedTeam wordGroup) with clk := 8 } : State).barrierReady openedTeam 15 = false
      ∧ (openedTeam.bar 15).opens.find? (fun o => decide (o.due ≤ 8)) = some ⟨8, true, 1⟩)
    ∧ ((ev 2 0 (at_ (waitGroup .endDrain))).awake? 2 = some (waitGroup .endDrain))
    ∧ ((ev 2 0 (at_ { waitGroup .endDrain with poison := [tPoison] })).awake? 2 = some { waitGroup .endDrain with poison := [tPoison] })
    ∧ ((ev 2 0 (at_ { waitGroup .endDrain with pend := [tPend] })).awake? 2 = some { waitGroup .endDrain with pend := [tPend] }) := by
  decide
theorem witness_groupSteps_grid :
    ((gridState tLaunch (wordTeam false) (waitGroup (.gbar 3))).launch? 0 = some tLaunch ∧ 0 ∉ tLaunch.gbDies.getD 3 []
      ∧ (gridState tLaunch (wordTeam false) (waitGroup (.gbar 3))).dieTeams 0 0 = [wordTeam false]
      ∧ (gridState tLaunch (wordTeam false) (waitGroup (.gbar 3))).teamAtGbar (wordTeam false) 3 = true)
    ∧ ((gridState arrivedDies (wordTeam false) (waitGroup (.gbar 3))).launch? 0 = some arrivedDies ∧ arrivedDies.gbar = true
      ∧ (waitGroup (.gbar 3)).wait = .gbar 3 ∧ (wordTeam false).tid = (waitGroup (.gbar 3)).tid ∧ (wordTeam false).state ≠ .saved
      ∧ dieOfCore (wordTeam false).home ∈ arrivedDies.gbDies.getD 3 [])
    ∧ (∀ r ∈ [(0, none), (5, some (7, 8))], (atTeam (planeTeam' r.1 r.2) (waitGroup (.pstep 3 (some 0)))).awakeTeam? 1 = some (planeTeam' r.1 r.2)
      ∧ (planeTeam' r.1 r.2).plane? 3 = some (tPlane r.1 r.2) ∧ (tPlane r.1 r.2).member (waitGroup (.pstep 3 (some 0))) = true
      ∧ (waitGroup (.pstep 3 (some 0))).wait = .pstep (tPlane r.1 r.2).id (some 0) ∧ (planeTeam' r.1 r.2).home = 0) := by
  decide
def leaseState (ts : List Team) : State :=
  { State.reset with ctxs := [wordCtx], teams := ts, cores := [{ Core.fresh 0 with lease := ⟨some 1, 0x10000, 0, 0x1000, some 5, 0⟩ }] }
theorem witness_groupSteps_streams :
    (({ leaseState [streamTeam 1 { tStream with inFlight := [tMma] }] with clk := 64 } : State).team? 1 = some (streamTeam 1 { tStream with inFlight := [tMma] })
      ∧ [tMma].find? (fun o => decide (o.due ≤ 64)) = some tMma)
    ∧ ((leaseState [streamTeam 1 tStream]).leaseOver ((leaseState [streamTeam 1 tStream]).core 0).lease = true
      ∧ (leaseState [streamTeam 1 tStream]).leaseQueue 0 (some 1) = [])
    ∧ (leaseState [streamTeam 1 tStream, streamTeam 2 { tStream with waiting := some 3 }]).leaseQueue 0 (some 1)
      = [(2, { tStream with waiting := some 3 })] := by
  decide
/-- Links, and pops of a batch, of a link and of a queue. -/
def dueLink : LinkEntry := { linkEntry with readyAt := 8 }
def popAcc (k : AKind) (b : QKind) : Access :=
  { Access.make 5 wordGroup 4 k 0 with op := 15, bind := { kind := b, n2 := 0, handle := (if b = .chain then 0 else 0x10000005), aux := 0 } }
def popGroup (k : AKind) (b : QKind) : Group := { chainGroup 0 with acc := [popAcc k b] }
def fullQueue : Queue := { tQueue .msg 1 with entries := [⟨0, [List.replicate 32 42], [], 0⟩], pops := [5] }
def popState (k : AKind) (b : QKind) : State :=
  { chainState (tChain true [linkEntry]) (popGroup k b) with
    queues := [fullQueue], batches := [{ bid := 0, queue := 5, all := [[1, 2, 3, 4]], left := [[1, 2, 3, 4]] }] }
theorem witness_groupSteps_pops :
    ((ev 9 0 { chainState (tChain true [dueLink]) wordGroup with clk := 8 }).chain? 9 = some (tChain true [dueLink])
      ∧ [dueLink].findIdx? (fun e => decide (e.readyAt ≠ 0) && decide (e.readyAt ≤ 8)) = some 0)
    ∧ (∀ k ∈ [AKind.qget, .qtry, .qtryp], ∀ b ∈ [QKind.batch, .chain, .msg, .stream],
        (popState k b).access? 5 = some (popGroup k b, popAcc k b) ∧ (popGroup k b).popBefore (popAcc k b) = false
        ∧ (popState k b).joinClear 2 0 = true)
    ∧ ((popState .qget .chain).popLink (popGroup .qget .chain) (popAcc .qget .chain)).isSome = true
    ∧ ((popState .qget .msg).popQueue (popGroup .qget .msg) (popAcc .qget .msg)).isSome = true
    ∧ (popState .qget .msg).queueOf (popAcc .qget .msg).bind.handle = some fullQueue ∧ (popState .qget .msg).firstPop fullQueue = some 5 := by
  decide
theorem test_barrier_opens :
    (match exec .barrierOpen (ev 1 15 (atTeam barTeam wordGroup)) with
      | .next t => (t.team? 1).map fun x => ((x.bar 15).gen, (x.bar 15).arrived)
      | _ => none) = some (1, 0) := by decide
theorem test_swap_applies :
    (match exec .swap { ev 1 3 (atTeam (planeTeam' 0 none) (waitGroup (.pstep 3 (some 0)))) with clk := 1 } with
      | .next t => (t.team? 1).map fun x => x.planes.map fun p => (p.present, p.steps, p.next.length)
      | _ => none) = some [([(0, 1)], 1, 0)] := by decide

/-! #### Copy jobs -/

def jobIn (st : JState) (k : Nat) (src : Nat) : Job :=
  { oldJob with jid := 4, state := st, runsRead := if k = 2 then [0] else [], runsFaulted := [],
                runsDone := if k = 3 then [0] else [],
                bufs := if k = 2 then [(0, List.replicate 16 7, [])] else [], card := [0xFF00000F, src, 0x10200, 0x10400, 0, 0, 0, 0] }
def jobState (j : Job) : State := ev 4 0 { at_ wordGroup with jobs := [j], cores := [{ Core.fresh 0 with order := [4] }] }
/-- The same with a poisoned granule in the run and its lines tagged with their owner. -/
def badSpan (j : Job) : State := { jobState j with devPoison := [0x10100], tags := [(wordVa, 0x10000, 0)] }
/-- The same with its page in host memory, which a COPY may not read. -/
def hostSpan (j : Job) : State := { jobState j with pages := [{ wordPage with sp := .host }] }
theorem witness_jobSteps :
    ((jobState (jobIn .waiting 0 0x10100)).job? 4 = some (jobIn .waiting 0 0x10100)
      ∧ ((jobState (jobIn .waiting 0 0x10100)).core 0).order.takeWhile (· ≠ 4) = []
      ∧ (jobState (jobIn .waiting 0 0x10100)).startMoves (jobIn .waiting 0 0x10100) = false)
    ∧ ((jobState (jobIn .running 0 0x10100)).job? 4 = some (jobIn .running 0 0x10100) ∧ (jobIn .running 0 0x10100).needs 0 = true
      ∧ (runOffsets (cardLoops (jobIn .running 0 0x10100).card) 0).2.2 = false)
    ∧ ((∃ ps, (jobState (jobIn .running 0 0x10100)).srcSpan (jobIn .running 0 0x10100) 0 = .ok ps
        ∧ (jobState (jobIn .running 0 0x10100)).spanPoisons 0 ps = true)
      ∧ (∃ ps, (badSpan (jobIn .running 0 0x10100)).srcSpan (jobIn .running 0 0x10100) 0 = .ok ps
        ∧ (badSpan (jobIn .running 0 0x10100)).spanPoisons 0 ps = false)
      ∧ (jobState (jobIn .running 0 0x30100)).srcSpan (jobIn .running 0 0x30100) 0 = .fault [0x30100]
      ∧ (hostSpan (jobIn .running 0 0x1FFF8)).srcSpan (jobIn .running 0 0x1FFF8) 0 = .wrong [0x20000])
    ∧ ((jobState (jobIn .running 2 0x10100)).job? 4 = some (jobIn .running 2 0x10100)
      ∧ (jobIn .running 2 0x10100).bufs.find? (fun y => y.1 == 0) = some (0, List.replicate 16 7, []))
    ∧ ((jobState (jobIn .running 3 0x10100)).job? 4 = some (jobIn .running 3 0x10100) ∧ cardCrypt (jobIn .running 3 0x10100).card = 0
      ∧ ∀ r < cardRuns (jobIn .running 3 0x10100).card, r ∈ (jobIn .running 3 0x10100).runsDone) ∧ (jobState (jobIn .running 3 0x10100)).endMoves (jobIn .running 3 0x10100) = false :=
  ⟨⟨rfl, rfl, rfl⟩, ⟨rfl, by decide, by decide⟩, ⟨⟨_, rfl, by decide⟩, ⟨_, rfl, by decide⟩, rfl, rfl⟩, ⟨rfl, rfl⟩, ⟨rfl, rfl, by decide⟩, by decide⟩


/-! #### Records, launches and chains -/

/-- A body of 192 bytes from its fields: offset, bytes and value. -/
def bodyOf (fs : List (Nat × Nat × Nat)) : List Byte :=
  fs.foldl (fun b f => b.take f.1 ++ leBytes f.2.1 f.2.2 ++ b.drop (f.1 + f.2.1)) (List.replicate 192 0)
/-- The record of slot 5 as its next step begins, and a state in which the step is taken for it. -/
def tRec (kind sub : Nat) (goal : Goal) (cursor : Nat) (body : List Byte) : Rec :=
  { Rec.fresh 5 with live := true, kind := kind, sub := sub, goal := goal, cursor := cursor, phase := .applying, id := 9, body := body }
def recState (r : Rec) : State := ev 5 0 { at_ wordGroup with recs := [r] }

/-- A small image at 0x10000 (Tables E.5 to E.7): one kernel of one group with 16 registers, and one variant for every device. -/
def imageBytes : List Byte :=
  bodyOf [(0, 4, 0x31495849), (4, 2, 1), (6, 2, 1), (8, 4, 0x80), (0xC, 4, 8), (0x10, 4, 0x100), (0x14, 4, 0x100), (0x18, 4, 0x40), (0x22, 2, 1),
    (0x24, 4, 0xA0), (0x45, 1, 1), (0x46, 2, 32), (0xA8, 1, 1)]
def programBody : List Byte := bodyOf [(0, 8, 0x10000), (0x10, 2, 1), (0x12, 2, 1), (0x14, 2, 1)]
def withImage (s : State) : State := { s with dev := cellsPutAll s.dev wordVa imageBytes }

/-- A launch by a kick, of one team. -/
def kickLaunch : Launch := { tLaunch with origin := .kick 0 0 0 0, gbar := false, next := 0, started := false }
/-- The launch when a die has claimed its one team already, or none; and one of 20 teams that three dies take eight at a time. -/
def spread (done : Nat) (again : List Nat) : Launch :=
  { kickLaunch with span := [0], parts := [{ die := 0, start := 0, next := done, stop := 1 }], next := 1, again := again }
def batched (next : Nat) : Launch :=
  { kickLaunch with total := 20, span := [0, 2, 3], parts := [{ die := 0, start := 0, next := 3, stop := 8 }], next := next }
def poolState (l : Launch) : State :=
  { State.reset with
    ctxs := [{ wordCtx with blockCount := 1 }], pages := [wordPage], launches := [l], arg := { EvArg.zero with pairs := [(3, 3)], nats := [0] } }
theorem witness_launchSteps_tickets :
    (∀ x ∈ [(kickLaunch, kickLaunch.withSpan [0]), ({ kickLaunch with sheaf := true }, { kickLaunch with sheaf := true }),
        (spread 0 [], spread 0 []), (spread 1 [0], spread 1 [0])],
      (poolState x.1).launch? 0 = some x.1 ∧ (poolState x.1).spanned x.1 [0] = some x.2 ∧ x.2.open_ = true ∧ (poolState x.1).launchReady x.2 = true
      ∧ (poolState x.1).launchPaused x.2 = false ∧ (poolState x.1).offeredAfter x.2 = false ∧ x.2.todo [(3, 3)] = [0]
      ∧ (x.2.claimAll [(0, 3, 3)]).isSome = true ∧ ((poolState x.1).placeAll x.2 [(0, 3, 3)]).isSome = true)
    ∧ (0 < [0, 3].length ∧ [0, 3].length ≤ 2)
    ∧ ((batched 8).dealt = true ∧ (batched 8).next ∉ (batched 8).again ∧ 3 ∈ (batched 8).span ∧ (batched 8).next < (batched 8).total
      ∧ (∀ p ∈ (batched 8).parts, p.die = 3 → p.stop ≤ p.next) ∧ ((batched 8).claim 8 3).isSome = true)
    ∧ ({ poolState kickLaunch with teams := [{ wordTeam false with state := .placed }] } : State).launchPaused kickLaunch = false := by
  decide
theorem test_team_starts :
    (match exec .ticketClaim (poolState kickLaunch) with
      | .next t => (match exec .teamStart { t with arg := EvArg.zero } with
        | .next u => (u.teams.map fun x => (x.home, x.state), u.groups.map fun g => (g.v.length, g.sreg 1, g.sreg 2, g.slot))
        | _ => ([], []))
      | _ => ([], [])) = ([(3, .running)], [(16, 0, 1, 0)]) := by decide

def programRec (form : Nat) : Rec :=
  { tRec 4 0 .create 4 (bodyOf [(0, 8, 0x10000), (8, 4, form * 0x10000), (0x10, 2, 1), (0x12, 2, 1), (0x14, 2, 1)]) with
    everConverged := true, phase := .converged, launchBody := bodyOf [(0, 8, 0x10000), (8, 4, form * 0x10000), (0x10, 2, 1), (0x12, 2, 1), (0x14, 2, 1)] }
def fireQueue : Queue :=
  { tQueue .expert 2 with slot := 6, prog := 9, batch := 1, fill := 1, ageT := 1, entries := [⟨0, [], [1, 2, 3, 4], 0⟩] }
def fireState : State := withImage { at_ wordGroup with recs := [programRec 0], queues := [fireQueue], clk := 235 }
/-- A program of nine teams by its record, which a firing does not take. -/
def unfitRec : Rec := { programRec 0 with launchBody := bodyOf [(0, 8, 0x10000), (0x10, 2, 9), (0x12, 2, 1), (0x14, 2, 1)] }
def unfitState : State := { fireState with recs := [unfitRec] }
def tToken : RToken := { seq := 0, pos := 0, k := 1, got := [(0, 7)], failed := false }
def reorderQueue : Queue := { tQueue .reorder 4 with slot := 6, nseq := 1, seqVa := wordVa, rtoks := [tToken] }
def waitingQueue : Queue := { reorderQueue with rfails := [(0, 1)] }
def reorderState (qs : List Queue) : State :=
  ev 6 0 { at_ wordGroup with queues := reorderQueue :: qs, dev := cellsPutAll [] wordVa (leBytes 4 0x10000005 ++ leBytes 4 0) }
theorem witness_launchSteps_queues :
    (fireState.queues.filter (fun q => q.die == 0 && fireState.fires q) = [fireQueue]
      ∧ fireState.programOf fireQueue.ctx fireQueue.prog = some (programRec 0)
      ∧ fireState.imageMoves 0 (w64 (programRec 0).launchBody 0) = false ∧ fireQueue.ripe fireState.clk = 1 ∧ fireState.ringMoves fireQueue 0 0 = false
      ∧ fireQueue.spilled = [] ∧ ∃ l, (fireState.newId.2.newId.2).programLaunch (programRec 0) (programRec 0).launchBody 0 2 (.firing 6 1) = .ok l)
    ∧ unfitState.queues.filter (fun q => q.die == 0 && unfitState.fires q) = []
    ∧ (fireState.queue? 6 = some fireQueue ∧ fireQueue.ageT ≤ fireState.headAge fireQueue / ageUnit
      ∧ (fireState.record 6).maxAge < fireState.headAge fireQueue / ageUnit)
    ∧ (({ reorderState [] with queues := [waitingQueue] } : State).queue? 6 = some waitingQueue
      ∧ (({ reorderState [] with queues := [waitingQueue] } : State).takeWaiting waitingQueue).isSome = true)
    ∧ ((reorderState []).takeWaiting reorderQueue = none ∧ (reorderState []).seqMoves reorderQueue 0 = false ∧ (reorderState []).queue? 6 = some reorderQueue ∧ (reorderState []).seqOf reorderQueue 0 = (⟨0, wordVa, 0x10000005, 0⟩, reorderState [])
      ∧ reorderQueue.token? 0 0 = some tToken ∧ tToken.complete = true)
    ∧ (∀ m ∈ [tQueue .msg 1, { tQueue .msg 1 with closed := true }], (reorderState [m]).queues.find? (fun m => m.handle == 0x10000005 && m.kind == .msg && m.n2 == 0) = some m
      ∧ m.entries.length < m.cap) := by
  refine ⟨⟨by decide, by decide, by decide, by decide, by decide, by decide, _, rfl⟩, by decide, by decide, by decide, by decide, by decide⟩

def heldEntry (w : Held) : HeldEntry := { id := 5, turn := 5, gid := 2, pc := 0, exec := 1, what := w }
def coverTeam (w : Held) : Team := { wordTeam false with held := [heldEntry w], releasing := [(100, 100)] }
def kickPage : Page := areaPage 0 0x100000 0x100000 0 (.kick 0) 3 false .kickPage
def heldState (w : Held) : State := ev 1 0 { atTeam (coverTeam w) wordGroup with queues := [tQueue .msg 1], pages := [wordPage, kickPage], clk := 13 }
def pushHeld : Held := .push 0x10000005 .msg 1 [List.replicate 32 7]
theorem witness_launchSteps_held :
    (∀ w ∈ [pushHeld, Held.kick [(0x100078, 0)] 0, Held.kick [(wordVa, 0)] 0],
      (heldState w).awakeTeam? 1 = some (coverTeam w) ∧ (coverTeam w).covering (heldEntry w) = some (100, 100) ∧ 100 / 8 < (heldState w).clk
      ∧ ((heldState w).beforeRelease (coverTeam w) (heldEntry w) 100).2 = true)
    ∧ ((heldState pushHeld).releasePush (coverTeam pushHeld) (heldEntry pushHeld) 100 0x10000005 .msg 1
        [List.replicate 32 7]).isSome = true
    ∧ (∀ w ∈ [(0x100078, 0), (wordVa, 0)], (heldState (.kick [w] 0)).kickWaits (coverTeam (.kick [w] 0)) w = false)
    ∧ ((heldState (.kick [(0x100078, 0)] 0)).kicks (coverTeam (.kick [(0x100078, 0)] 0)) 0 [(0x100078, 0)]).2 = none
    ∧ ((heldState (.kick [(wordVa, 0)] 0)).kicks (coverTeam (.kick [(wordVa, 0)] 0)) 0 [(wordVa, 0)]).2 = some cProtection := by
  decide

def savedState : State := { gridState { kickLaunch with started := true, next := 1 } { wordTeam false with state := .saved } { wordGroup with v := List.replicate 16 (List.replicate 32 0) } with arg := { EvArg.zero with a := 1, b := 3, c := 3 } }
def savable : Team := { wordTeam false with committed := true }
theorem witness_launchSteps_teams :
    ((ev 1 0 (at_ { wordGroup with ended := true })).team? 1 = some (wordTeam false) ∧ (ev 1 0 (at_ { wordGroup with ended := true })).mayRetire (wordTeam false) = true)
    ∧ ((ev 1 0 (at_ wordGroup)).unitOf (wordTeam false) = [wordTeam false] ∧ (wordTeam false).state = .running ∧ (wordTeam false).stop ≠ .asked)
    ∧ ((atTeam savable wordGroup).unitOf savable = [savable] ∧ savable.state = .running ∧ savable.committed = true
      ∧ 0 < sumNat (((atTeam savable wordGroup).unitOf savable).map (atTeam savable wordGroup).saveBytes) ∧ wordCtx.saveLeft = 0)
    ∧ ((ev 1 0 (atTeam { wordTeam false with state := .stopping } wordGroup)).stoppingOf { wordTeam false with state := .stopping } = [{ wordTeam false with state := .stopping }]
      ∧ (((ev 1 0 (atTeam { wordTeam false with state := .stopping } wordGroup)).each [1] State.flushTeam)).drained 1 = true
      ∧ (wordTeam false).planes = [])
    ∧ (savedState.team? 1 = some { wordTeam false with state := .saved } ∧ (savedState.launch? 0).isSome = true
      ∧ savedState.launchPaused { kickLaunch with started := true, next := 1 } = false
      ∧ (savedState.resumePlace { wordTeam false with state := .saved } 3 3).isSome = true) := by
  decide
def chainLaunch (folded : Bool) : Launch := { kickLaunch with started := true, next := 1, chain := some { folded := folded, foldable := true, mst := none, links := [0] } }
def movingChain (folded : Bool) (move : Option Bool) : Chain :=
  { tChain folded [linkEntry] with
    slot := some 5, request := (if move.isSome then none else some (!folded)), movingTo := move,
    stages := [⟨3, 16, true, .none⟩, ⟨2, 16, false, .none⟩] }
def smallGroup : Group := { wordGroup with v := List.replicate 16 (List.replicate 32 0) }
def moveState (folded : Bool) (move : Option Bool) : State :=
  { chainState (movingChain folded move) smallGroup with
    launches := [chainLaunch folded], recs := [programRec 2], arg := { EvArg.zero with a := 9, pairs := [(3, 0)] } }
def chainTeam : Team := { wordTeam false with chain := some 9 }
theorem witness_launchSteps_chains :
    ((moveState false none).chain? 9 = some (movingChain false none) ∧ (moveState false none).launch? 0 = some (chainLaunch false)
      ∧ (movingChain false none).request = some true ∧ (moveState false none).chainTeams (movingChain false none) = [chainTeam]
      ∧ (movingChain false none).mst = none ∧ (moveState false none).equivalence (movingChain false none) = true ∧ (moveState false none).arg.pairs.map Prod.fst = [3]
      ∧ (moveState false none).coreTakes 0 3 ((movingChain false none).stages.map fun st => (0, { Role.none with budget := st.win })) true = some [0, 0])
    ∧ ((moveState true none).chain? 9 = some (movingChain true none) ∧ (movingChain true none).request = some false
      ∧ (moveState true none).chainTeams (movingChain true none) = [chainTeam] ∧ chainTeam.state = .running
      ∧ (moveState true none).equivalence (movingChain true none) = true
      ∧ (moveState true none).liveStages (movingChain true none) = [(1, smallGroup)]
      ∧ ((moveState true none).sheafSlots 0 ((chainLaunch true).inForm false) [] [(smallGroup, 1, 3)]).isSome = true)
    ∧ ((moveState false (some true)).chain? 9 = some (movingChain false (some true)) ∧ (movingChain false (some true)).movingTo = some true)
    ∧ (((moveState false none).record 5).live = true ∧ bits (w32 ((moveState false none).record 5).launchBody 8) 16 2 = 2
      ∧ (movingChain false none).slot = some 5) := by
  decide

/-! #### Faults and migration -/

def parkFail : LaneFail := { tFail with va := wordVa, cause := cPageFault, parkable := true }
def parkGroup (posted : Bool) : Group := { wordGroup with park := some { pc := 0, lanes := 1, fails := [parkFail], posted := posted, since := 0 } }
def parkedIn (epc : Word) : Group := { inHandlerGroup true 0 with epc := epc, park := (parkGroup true).park }
def tPosted : PostedFault :=
  { die := 0, ctx := 0, va := wordVa, access := 1, mapId := 0, groups := [2], count := 1, posted := 0, sent := false }
def faultState (clk : Nat) (c : Ctx) : State := ev 0 0 { at_ wordGroup with faults := [tPosted], clk := clk, ctxs := [c] }
theorem witness_faultSteps_waits :
    (∀ p ∈ [true, false], (ev 2 0 (at_ (parkGroup p))).awake? 2 = some (parkGroup p) ∧ (at_ (parkGroup p)).usable 0 parkFail.va = true
      ∧ (parkGroup p).handler = none)
    ∧ ((parkedIn 4).handler = some (saved true) ∧ (parkedIn 4).epc.toNat % 2 = 0 ∧ (at_ (parkedIn 4)).eretWaits (parkedIn 4) (saved true) = false
      ∧ (parkedIn 5).epc.toNat % 2 = 1 ∧ (parkedIn 5).park = (parkGroup true).park)
    ∧ (tPosted ∈ (faultState 18800 wordCtx).faults ∧ tPosted.posted + 18800 ≤ 18800)
    ∧ ((faultState 940000 { wordCtx with fwait := 1 }).ctx? 0 = some { wordCtx with fwait := 1 } ∧ wordCtx.live = true)
    ∧ ((faultState 940000 { wordCtx with hostabs := 1, absentSince := some 0 }).ctx? 0 = some { wordCtx with hostabs := 1, absentSince := some 0 }) := by
  decide
/-- A MAPPING record of one 64 KiB page at 0x20000: its policy, its backing, and the body's other fields. -/
def mapRec (policy back perm : Nat) (more : List (Nat × Nat × Nat)) : Rec :=
  { tRec 2 0 .create 0 (bodyOf ([(0, 8, 0x20000), (8, 4, 1), (0xC, 4, policy * 0x400 + back * 0x100 + perm * 16)] ++ more)) with slot := 6 }
def mapPage' (perm : BitVec 3) (moving : Bool) : Page := { areaPage 0 0x20000 0x10000 0x30000 .dev perm false .mapping with slot := 6, moving := moving }
def ftCtx (pool : Nat) : Ctx := { wordCtx with ftReqs := [(2, 0x20000)], pool := pool, poolBase := 0x40000 }
def ftState (pool : Nat) (rs : List Rec) (ps : List Page) : State := { at_ wordGroup with ctxs := [ftCtx pool], recs := rs, pages := wordPage :: ps }
theorem witness_faultSteps_firstTouch :
    (ftState 1 [] []).covering? 0 0x20000 = none
    ∧ ((ftState 1 [mapRec 0 0 7 []] []).covering? 0 0x20000 = some (mapRec 0 0 7 []) ∧ bits (w32 (mapRec 0 0 7 []).body 0xC) 10 2 ≠ 1)
    ∧ ((ftState 1 [mapRec 1 0 7 []] []).covering? 0 0x20000 = some (mapRec 1 0 7 []) ∧ bits (w32 (mapRec 1 0 7 []).body 0xC) 10 2 = 1)
    ∧ (∀ m ∈ [true, false], (ftState 1 [mapRec 1 0 7 []] [mapPage' 7 m]).page? 0 0x20000 = some (mapPage' 7 m))
    ∧ ((ftState 0 [mapRec 1 0 7 []] []).page? 0 0x20000 = none ∧ (ftState 0 [mapRec 1 0 7 []] []).poolPages (ftCtx 0) = [])
    ∧ (ftState 1 [mapRec 1 0 7 []] []).poolPages (ftCtx 1) = [0x40000]
    ∧ ((accState .sld (.port 0)).access? 5 = some (accGroup .sld (.port 0), tAcc .sld (.port 0))
      ∧ ({ wordCtx with ftStat := [(2, 3)] } : Ctx).ftStat.find? (fun e => e.1 == 2) = some (2, 3)) := by
  decide
def moveOf (toHost : Bool) : Move := { mv := 4, ctx := 0, va := 0x20000, toHost := toHost, lockVa := wordVa, pin := false }
def migState (m : List Move) (moving : Bool) (fs : List (Nat × Nat)) : State :=
  ev 4 0 { at_ wordGroup with
    recs := [mapRec 2 0 7 [(0x20, 8, wordVa)]], pages := [wordPage, mapPage' 7 moving], moves := m, frames := fs, clk := 940,
    migReqs := [⟨0, 0x20000, false, 0⟩] }
theorem witness_faultSteps_moves :
    ((migState [] false []).migrates (mapPage' 7 false) = true ∧ (migState [] false []).deviceAsks (mapPage' 7 false) = true
      ∧ (migState [] false []).lockAt 0 ((migState [] false []).pageLock (mapPage' 7 false)) = some (⟨.dev, wordVa⟩, lockOf 0) ∧ homeDie wordVa = 0)
    ∧ (∀ h ∈ [true, false], (migState [moveOf h] true []).moves.find? (fun m => m.mv == 4) = some (moveOf h)
      ∧ (migState [moveOf h] true []).pages.find? (fun p => p.ctx == 0 && p.va == 0x20000 && p.moving) = some (mapPage' 7 true))
    ∧ (((migState [] true []).allocFrame 0 0x10000 0).isSome = true
      ∧ ((migState [] true [(0, 0x200000000)]).allocFrame 0 0x10000 0).isSome = false)
    ∧ ({ migState [] false [] with holds := [⟨false, 0, 0x20000, wordVa, 940⟩] } : State).holds.find?
        (fun h => h.ctx == 0 && h.va == 0x20000 && decide (h.expires ≤ 940)) = some ⟨false, 0, 0x20000, wordVa, 940⟩ := by
  decide


/-! #### The Harrow -/

theorem turn_at {r : Rec} {k : Nat} (a : (recState r).turn = some r) (h : r.slot = 5) (e : r.kind = k) : Turn (recState r) r k :=
  ⟨a, h.symm, e⟩
/-- A CONTEXT record, and states where its context is not there yet, or is there. -/
def ctxRec (goal : Goal) (cursor : Nat) : Rec :=
  tRec 1 0 goal cursor (bodyOf [(8, 8, 0x8000000), (0x20, 8, 1), (0x28, 4, 1), (0x2C, 4, 1), (0x30, 4, 7)])
def ctxState (r : Rec) (cs : List Ctx) : State := { recState r with ctxs := cs }
def tPub : Publish := { slot := 5, host := true, ctx := 0 }
theorem witness_harrowContexts_admit :
    ({ at_ wordGroup with publishes := [tPub] } : State).publishes = [tPub]
    ∧ (Turn (ctxState (ctxRec .create 0) []) (ctxRec .create 0) 1 ∧ (ctxState (ctxRec .create 0) []).ctx? 0 = none
      ∧ (ctxState (ctxRec .create 0) []).hasClusters (w64 (ctxRec .create 0).body 0x20) = true
      ∧ (ctxState (ctxRec .create 0) []).hasClusters (2 ^ 9) = false
      ∧ poolBytes (ctxRec .create 0).body + frBytes + launchBytes ≤ (ctxState (ctxRec .create 0) []).freeBytes 0
      ∧ saveAreaBytes (ctxRec .create 0).body + (ctxState (ctxRec .create 0) []).privCount (ctxRec .create 0).body * privBytes (ctxRec .create 0).body
        ≤ (ctxState (ctxRec .create 0) []).freeBytes 1)
    ∧ (Turn (ctxState { ctxRec .create 0 with ctx := 64 } []) { ctxRec .create 0 with ctx := 64 } 1
      ∧ (ctxState { ctxRec .create 0 with ctx := 64 } []).ctxLimit ≤ 64 ∧ (ctxState { ctxRec .create 0 with ctx := 64 } []).ctx? 64 = none)
    ∧ (∀ r : Rec, r = ctxRec .create 1 → Turn (ctxState r [newCtx r]) r 1 ∧ (ctxState r [newCtx r]).ctx? r.ctx = some (newCtx r)
      ∧ (newCtx r).areas = []) :=
  ⟨rfl, ⟨⟨rfl, rfl, rfl⟩, rfl, by decide, by decide, by decide, by decide⟩, ⟨⟨rfl, rfl, rfl⟩, by decide, rfl⟩,
    fun _ h => by subst h; exact ⟨⟨rfl, rfl, rfl⟩, rfl, rfl⟩⟩
theorem witness_harrowContexts_allocate : let b := (ctxRec .create 1).body
    (((ctxState (ctxRec .create 1) []).allocArea 0 (poolBytes b)).bind fun x1 => (x1.2.allocArea 0 frBytes).bind fun x2 =>
      (x2.2.allocArea 0 launchBytes).bind fun x3 => (x3.2.allocArea 1 (saveAreaBytes b)).bind fun x4 =>
      (x4.2.allocArea 1 ((ctxState (ctxRec .create 1) []).privCount b * privBytes b)).map fun x5 => [x1.1, x2.1, x3.1, x4.1, x5.1])
      = some [0, 0x1400000, 0x200000, farBase, farBase + 0x400000] := by
  decide
theorem witness_harrowContexts_bind :
    (Turn (ctxState (ctxRec .create 2) [wordCtx]) (ctxRec .create 2) 1 ∧ wordCtx.conf = false)
    ∧ (∀ t : Tdisp, t = ⟨1, 3, 7, 0⟩ → (({ ctxState (ctxRec .create 2) [{ wordCtx with conf := true, tdi := 1, ide := 7 }] with tdisp := [t] } : State).tdi 1) = t)
    ∧ ((ctxState (ctxRec .create 2) [{ wordCtx with conf := true, tdi := 1, ide := 7 }]).tdi 1).state ≠ 3
    ∧ (∀ k ∈ [0, 1], (ctxState (ctxRec .delete k) [{ wordCtx with slot := 5 }]).turn = some (ctxRec .delete k)
      ∧ (ctxState (ctxRec .delete k) [{ wordCtx with slot := 5 }]).ctx? 0 = some { wordCtx with slot := 5 }) :=
  ⟨⟨⟨rfl, rfl, rfl⟩, rfl⟩, fun _ h => by subst h; rfl, by decide, by decide⟩
/-- A MAPPING record in slot 5, and states with some pages of it. -/
def pageRec (policy back perm : Nat) (goal : Goal) (made : Nat) : Rec :=
  { mapRec policy back perm [] with slot := 5, goal := goal, made := made }
def pageOf (perm : BitVec 3) : Page := { mapPage' perm false with slot := 5 }
def pageState (r : Rec) (ps : List Page) : State := { recState r with pages := wordPage :: ps }
theorem witness_harrowContexts_pages :
    (∀ x ∈ [(pageRec 0 0 7 .create 0, [pageOf 3]), (pageRec 0 0 7 .create 0, []), (pageRec 1 0 7 .create 0, []), (pageRec 0 2 7 .create 0, []),
        (pageRec 0 0 1 .create 0, [pageOf 7]), (pageRec 0 0 7 .delete 0, []), (pageRec 0 0 7 .delete 1, [pageOf 7]), (pageRec 0 0 7 .delete 1, [])],
      (pageState x.1 x.2).turn = some x.1 ∧ (pageState x.1 x.2).arg.a = x.1.slot ∧ x.1.kind = 2 ∧ x.1.waiting = false)
    ∧ ((pageState (pageRec 0 0 7 .create 0) [pageOf 3]).recPage (pageRec 0 0 7 .create 0) 0 = some (pageOf 3)
      ∧ (pageOf 3).perm &&& ~~~(mapPerm (pageRec 0 0 7 .create 0).body) = 0)
    ∧ ((pageState (pageRec 0 0 7 .create 0) []).recPage (pageRec 0 0 7 .create 0) 0 = none
      ∧ (pageState (pageRec 0 0 7 .create 0) []).overlaps (pageRec 0 0 7 .create 0) 0x20000 0x10000 = true
      ∧ ({ pageState (pageRec 0 0 7 .create 0) [] with ctxs := [{ wordCtx with frarea := 0x8000000 }] } : State).overlaps (pageRec 0 0 7 .create 0)
          0x20000 0x10000 = false)
    ∧ (mapPolicy (pageRec 1 0 7 .create 0).body = 1 ∧ mapPolicy (pageRec 0 2 7 .create 0).body = 0 ∧ mapBack (pageRec 0 2 7 .create 0).body = 2
      ∧ mapBack (pageRec 0 0 7 .create 0).body < 2 ∧ mapPolicy (pageRec 0 0 7 .create 0).body = 0)
    ∧ (((pageState (pageRec 0 0 7 .create 0) []).allocFrame 0 0x10000 0).isSome = true
      ∧ (({ pageState (pageRec 0 0 7 .create 0) [] with frames := [(0, 0x200000000)] } : State).allocFrame 0 0x10000 0).isNone = true)
    ∧ ((pageState (pageRec 0 0 1 .create 0) [pageOf 7]).recPage (pageRec 0 0 1 .create 0) 0 = some (pageOf 7)
      ∧ (pageOf 7).perm &&& ~~~(mapPerm (pageRec 0 0 1 .create 0).body) ≠ 0)
    ∧ (pageState (pageRec 0 0 7 .delete 1) [pageOf 7]).recPage (pageRec 0 0 7 .delete 1) (1 - 1) = some (pageOf 7)
    ∧ (pageState (pageRec 0 0 7 .delete 1) []).recPage (pageRec 0 0 7 .delete 1) (1 - 1) = none := by
  decide
def tShoot (release : Bool) : Shoot :=
  { sd := 5, ctx := 0, va := 0x20000, size := 0x10000, sp := .dev, frame := 0x30000, upTo := 1, release := release }
def shootRec (g : Goal) (sd : Nat) : Rec := { pageRec 0 0 7 g 1 with waiting := true, shoot := some sd }
def shootState (release : Bool) (rs : List Rec) (ps : List Page) : State :=
  { at_ wordGroup with shoots := [tShoot release], recs := rs, pages := ps }
theorem witness_harrowContexts_shoot :
    (∀ b, (shootState b [] []).shoots.find? (fun x => x.sd == 5) = some (tShoot b) ∧ (shootState b [] []).shootAcked (tShoot b) = true)
    ∧ (∀ b, ∀ g ∈ [Goal.create, .delete],
      (shootState b [shootRec g 5] [pageOf 7]).recs.find? (fun r => r.kind == 2 && r.waiting && r.shoot == some 5) = some (shootRec g 5)
      ∧ (shootState b [shootRec g 6] [pageOf 7]).recs.find? (fun r => r.kind == 2 && r.waiting && r.shoot == some 5) = none)
    ∧ (∀ g ∈ [Goal.create, .delete], (shootRec g 5).mapRange = (0x20000, 0x30000) ∧ (shootRec g 5).phase = .applying)
    ∧ (shootState false [shootRec .create 5] [pageOf 7]).recPage (shootRec .create 5) ((0x20000 - 0x20000) / 0x10000) = some (pageOf 7) := by
  decide

/-- QUEUE records of a subkind: the port and the capacity where it has them. -/
def queueRec (sub : Nat) (goal : Goal) (cursor : Nat) : Rec := tRec 3 sub goal cursor (bodyOf [(0, 4, 4), (4, 4, 4)])
def streamRec (port : Nat) : Rec := tRec 3 5 .create 0 (bodyOf [(8, 8, port * 2 ^ 16)])
theorem witness_harrowRecords_queues :
    (∀ r ∈ [queueRec 1 .create 0, queueRec 2 .create 0, queueRec 4 .create 0, streamRec 7, streamRec 8, queueRec 1 .create 1, queueRec 2 .create 1, queueRec 1 .create 2,
        queueRec 1 .delete 0, queueRec 1 .delete 1, queueRec 1 .delete 2, queueRec 2 .delete 0, queueRec 2 .delete 1, queueRec 2 .delete 2],
      (recState r).turn = some r ∧ (recState r).arg.a = r.slot ∧ r.kind = 3)
    ∧ ((recState (queueRec 2 .create 0)).expertDie (queueRec 2 .create 0) = some 0
      ∧ (recState { queueRec 2 .create 0 with body := bodyOf [(4, 4, 65537)] }).expertDie { queueRec 2 .create 0 with body := bodyOf [(4, 4, 65537)] } = none)
    ∧ ((recState (streamRec 7)).portFree 7 true 5 = true
      ∧ ({ recState (streamRec 7) with recs := [streamRec 7, { tRec 5 0 .create 1 (bodyOf [(8, 8, 0x80)]) with slot := 6, made := 1 }] } : State).portFree
          7 true 5 = false)
    ∧ ((queueRec 1 .create 1).handle = 0 ∧ (queueRec 2 .create 1).die = none ∧ ({ queueRec 2 .create 1 with die := some 3 } : Rec).die ≠ none)
    ∧ (({ recState (queueRec 1 .create 2) with queues := [tQueue .msg 1] } : State).queue? 5 = some (tQueue .msg 1)
      ∧ (recState (queueRec 1 .create 2)).ringMoves (tQueue .msg 1) 0 0 = false)
    ∧ ((recState (queueRec 1 .delete 1)).queueDrained 5 = true
      ∧ ({ recState (queueRec 1 .delete 1) with queues := [fullQueue] } : State).queueDrained 5 = false)
    ∧ ((queueRec 2 .delete 0).dropsTokens = false ∧ { queueRec 2 .delete 0 with body := bodyOf [(0x1C, 4, 8)] }.dropsTokens = true)
    ∧ ((recState (queueRec 2 .delete 1)).awaited (queueRec 2 .delete 1) = true
      ∧ ({ recState (queueRec 2 .delete 1) with queues := [fullQueue] } : State).awaited (queueRec 2 .delete 1) = false) := by
  decide
def linkRec (goal : Goal) (cursor : Nat) : Rec := tRec 5 0 goal cursor (bodyOf [(8, 8, 0x80), (0x10, 8, 0x10000), (0x18, 8, 0x100)])
theorem witness_harrowRecords_links :
    (∀ r ∈ [linkRec .create 0, linkRec .delete 0, linkRec .delete 1], (recState r).turn = some r ∧ (recState r).arg.a = r.slot ∧ r.kind = 5)
    ∧ (linkPorts (linkRec .create 0).body = [7] ∧ (recState (linkRec .create 0)).portFree 7 false 5 = true
      ∧ ({ recState (linkRec .create 0) with recs := [linkRec .create 0, { streamRec 7 with slot := 6, made := 1 }] } : State).portFree 7 false 5 = false)
    ∧ ((recState (linkRec .create 1)).record 5 = linkRec .create 1 ∧ (linkRec .create 1).live = true)
    ∧ (∀ r ∈ [{ linkRec .create 1 with peerExp := [0x10000, 0x100] }, linkRec .create 1,
        { linkRec .create 1 with presented := some (true, [0, 0x80, 0, 0x10000, 0x100]) }],
      (recState r).turn = some r ∧ (recState r).arg.nats = [])
    ∧ (recState (linkRec .create 1)).portsDown (.peer 5) = false
    ∧ (linkRec .create 1).peerExp = [] ∧ (linkRec .create 1).presented = none := by
  decide

/-- PROGRAM records at each of their steps, and the device with an image. -/
def progRec (goal : Goal) (cursor : Nat) (va : Nat) (handle : Nat) : Rec :=
  tRec 4 0 goal cursor (bodyOf [(0, 8, va), (0x10, 2, 1), (0x12, 2, 1), (0x14, 2, 1), (0x30, 4, handle)])
def progState (r : Rec) : State := withImage (recState r)
theorem witness_harrowRecords_programs :
    (∀ r ∈ [progRec .create 0 wordVa 0, progRec .create 1 wordVa 0, progRec .create 2 wordVa 0, progRec .create 3 wordVa 0x10000005, progRec .create 4 wordVa 0,
        progRec .delete 0 wordVa 0, progRec .delete 1 wordVa 0, progRec .pause 0 wordVa 0, progRec .unpause 0 wordVa 0, queueRec 4 .delete 0, queueRec 4 .delete 1,
        queueRec 5 .delete 0, queueRec 5 .delete 1],
      (progState r).turn = some r ∧ (progState r).arg.a = r.slot ∧ (r.kind = 4 ∨ r.kind = 3))
    ∧ (programHandles (progRec .create 3 wordVa 0x10000005).body = [0x10000005]
      ∧ (progState (progRec .create 3 wordVa 0x10000005)).imageMoves 0 wordVa = false
      ∧ ({ progState (progRec .create 3 wordVa 0x10000005) with queues := [tQueue .msg 1] } : State).queueOf 0x10000005 = some (tQueue .msg 1)
      ∧ (progState (progRec .create 3 wordVa 0x10000005)).queueOf 0x10000005 = none)
    ∧ ((progState (progRec .create 4 wordVa 0)).ctx? 0 = some wordCtx ∧ (progState (progRec .create 4 wordVa 0)).isExpertProgram (progRec .create 4 wordVa 0) = false
      ∧ (progState (progRec .create 4 wordVa 0)).gridRunning (progRec .create 4 wordVa 0) = false ∧ (progRec .create 4 wordVa 0).pauseBit = false
      ∧ wordCtx.paused = false) := by
  decide
def tImg : Img :=
  { base := wordVa, kernels := 1, code := 0x80, codeSize := 8, data := 0x100, dataSize := 0x100, ktab := 0x40, ftab := 0, nfrag := 0, nvar := 1,
    vtab := 0xA0, rtab := 0, nrel := 0 }
theorem witness_harrowRecords_images :
    (progState (progRec .create 1 wordVa 0)).imgHeader 0 wordVa = .ok tImg
    ∧ (progState (progRec .create 1 0x10008 0)).imgHeader 0 0x10008 = .error eBadImage
    ∧ (∃ vs, allOk ((List.range tImg.nvar).map ((progState (progRec .create 1 wordVa 0)).imgVariant 0 tImg)) = .ok vs
      ∧ chooseVariant (progState (progRec .create 1 wordVa 0)).defectSignature vs = some 0)
    ∧ chooseVariant 5 [⟨6, false, 0, 0, true⟩] = none
    ∧ (progState (progRec .create 2 wordVa 0)).loadChecks 0 wordVa = .ok tImg
    ∧ (progState (progRec .create 2 0x10008 0)).loadChecks 0 0x10008 = .error eBadImage
    ∧ (∃ k, (progState (progRec .create 2 wordVa 0)).imgKernel 0 tImg 0 = .ok k ∧ k.isChain = false)
    ∧ bits (w32 (progRec .create 2 wordVa 0).body 8) 16 2 = 0 :=
  ⟨rfl, rfl, ⟨_, rfl, by decide⟩, by decide, rfl, rfl, ⟨_, rfl, rfl⟩, by decide⟩

/-! #### The host, the ports and the management core -/

def keyCtx : Ctx := { wordCtx with conf := true, tdi := 1 }
def haltState : State := { at_ wordGroup with cores := [{ Core.fresh 0 with halted := true }], arg := { EvArg.zero with c := 1, flag := true, e := 63, d := 1 } }
theorem witness_hostAndPortSteps_host :
    (∃ t ∈ ({ at_ wordGroup with pendingNotes := [0], clk := 18800 } : State).pendingNotes, t + 940 * 20 ≤ 18800)
    ∧ (63 ∈ ({ at_ wordGroup with masked := [63] } : State).masked)
    ∧ (covers 0xC00FFF 1 0xC01000 1 = false ∧ covers 0xC01000 1 0xC01000 1 = true)
    ∧ (({ at_ wordGroup with ctxs := [keyCtx] } : State).ctx? 0 = some keyCtx ∧ keyCtx.live = true)
    ∧ ((at_ wordGroup).enabled (coreOf 3 35) = true ∧ 3 < (at_ wordGroup).dieCount ∧ ∀ c ∈ (at_ wordGroup).ctxs, c.conf = false)
    ∧ (haltState.dbgGroup = some wordGroup ∧ (haltState.core 0).halted = true ∧ haltState.dbgItem wordGroup 1 63 = some [0]
      ∧ (haltState.dbgPut wordGroup 1 63 [7]).isSome = true) := by
  refine ⟨⟨0, by decide⟩, by decide, by decide, by decide, by decide, by decide⟩
def upLink : Rec := { linkRec .create 2 with phase := .converged }
def portState (up : Bool) (lost : Option Nat) (rs : List Rec) : State :=
  { at_ wordGroup with ports := [{ port := 7, ethernet := false, up := up, lostAt := lost }], recs := rs, clk := 940001 }
def openQueue : Queue := { tQueue .stream 5 with port := 7, frame := some { index := 0, ts := 0, stamp := 0, opened := 0, firstSeq := 0, got := [], slicesDone := [] } }
theorem witness_hostAndPortSteps_ports :
    (((portState true none []).port 7).up = true ∧ 7 < (portState true none []).portCount)
    ∧ (((portState false (some 1) []).port 7).up = false ∧ ((portState false (some 1) []).port 7).isLost 940001 = false
      ∧ (portState false (some 0) []).linksOn 7 = [])
    ∧ (((portState false (some 0) [upLink]).port 7).isLost 940001 = true ∧ (portState false (some 0) [upLink]).linksOn 7 = [upLink])
    ∧ ((portState true none [upLink]).linkUp 5 = some upLink ∧ upLink.exports 0x100FF 1 = true ∧ upLink.exports 0x100FF 2 = false
      ∧ upLink.exports 0x100FC 4 = true)
    ∧ ((portState true none [upLink]).movingIn 0 0x100FC 4 = false ∧ (portState true none [upLink]).movingIn 0 (w64 upLink.body 0x20) 8 = false
      ∧ openQueue.slotSz * max openQueue.nbuf 1 = 0 ∧ (portState true none []).movingIn 0 0 0 = false)
    ∧ ((portState true none [upLink]).inboundPieces 0 0x100FC 4 = some [(⟨.dev, 0x100FC⟩, 4)])
    ∧ (({ portState true none [] with queues := [openQueue] } : State).queue? 5 = some openQueue ∧ openQueue.kind = .stream ∧ openQueue.isOpen = true
      ∧ openQueue.closed = false ∧ openQueue.source = 0 ∧ ((portState true none []).port openQueue.port).up = true
      ∧ openQueue.frame.map (fun f => f.opened + 940 * openQueue.deadline ≤ 940001) = some True) := by
  refine ⟨by decide, by decide, by decide, by decide, by decide, by decide, by decide, by decide, by decide, by decide, by decide, by decide, ?_⟩
  show some _ = some True
  exact congrArg some (eq_true (by decide))
def island (b : Bool) (hold corrected vcur : Nat) (nt : Bool) : Island :=
  { Island.fresh 639 with barred := b, hold := hold, corrected := corrected, vcur := vcur, nt := nt }
def islandState (i : Island) : State := { at_ { wordGroup with ended := true } with islands := [i], clk := windowClk }
theorem witness_serviceSteps_islands :
    (∀ i ∈ [island true 0 0 750 false, island false 15 0 750 false, island false 0 3 645 false, island false 0 3 644 false, island false 0 4 748 false],
      (islandState i).island 639 = i ∧ i.nt = false ∧ i.windowAt + windowClk ≤ (islandState i).clk ∧ (islandState i).asksNear i.isl = false)
    ∧ ((island true 0 0 750 false).barred = true ∧ 940 * (island true 0 0 750 false).barEnd ≤ windowClk) := by
  decide
theorem witness_serviceSteps_near :
    (({ islandState (island false 0 0 750 false) with
        groups := [{ wordGroup with wait := .waitcnt 0 0, waitFrom := some 0, die := 3, core := 39, slot := 127 }] } : State).asksNear 639 = true
      ∧ ({ islandState (island false 0 0 750 false) with
        groups := [{ wordGroup with wait := .waitcnt 0 0, waitFrom := some 0, die := 3, core := 39, slot := 127 }] } : State).wantsVector 639 = false) := by
  decide
/-- VADD.I v0, v0, v0 is the next word of a group of the island. -/
def vectorState : State :=
  { at_ { wordGroup with die := 3, core := 39, slot := 127 } with
    dev := cellsPutAll [] wordVa (leBytes 4 1), islands := [island false 0 0 500 true], cores := [{ Core.fresh 159 with icache := [wordVa / 128] }] }
def awakeCore : State := { at_ wordGroup with cores := [{ Core.fresh 35 with drowsy := [] }] }
theorem witness_serviceSteps_rest :
    (((islandState (island false 0 0 500 true)).island 639).nt = true ∧ (vectorState.island 639).nt = true ∧ vectorState.wantsVector 639 = true)
    ∧ ((at_ wordGroup).enabled 35 = true ∧ 15 ∉ (awakeCore.core 35).drowsy ∧ awakeCore.bankGroups 35 15 = [])
    ∧ [(15, 8)].find? (fun w : Nat × Nat => w.1 == 15) = some (15, 8)
    ∧ (∀ t ∈ [114, 90], t < 115) ∧ [114, 115].findIdx? (fun t => decide (115 ≤ t)) = some 1
    ∧ (((at_ wordGroup).dieMgmt 3).nextThrottle = 16 ∧ 4 < 16)
    ∧ (({ at_ wordGroup with dies := [{ DieMgmt.fresh 3 with temps := [100] }], clk := msClk } : State).dieMgmt 3).temps = [100]
    ∧ (({ at_ wordGroup with dies := [{ DieMgmt.fresh 3 with temps := [95], nextThrottle := 15 }], clk := 10 * msClk } : State).dieMgmt 3).nextThrottle < 16
    ∧ ((dieClusters 3).filter fun c => match (({ at_ wordGroup with cslrs := [{ Cslr.fresh 39 with droopAt := some 0 }], clk := msClk } : State).cslr c).droopAt with
        | some t => decide (t + msClk ≤ msClk)
        | none => false) = [39]
    ∧ ({ at_ wordGroup with inReset := true } : State).inReset = true := by
  decide
theorem witness_serviceSteps_lines :
    ((at_ wordGroup).ownerOf 0x10000 = none ∧ ({ at_ wordGroup with tags := [(0x10000, 0x10000, 0)] } : State).ownerOf 0x1FFFF = some 0
      ∧ ({ at_ wordGroup with tags := [(0x10000, 0x10000, 0)] } : State).linePolicy 0x1FFFF = 1) := by
  decide
/-- The same image with a plane region: region 7 of 32 words, whose member is group 0 (Table B.15). -/
def planeState : State :=
  { recState (progRec .create 1 wordVa 0) with
    dev := cellsPutAll (cellsPutAll (cellsPutAll [] wordVa imageBytes) 0x1004E [1]) 0x10100 (leBytes 8 0x20007 ++ leBytes 8 1) }
theorem witness_startOfGroups : ∃ x, planeState.rolesOf 0 tImg 0
    { groups := 0, budget := 0, fmt := 0, args := 0, argLen := 0, producer := none } false = .ok x
    ∧ x.1.map (fun r => r.planes.map fun p => (p.id, p.size, p.members)) = [[(7, 32, 1)]] :=
  ⟨_, rfl, rfl⟩
theorem witness_registerFrame : ∃ t, writtenBy (.vaddI 1 2 3) = some ([1], []) ∧ Issues (at_ wordGroup) tIssue wordGroup
    ∧ exec (.vaddI 1 2 3) (at_ wordGroup) = .next t :=
  ⟨_, rfl, issues_at rfl rfl, rfl⟩
theorem witness_performFrame :
    (tStore.tgt = .mem ⟨.dev, 0xFFFFFFFF⟩ ∧ (at_ wordGroup).nextReach tStore < 3)
    ∧ (3 ≤ (at_ wordGroup).nextReach { tStore with reach := .die } ∧ { tStore with reach := .die }.reach ≠ .device
      ∧ ((at_ wordGroup).clearPoison ⟨.dev, 0xFFFFFFFF⟩ 1).anyPoison ⟨.dev, 0xFFFFFFFF⟩ 1 = false ∧ claimSlots ⟨.dev, 0xFFFFFFFF⟩ 1 = []) := by
  decide
theorem witness_memoryKept : MemoryCanonical State.reset := by unfold MemoryCanonical; decide
/-- From reset with VADD.I v1, v2, v3 placed, the next step picks the group and its word. -/
theorem witness_stepRunsDecoded :
    let s := State.reset.withFetchWord 32 0b000_0000011_0000010_0000001_00000_00_1
    s.sched = [] ∧ s.inReset = false ∧ s.pick = some (.group 2)
    ∧ s.groupBytes wordGroup wordGroup.pc = .ok (leBytes 4 0b000_0000011_0000010_0000001_00000_00_1)
    ∧ s.wordOf (.group 2) = .word (.vaddI 1 2 3) 4 0 :=
  ⟨rfl, rfl, by decide, rfl, rfl⟩
theorem witness_stepRunsDecoded_due :
    ((State.reset.withFetchWord 32 0b000_0000011_0000010_0000001_00000_00_1).firstChange
      (State.reset.withFetchWord 32 0b000_0000011_0000010_0000001_00000_00_1).dueEvents).isNone = true := by decide

/-! ### States that meet the hypotheses of the widened statements -/

/-- An EXT pair whose second word issues: x has its top bit and its bit 0 set (R56). -/
def extIssue : Issue := { who := .group 2, sc := 0, len := 8, ext := some 0x800001 }
def atExt (g : Group) : State := { at_ g with issue := some extIssue }
theorem witness_extForms :
    (∀ g ∈ [sGroup, vGroup, mGroup .valid, callGroup 254 4 [], dGroup 0 []], (atExt g).issue = some extIssue ∧ extIssue.who = .group g.gid
      ∧ (atExt g).group? g.gid = some g ∧ (atExt g).duePend g = none)
    ∧ extIssue.immediate ((0x7F#7).signExtend 32) (fun x => (x ++ (0x7F#7)).signExtend 32) = 0xC00000FF
    ∧ extIssue.immediate ((4#14).signExtend 32) (fun x => (x ++ (4#14)).extractLsb' 0 32) = 0x4004
    ∧ extIssue.immediate ((4#24).signExtend 32) (fun x => (x ++ (4#24)).extractLsb' 0 32) = 0x1000004
    ∧ extIssue.immediate ((2#10).zeroExtend 32) (fun x => (x ++ (2#10)).extractLsb' 0 32) = 0x402
    ∧ extIssue.immediate ((3#12).zeroExtend 32) (fun x => (x ++ (3#12)).extractLsb' 0 32) = 0x1003
    ∧ extIssue.immediate ((60#6).zeroExtend 32) (fun x => (x ++ (60#6)).zeroExtend 32) = 0x2000007C := by
  decide
/-- A pair whose second word takes an immediate, and pairs whose second word takes none or is no instruction (R56). -/
theorem witness_scalarImmediateResults_pairs :
    (decode32 0b111_1000000_0000010_0000001_00101_00_1 = .ok (.vmuli 1 2 64) ∧ takesExt (.vmuli 1 2 64) = true)
    ∧ (decode32 0b111_1111111_0000001_1000000_00000_11_1 = .ok (.vxor 64 1 127) ∧ takesExt (.vxor 64 1 127) = false)
    ∧ decode32 0xFFFFFFFF = .error (.reservedMajor 0x1F) :=
  ⟨⟨rfl, rfl⟩, ⟨rfl, rfl⟩, rfl⟩
theorem test_ext_widens : ((ran vGroup (.ext 1 0b000_0000001_0000010_0000011_00101_00_1)).vlane 3 31 = 0x86)
    ∧ (match exec (.ext 1 0b00000000000001_0_000_000000_01101_00_1) (at_ sGroup) with
      | .next t => (t.group? 2).map Group.pc
      | _ => none) = some 0x8002 := by decide

/-- A store that lies at kick registers: SST64, and a vector ST of which lane 31 alone does. -/
def kickLanes : Group :=
  { kickGroup with exec := 0x80000001, b := kickGroup.b.set 7 { bReg .valid (.kick 0) with frame := 0 },
                   v := wordGroup.v.set 127 ((List.range 32).map fun l => BitVec.ofNat 32 (if l = 31 then 0x78 else 0x70)) }
def kickStore : List LaneCheck :=
  (at_ kickLanes).checkLanes kickLanes (kickLanes.breg 7) 127 4 .wr (fun _ => 0) (fun _ => 0)
theorem witness_scalarMemoryAccess_kicks :
    (Issues (at_ kickGroup) tIssue kickGroup ∧ Usable kickGroup { vN := [], sN := [62, 63], vR := [], sR := [62, 63] }
      ∧ (at_ kickGroup).through 0 (kickGroup.breg 7) (4 * (30#12).toNat) = .ok ⟨.kick 0, 0x78⟩ 7 false)
    ∧ (Issues (at_ kickLanes) tIssue kickLanes ∧ (kickLanes.breg 7).state = .valid
      ∧ Usable kickLanes { vN := regsFrom 1 1 ++ [127], sN := [], vR := regsFrom 1 1 ++ [127], sR := [] }
      ∧ LanesPass kickStore (passed kickStore) ∧ (passed kickStore).any (fun r => decide (r.loc.sp = .kick 0)) = true) :=
  ⟨⟨issues_at rfl rfl, usable_of (by decide), rfl⟩, issues_at rfl rfl, rfl, usable_of (by decide), by unfold LanesPass; decide, by decide⟩

/-- A watch that may read, one that has its word, and the words that it reads: the one compared with, and another. -/
def watchGroup (y : Word) (cmp : Word) : Group :=
  { wordGroup with acc := [{ tAcc .spollne .dev with cmp := cmp, lanes := [{ tLane .dev with x := 7, y := y }] }] }
theorem witness_orderingSteps_watch :
    ((at_ (watchGroup 0 1)).mayWatch (watchGroup 0 1) { tAcc .spollne .dev with cmp := 1 } { tLane .dev with x := 7 } = true
      ∧ (at_ (watchGroup 0 1)).anyPoison ⟨.dev, 0x10000⟩ 4 = false
      ∧ (at_ (watchGroup 0 1)).watchBytes (watchGroup 0 1) { tAcc .spollne .dev with cmp := 1 } { tLane .dev with x := 7 }
        = some [(0, 0), (0, 0), (0, 0), (0, 0)])
    ∧ (ev 5 31 (at_ (watchGroup 1 0))).access? 5
      = some (watchGroup 1 0, { tAcc .spollne .dev with lanes := [{ tLane .dev with x := 7, y := 1 }] })
    ∧ (∀ sp ∈ [Space.host, .peer 5], (accState .spollne sp).mayWatch (accGroup .spollne sp) (tAcc .spollne sp) (tLane sp) = true
      ∧ (accState .spollne sp).laneAway 0 (tLane sp) = false ∧ (tLane sp).loc.sp ≠ .dev) := by
  refine ⟨⟨rfl, rfl, rfl⟩, rfl, ?_⟩; decide
/-- R227: a watch does not read its word before an earlier atomic of its group to that word. -/
theorem test_watch_after_atomic :
    let a : Access := { tAcc .satadd .dev with id := 4 }
    let g : Group := { wordGroup with acc := [a, tAcc .spollne .dev] }
    (at_ g).mayWatch g (tAcc .spollne .dev) (tLane .dev) = false := by decide

/-- CPY of a card in device and in host memory, and while a page of the completion area moves. -/
def hostCard : State :=
  { cpyBase with hostMem := cellsPutAll [] 0x10040 (cardBytes goodCard), dev := [], pages := [{ wordPage with sp := .host }] }
def areaMoves (s : State) : State := { s with pages := s.pages.map fun p => { p with moving := true } }
theorem witness_copyInstructions_moves :
    (∀ s ∈ [cpyBase, areaMoves cpyBase], (s.readCard cpyGroup ⟨.win 1, 0⟩ = goodCard)
      ∧ cardOk goodCard = true ∧ s.mcastOk (cardTeam 0 goodCard) goodCard = true ∧ s.keyOk 0 goodCard = true)
    ∧ (cpyBase.movingIn 0 (cardCmpl goodCard) (cardArea goodCard) = false
      ∧ (areaMoves cpyBase).movingIn 0 (cardCmpl goodCard) (cardArea goodCard) = true)
    ∧ (hostCard.migTouch 0 0x10040).readCard cpyGroup ⟨.host, 0x10040⟩ = goodCard := by
  decide

/-- A team whose core is not halted, and a launch in the pool of a program that has converged with FORM = 2. -/
theorem witness_launchSteps_requests :
    (ev 1 0 (at_ wordGroup)).unitHalted (wordTeam false) = false
    ∧ (kickLaunch.isOf (programRec 2) = false ∧ ({ kickLaunch with origin := .program 5, prog := some 5 } : Launch).isOf (programRec 2) = true)
    ∧ ((programRec 2).live = true ∧ (programRec 2).kind = 4 ∧ (programRec 2).deleting = false ∧ bits (w32 (programRec 2).launchBody 8) 16 2 = 2) := by
  decide
/-- R264, Table D.7: a stage that waits for an entry of a link which cannot be popped yet is input-blocked. -/
theorem test_input_blocked :
    (chainState (tChain false [{ linkEntry with readyAt := 8 }]) (waitGroup (.chainPop 5))).inputBlocked
      (tChain false [{ linkEntry with readyAt := 8 }]) 1 ⟨2, 16, false, .none⟩ (waitGroup (.chainPop 5)) = true := by decide

/-- A page that the device asks for and no move, shoot-down or running job holds. -/
theorem witness_faultSteps_settles :
    (migState [] false []).settles (mapPage' 7 false) = true
    ∧ ({ migState [] false [] with shoots := [tShoot false] } : State).settles (mapPage' 7 false) = false
    ∧ (migState [] true []).settles (mapPage' 7 true) = false := by
  decide
/-- The last page of a record that is applied: none, its first, and one that a first touch has mapped above the cursor. -/
theorem witness_harrowContexts_top :
    ((pageState (pageRec 0 0 7 .delete 0) []).madeTop (pageRec 0 0 7 .delete 0) = 0)
    ∧ ((pageState (pageRec 0 0 7 .delete 1) [pageOf 7]).madeTop (pageRec 0 0 7 .delete 1) = 1)
    ∧ ((pageState (pageRec 1 0 7 .delete 0) [{ pageOf 7 with va := 0x50000 }]).madeTop (pageRec 1 0 7 .delete 0) = 4
      ∧ (pageState (pageRec 1 0 7 .delete 0) [{ pageOf 7 with va := 0x50000 }]).recPage (pageRec 1 0 7 .delete 0) 3
        = some { pageOf 7 with va := 0x50000 })
    ∧ ((pageOf 7).moving = false ∧ ({ pageOf 7 with moving := true } : Page).moving = true) := by
  decide
/-- Streams whose format the device holds and does not hold (R348), the variant table and placements of the small image,
and PROGRAM records that wait for their grid's first team. -/
theorem witness_harrowRecords_limits :
    (streamHeld (bodyOf [(0xC, 4, 3840 + 2160 * 65536)]) = true
      ∧ streamHeld (bodyOf [(0xC, 4, 3841 + 2160 * 65536)]) = false)
    ∧ ((∃ b, (progState (progRec .create 1 wordVa 0)).readVa 0 wordVa 64 = .ok b ∧ imgOf wordVa b = tImg)
      ∧ (progState (progRec .create 1 0x30000 0)).readVa 0 0x30000 64 = .error eApplyFault)
    ∧ ((progState (progRec .create 1 wordVa 0)).imgPlaces 0 tImg ⟨0, true, 0, 0, true⟩ = .ok [])
    ∧ ((progState { progRec .create 4 wordVa 0 with waiting := true }).turn = some { progRec .create 4 wordVa 0 with waiting := true }) :=
  ⟨by decide, ⟨⟨_, rfl, by decide⟩, rfl⟩, rfl, by decide⟩

/-- A host restart: a host page of a MAPPING record, an interface in its run state and a confidential context. -/
def hostPages : State :=
  { at_ wordGroup with
    pages := [wordPage, { mapPage' 7 false with sp := .host }], recs := [{ mapRec 0 1 7 [] with phase := .converged }]
    ctxs := [wordCtx, { wordCtx with ctx := 1, slot := 9, conf := true, tdi := 1 }], tdisp := [⟨1, 3, 7, 0⟩] }
theorem witness_hostAndPortSteps_restart :
    (∃ p ∈ hostPages.pages, p.kind = .mapping ∧ p.sp = .host ∧ p.revoked = false ∧ p.slot = 6)
    ∧ ((hostPages.record 6).live = true ∧ (hostPages.record 6).kind = 2) := by
  refine ⟨⟨{ mapPage' 7 false with sp := .host }, by decide⟩, by decide⟩
/-- R353: the translation is revoked, the record fails, the context ends with code 0x26, and the vectors are masked. -/
theorem test_host_restart :
    (match exec .hostWarmRestart hostPages with
      | .next t => ((t.pages.filter (fun p => p.slot == 6)).map (fun p => p.revoked), (t.record 6).phase, (t.ctx? 1).map Ctx.endCode,
          t.masked.length, (t.tdi 1).state)
      | _ => ([], .empty, none, 0, 0)) = ([true], .failed, some 0x26, 64, 0) := by decide
/-- A plain group's registers, and v17 and s17 of a folded group, which lie in its second stage's window (R259). -/
theorem witness_hostAndPortSteps_debug :
    (haltState.dbgPlace wordGroup 1 63 = some (wordGroup, 63) ∧ haltState.groupsOn 0 = [wordGroup])
    ∧ (moveState true none).dbgPlace smallGroup 0 17 = some (smallGroup, 1) ∧ (moveState true none).dbgPlace smallGroup 1 17 = some (smallGroup, 1) := by
  decide
/-- Two pieces of a peer's job: what is kept of one that is refused, and the count when the last piece lands (R346). -/
theorem test_inbound_job_counts :
    let s : State := { portState true none [upLink] with arg := { EvArg.zero with a := 5, b := 0x100FC, bytes := [1, 2, 3, 4] } }
    ((match exec .inboundRemoteJob { s with arg := { s.arg with c := 1, d := 9, b := 0x200FC } } with
      | .next t => (t.record 5).refusedJobs
      | _ => []) = [9])
    ∧ (match exec .inboundRemoteJob s with
      | .next t => [t.byteAt ⟨.dev, 0x100FC⟩, t.byteAt ⟨.dev, 0x100FF⟩]
      | _ => []) = [1, 4] := by decide
/-- R349: while unlocked the clock runs on from the last time it had. -/
theorem test_ptp_runs_on :
    (match exec .ptpLock { at_ wordGroup with clk := 940, arg := { EvArg.zero with a := 3, b := 1, c := 5000, d := 127 } } with
      | .next t => [t.ptpNow, ({ t with clk := 1880 } : State).ptpNow, t.ptpPort, t.ptpDomain]
      | _ => []) = [5000, 6000, 3, 127] := by decide

/-- Near-threshold mode: an island that asks for the first time, with a vector instruction ready and without one. -/
def askState (asked : Bool) : State :=
  { islandState { island false 0 0 750 false with asked := asked } with
    groups := [{ wordGroup with wait := .waitcnt 0 0, waitFrom := some 0, die := 3, core := 39, slot := 127 }] }
theorem witness_serviceSteps_near_asked :
    (∀ b ∈ [true, false], (askState b).asksNear 639 = true ∧ (askState b).wantsVector 639 = false
      ∧ (askState b).entersNear { island false 0 0 750 false with asked := b } = true)
    ∧ (islandState (island false 0 0 750 false)).entersNear (island false 0 0 750 false) = false := by
  decide
/-- Words of the management core's subset and outside it, and dies at and above 90 °C. -/
theorem witness_serviceSteps_core :
    (mgmtRuns 0b011100_000011_000010_000001_01001_00_1 = true ∧ mgmtRuns 0b111_1111111_0000001_1000000_00000_11_1 = false)
    ∧ (∀ d < ({ at_ wordGroup with dies := (List.range 4).map fun d => { DieMgmt.fresh d with temps := List.replicate 10 90 } } : State).dieCount,
        (({ at_ wordGroup with dies := (List.range 4).map fun d => { DieMgmt.fresh d with temps := List.replicate 10 90 } } : State).dieMgmt
          d).temps = List.replicate 10 90)
    ∧ (List.replicate 10 90).length = 10 ∧ ∀ t ∈ List.replicate 10 90, t ≤ 90 := by
  decide
/-- R374: an empty list of temperatures releases nothing while a cluster was last read above 90 °C. -/
theorem test_thermal_release_waits :
    (match exec .thermalResetRelease { at_ wordGroup with
        inReset := true, dies := (List.range 4).map fun d => { DieMgmt.fresh d with temps := List.replicate 10 91 } } with
      | .next t => t.inReset
      | _ => false) = true := by decide
/-- SHA-256 of the empty message, and of "abc" (FIPS 180-4). -/
theorem test_sha256 : sha256 [0x61, 0x62, 0x63] = [0xba, 0x78, 0x16, 0xbf, 0x8f, 0x01, 0xcf, 0xea, 0x41, 0x41, 0x40, 0xde, 0x5d, 0xae, 0x22,
    0x23, 0xb0, 0x03, 0x61, 0xa3, 0x96, 0x17, 0x7a, 0x9c, 0xb4, 0x10, 0xff, 0x61, 0xf2, 0x00, 0x15, 0xad] := by decide

/-! ### States that meet the hypotheses added in the third review -/

/-- CPY with a store of the group that its release performs, with one that an earlier load holds back behind a JOIN, and
through a STALE register (R182, R233, R26). -/
def storeOf (epoch : Nat) : Store :=
  { sid := 9, gid := 2, ctx := 0, acc := 0, lane := 0, tgt := .mem ⟨.dev, 0x10800⟩, data := [1], reach := .none, rel := none, cluster := 0,
    die := 0, epoch := epoch, passC := 0, passD := 0 }
def releaseState (g : Group) : State := { cpyState (cardTeam 0 goodCard) g with stores := [storeOf g.epoch], nextId := 1 }
def joinedGroup : Group := { cpyGroup with epoch := 1, acc := [{ tAcc .ld .dev with id := 0, epoch := 0 }] }
def staleGroup : Group := { mGroup .stale with s := cpyGroup.s }
theorem witness_copyInstructions_release :
    (∀ g ∈ [cpyGroup, joinedGroup], g.accessBefore (releaseState g).nextId ⟨.win 1, 0⟩ 64 = false
      ∧ (releaseState g).cardInWindow g ((g.sreg 63).toNat % 2 ^ 31) = .ok ⟨.win 1, 0⟩ 0 ∧ (releaseState g).readCard g ⟨.win 1, 0⟩ = goodCard)
    ∧ (let u := (releaseState cpyGroup).release 2 1 (jobScope goodCard)
       u.performedAt 2 u.nextId (jobScope goodCard) = true ∧ (u.team? 1).isSome = true)
    ∧ (let u := (releaseState joinedGroup).release 2 1 (jobScope goodCard)
       u.performedAt 2 u.nextId (jobScope goodCard) = false)
    ∧ ((staleGroup.sreg 62).msb = false ∧ (staleGroup.breg 7).state = .stale) := by
  refine ⟨by decide, ⟨by decide, by decide⟩, by decide, by decide⟩

/-- Tag functions that a JOIN holds back, and one whose JOIN lets it act (R233). -/
def heldTag (y : Word) : Group := { wordGroup with acc := [{ tAcc .tag .dev with lanes := [{ tLane .dev with y := y }] }] }
theorem witness_tagTable_held :
    (({ wordGroup with epoch := 1, acc := [{ tAcc .ld .dev with epoch := 0 }] } : Group).tagHeld 9 = false
      ∧ (at_ { wordGroup with epoch := 1, acc := [{ tAcc .ld .dev with epoch := 0 }] }).joinClear 2 1 = false)
    ∧ (ev 5 31 (at_ (heldTag 1))).access? 5 = some (heldTag 1, { tAcc .tag .dev with lanes := [{ tLane .dev with y := 1 }] })
    ∧ (heldTag 1).tagHeld 5 = false ∧ (heldTag 1).tagHeld 6 = true ∧ (heldTag 0).tagHeld 6 = false :=
  ⟨⟨by decide, by decide⟩, rfl, by decide, by decide, by decide⟩
theorem test_tag_after_join :
    (match exec .read (ev 5 31 (atTeam { wTeam with tags := [] } (heldTag 1))) with
      | .next t => (t.group? 2).map fun g => g.acc.map fun a => a.lanes.map LaneReq.y
      | _ => none) = some [[0]] := by decide

/-- R314: a mate that is still saved keeps its recorded pops when the unit stops again. -/
theorem test_saved_mate_stays :
    let t : Team := { wordTeam false with state := .stopping }
    ({ atTeam t wordGroup with teams := [t, { t with tid := 3, state := .saved }] } : State).stoppingOf t = [t] := by decide

/-- A message of the coalescer held under its vector, and one of another sender (R294). -/
theorem witness_hostAndPortSteps_notes :
    (∀ n ∈ [none, some 0], 0 ∈ ({ at_ wordGroup with masked := [0], heldMsix := [0], pendingNotes := [5], noteHeld := n } : State).masked)
    ∧ ({ at_ wordGroup with masked := [0], pendingNotes := [0], clk := 18800 } : State).coalesce.noteHeld = some 0 := by decide
theorem test_unmask_keeps_notes :
    (match exec .msixUnmask (ev 0 0 { at_ wordGroup with masked := [0], heldMsix := [0], pendingNotes := [5] }) with
      | .next t => t.pendingNotes
      | _ => []) = [5] := by decide

/-- PROGRAM records whose first deletion step waits for a team, and has waited; an expert program whose launch checks fail
(R289, Table C.6). -/
def undoRec (goal : Goal) : Rec := { progRec goal 0 wordVa 0 with undoing := true, waiting := true }
theorem witness_harrowRecords_undoing :
    (∀ g ∈ [Goal.create, .delete], (recState (undoRec g)).turn = some (undoRec g) ∧ (undoRec g).undoing = true ∧ (undoRec g).waiting = true)
    ∧ ((recState (undoRec .delete)).awaited (undoRec .delete) = true)
    ∧ (({ progState (progRec .delete 0 wordVa 0) with launches := [{ kickLaunch with lid := 0, origin := .program 5, prog := some 5 }] } : State).awaited
        (progRec .delete 0 wordVa 0) = false) := by
  decide
def nineTeams : Rec := tRec 4 0 .create 4 (bodyOf [(0, 8, 0x10000), (0x10, 2, 9), (0x12, 2, 1), (0x14, 2, 1)])
def nineState : State :=
  { progState nineTeams with recs := [nineTeams, { tRec 3 2 .create 2 (bodyOf [(0, 4, 9)]) with slot := 6, phase := .converged }] }
theorem witness_harrowRecords_expert :
    (nineState.turn = some nineTeams ∧ nineState.arg.a = 5 ∧ nineTeams.waiting = false)
    ∧ ((nineState.begun nineTeams).imageMoves 0 (w64 nineTeams.body 0) = false ∧ (nineState.begun nineTeams).isExpertProgram nineTeams.begun = true)
    ∧ (match (nineState.begun nineTeams).programLaunch { nineTeams.begun with launchVariant := nineTeams.variant } nineTeams.body 0 0 (.firing 5 0) with
      | .error e => e
      | .ok _ => 0) = eBadImage := by
  decide

/-- The management core: words that it executes, one outside its subset, and a trap in its code (R373). -/
def fwArg (w : Nat) (s : State) : State := { s with arg := { EvArg.zero with flag := true, bytes := leBytes 8 w } }
theorem witness_serviceSteps_firmware :
    (State.reset.mgmtReady = true ∧ State.reset.mgmt.handler = none)
    ∧ ((State.reset.mgmtStep (leBytes 8 0xA8000351000061F1) 0).2 = none ∧ (State.reset.mgmtStep (leBytes 4 (0x61 + 16 * 256)) 0).2 = some (cSoftware, 4))
    ∧ (upcoming (.ok (leBytes 8 0x00000349000061F1)) = .word (.ext 0x61 0x349) 8 0 ∧ mgmtRuns (leNat (leBytes 8 0x00000349000061F1)) = false
      ∧ ∀ g ∈ (State.reset.mgmtView (leBytes 8 0x00000349000061F1) 0).groups,
        (State.reset.mgmtView (leBytes 8 0x00000349000061F1) 0).groupBytes g g.pc = .ok (leBytes 8 0x00000349000061F1)) :=
  ⟨⟨rfl, rfl⟩, ⟨rfl, rfl⟩, rfl, rfl, fun g hg => by cases List.mem_singleton.mp hg; rfl⟩
/-- Table A.24: SADDI s3, s0, 100000 on the management core. -/
theorem test_firmware_saddi :
    (match exec .firmwareException (fwArg 0xA8000351000061F1 State.reset) with
      | .next t => (t.mgmt.sreg 3, t.mgmt.pc)
      | _ => (0, 0)) = (100000, 8) := rfl

/-- The reach of an image's relocations: a record that has loaded it in its life, and a grid of it that runs (R399). -/
theorem witness_harrowRecords_loaded :
    (∀ va ∈ [wordVa, 0x30000], ({ at_ wordGroup with recs := [{ progRec .create 2 wordVa 0 with loaded := [wordVa, 0x30000] }] } : State).isLoaded 0 va 0 = true)
    ∧ (at_ wordGroup).isLoaded 0 wordVa 0 = false
    ∧ ({ at_ wordGroup with launches := [{ kickLaunch with origin := .program 5 }] } : State).isLoaded 0 wordVa kickLaunch.codeBase = true := by
  decide

/-- Fragments on the home core (R216). -/
theorem witness_matrixWords_home : coreOf fGroup.die fGroup.core = (mTeam mStream).home := by decide

end Sys2Proof.Tests
end

section
/-!
Scalar registers and pairs as they read after a write (R20).
-/

namespace Sys2Proof.Machine

@[simp] theorem sreg_zero (g : Group) : g.sreg 0 = 0 := rfl

/-- A write to s0 is discarded. -/
@[simp] theorem setS_zero (g : Group) (x : Word) : g.setS 0 x = g := rfl

@[simp] theorem length_setS (g : Group) (r : Nat) (x : Word) : (g.setS r x).s.length = g.s.length := by
  unfold Group.setS
  split <;> simp

theorem sreg_setS_same {g : Group} {r : Nat} (x : Word) (hr : r < g.s.length) (h0 : r ≠ 0) : (g.setS r x).sreg r = x := by
  simp [Group.setS, Group.sreg, h0, hr]

theorem sreg_setS_other (g : Group) {r k : Nat} (x : Word) (h : k ≠ r) : (g.setS r x).sreg k = g.sreg k := by
  unfold Group.setS
  split
  · rfl
  · simp [Group.sreg, List.getElem?_set_ne h.symm]

/-- A pair's value is its high half before its low half. -/
theorem halves_append (x : BitVec 64) : x.extractLsb' 32 32 ++ x.extractLsb' 0 32 = x :=
  (BitVec.extractLsb'_append_extractLsb'_eq_extractLsb' (rfl : 32 = 0 + 32)).trans BitVec.extractLsb'_eq_self

theorem high_append_zero (x : BitVec 64) : x.extractLsb' 32 32 ++ (0 : Word) = x &&& 0xFFFFFFFF00000000 :=
  calc x.extractLsb' 32 32 ++ (0 : Word)
      = (x.extractLsb' 32 32 &&& BitVec.allOnes 32) ++ (x.extractLsb' 0 32 &&& 0) := by rw [BitVec.and_allOnes]; simp
    _ = (x.extractLsb' 32 32 ++ x.extractLsb' 0 32) &&& (BitVec.allOnes 32 ++ 0) := BitVec.and_append.symm
    _ = x &&& 0xFFFFFFFF00000000 := by rw [halves_append]; rfl

theorem sreg_setPair_other (g : Group) {r k : Nat} (x : BitVec 64) (h : k ≠ r) (h' : k ≠ r + 1) :
    (g.setPair r x).sreg k = g.sreg k := by
  rw [Group.setPair, sreg_setS_other _ _ h', sreg_setS_other _ _ h]

theorem sreg_setPair_high {g : Group} {r : Nat} (x : BitVec 64) (hr : r + 1 < g.s.length) :
    (g.setPair r x).sreg (r + 1) = x.extractLsb' 32 32 :=
  sreg_setS_same _ (by simpa using hr) (Nat.succ_ne_zero r)

theorem sreg_setPair_low {g : Group} {r : Nat} (x : BitVec 64) (hr : r < g.s.length) (h0 : r ≠ 0) :
    (g.setPair r x).sreg r = x.extractLsb' 0 32 := by
  rw [Group.setPair, sreg_setS_other _ _ (Nat.ne_of_lt r.lt_succ_self), sreg_setS_same _ hr h0]

/-- Settles O4: the two halves of a pair are two registers, each with the laws of a single one. -/
theorem scalarRegisters : Obligations.ScalarRegisters := by
  unfold Obligations.ScalarRegisters
  refine ⟨fun g r x hl hr => ⟨rfl, fun k hk => sreg_setS_other g x hk, fun h0 => sreg_setS_same x (hl ▸ hr) h0, ?_⟩,
    fun g r x hl hr => ⟨fun h0 => ?_, ?_, fun k hk hk' => sreg_setPair_other g x hk hk'⟩⟩
  · rintro rfl
    exact setS_zero g x
  · rw [Group.pair, sreg_setPair_high x (by omega), sreg_setPair_low x (by omega) h0, halves_append]
  · rintro rfl
    rw [Group.pair, sreg_setPair_high x (by omega), sreg_zero, high_append_zero]

end Sys2Proof.Machine
end

section
/-!
What a team starts with: the scalar registers of its groups (R21) and its plane regions (R244); and the
state right after a reset.
-/

namespace Sys2Proof.Machine

/-- A plane region no step or store has reached. -/
structure Plane.Untouched (p : Plane) : Prop where
  present : p.present = []
  next : p.next = []
  steps : p.steps = 0

/-- P, X, W and C of every word of an untouched region are 0. -/
theorem Plane.Untouched.words {p : Plane} (h : p.Untouched) (k : Nat) : p.presentAt k = 0 ∧ p.query k = (0, 0) := by
  simp [Plane.presentAt, Plane.query, Plane.carried, h.present, h.next]

/-- The regions that a kernel declares are untouched. -/
theorem planesOf_untouched {s : State} {ctx n : Nat} {i : Img} {k : Kernel} {ps : List Plane}
    (h : s.planesOf ctx i k n = .ok ps) : ∀ p ∈ ps, p.Untouched := by
  unfold State.planesOf at h
  split at h
  · cases h
  · dsimp only at h
    split at h
    · cases h
      intro p hp
      obtain ⟨b, -, rfl⟩ := List.mem_map.1 hp
      exact ⟨rfl, rfl, rfl⟩
    · cases h

theorem kernelRole_untouched {s : State} {ctx n : Nat} {i : Img} {k : Kernel} {w : With} {r : Role}
    (h : s.kernelRole ctx i n k w = .ok r) : ∀ p ∈ r.planes, p.Untouched := by
  unfold State.kernelRole at h
  dsimp only at h
  split at h
  · cases h
  · rename_i ps hps
    cases h
    exact planesOf_untouched hps

/-- The stages of a chain have no plane region. -/
theorem chainRoles_planes {s : State} {ctx n : Nat} {i : Img} {k : Kernel} {w : With} {folded : Bool}
    {x : List Role × ChainDesc} (h : s.chainRoles ctx i n k w folded = .ok x) : ∀ r ∈ x.1, r.planes = [] := by
  unfold State.chainRoles at h
  dsimp only at h
  split at h
  · cases h
  · split at h
    · cases h
    · cases h
      intro r hr
      obtain ⟨j, -, rfl⟩ := List.mem_map.1 hr
      rfl

theorem rolesOf_untouched {s : State} {ctx n : Nat} {i : Img} {w : With} {folded : Bool} {x : List Role × Option ChainDesc}
    (h : s.rolesOf ctx i n w folded = .ok x) : ∀ r ∈ x.1, ∀ p ∈ r.planes, p.Untouched := by
  unfold State.rolesOf at h
  split at h
  · cases h
  split at h
  · cases h
  split at h <;> split at h <;> cases h
  case _ y hy =>
    intro r hr p hp
    rw [chainRoles_planes hy r hr] at hp
    exact absurd hp List.not_mem_nil
  case _ r hr =>
    intro r' hr'
    rw [List.mem_singleton.1 hr']
    exact kernelRole_untouched hr

/-- A new group's scalar registers but s1 and s2 are 0. -/
theorem newGroup_sreg_other (s : State) (l : Launch) (i gid tid core slot blk : Nat) (m : Nat × Role) {r : Nat} (h1 : r ≠ 1)
    (h2 : r ≠ 2) : (s.newGroup l i gid tid core slot blk m).sreg r = 0 := by
  simp only [Group.sreg, State.newGroup, List.getD_eq_getElem?_getD, List.getElem?_set_ne h1.symm,
    List.getElem?_set_ne h2.symm, List.getElem?_replicate]
  split
  · rfl
  · split <;> rfl

/-- Settles O54: a region starts as its kernel declares it. -/
theorem startOfGroups : Obligations.StartOfGroups := by
  unfold Obligations.StartOfGroups
  refine ⟨fun s l i gid tid core slot blk m => ⟨rfl, rfl, fun r h1 h2 =>
      newGroup_sreg_other s l i gid tid core slot blk m h1 h2⟩, fun s ctx n i w folded x h r hr p hp => ?_,
    fun l i tid home partner => rfl⟩
  have hu := rolesOf_untouched h r hr p hp
  exact ⟨hu.steps, hu.words⟩

/-! ### The state after a reset -/

/-- Settles O60: every list of objects is empty at reset, so every lookup gives the object's fresh value. -/
theorem resetState : Obligations.ResetState := by
  unfold Obligations.ResetState
  exact ⟨rfl, rfl, fun _ => ⟨rfl, rfl, rfl⟩, rfl, rfl, rfl, rfl, rfl, rfl, rfl, rfl, rfl,
    fun _ => ⟨rfl, rfl, rfl, rfl, rfl⟩, fun _ => ⟨rfl, rfl⟩, fun _ => rfl, fun _ => rfl, rfl, rfl, rfl, rfl,
    rfl, rfl, by decide, fun _ h => absurd h List.not_mem_nil⟩

end Sys2Proof.Machine
end

section
/-!
What leaves memory as it was: a change of the groups, and one of a team outside its window.
-/

namespace Sys2Proof.Machine

/-- The bytes of a team's window. -/
theorem cells_win (s : State) (k : Nat) : s.cells (.win k) = ((s.team? k).map Team.win).getD [] := by
  simp only [State.cells]
  cases s.team? k <;> rfl

/-- Every byte reads as before when device, host and peer memory and the windows of the teams are as before. -/
theorem sameBytes_of_memories {s t : State} (hd : t.dev = s.dev) (hh : t.hostMem = s.hostMem) (hp : t.peers = s.peers)
    (hw : ∀ k, (t.team? k).map Team.win = (s.team? k).map Team.win) : SameBytes s t := by
  intro p
  have hc : t.cells p.sp = s.cells p.sp := by
    cases p.sp with
    | dev => exact hd
    | host => exact hh
    | peer l => simp only [State.cells, hp]
    | win k => rw [cells_win, cells_win, hw k]
    | plane _ _ => rfl
    | kick _ => rfl
    | port _ => rfl
  rw [State.byteAt, State.byteAt, hc]

theorem sameBytes_putGroup (s : State) (g : Group) : SameBytes s (s.putGroup g) :=
  sameBytes_of_memories rfl rfl rfl fun _ => rfl

/-- A team put back with its window changes no window. -/
theorem win_putTeam {s : State} {x y : Team} (hy : s.team? x.tid = some y) (hw : x.win = y.win) (k : Nat) :
    ((s.putTeam x).team? k).map Team.win = (s.team? k).map Team.win := by
  by_cases h : x.tid = k
  · subst h
    rw [State.team?_putTeam_same, hy, Option.map_some, Option.map_some, hw]
  · rw [State.team?_putTeam_other s x h]

/-- Putting a group changes nothing but that group. -/
theorem onlyGroup_putGroup (s : State) (g : Group) : OnlyGroup s (s.putGroup g) g.gid :=
  ⟨rfl, fun _ h => State.group?_putGroup_other s g h.symm⟩

end Sys2Proof.Machine
end

section
/-!
The frame of the instructions that write registers alone: what each leaves of its group, through the shape that it shares
with the instructions of its kind.
-/

namespace Sys2Proof.Machine

/-! ### One write to a register -/

/-- Group h is group g but for the vector registers vs, the scalar registers ss, and results on their way to them. -/
structure WritesOnly (g h : Group) (vs ss : List Nat) : Prop where
  vector : ∀ r, r ∉ vs → h.vreg r = g.vreg r
  scalar : ∀ r, r ∉ ss → h.sreg r = g.sreg r
  pending : ∃ new : List Landing, h.landing = g.landing ++ new
    ∧ ∀ w ∈ new, (w.scalar = true → w.reg ∈ ss) ∧ (w.scalar = false → w.reg ∈ vs)
  rest : ∃ v x l, h = { g with v := v, s := x, landing := l }

theorem WritesOnly.refl (g : Group) (vs ss : List Nat) : WritesOnly g g vs ss :=
  ⟨fun _ _ => rfl, fun _ _ => rfl, ⟨[], (List.append_nil _).symm, fun _ h => absurd h List.not_mem_nil⟩, g.v, g.s, g.landing, rfl⟩

/-- A result that lands later is on its way to its register. -/
theorem writesOnly_pending (g : Group) {w : Landing} {vs ss : List Nat} (hs : w.scalar = true → w.reg ∈ ss)
    (hv : w.scalar = false → w.reg ∈ vs) : WritesOnly g { g with landing := g.landing ++ [w] } vs ss :=
  ⟨fun _ _ => rfl, fun _ _ => rfl, ⟨[w], rfl, fun x hx => by rw [List.mem_singleton.1 hx]; exact ⟨hs, hv⟩⟩, _, _, _, rfl⟩

theorem writesOnly_setV (g : Group) {r : Nat} (m : Word) (x : Vec) {vs ss : List Nat} (hr : r ∈ vs) :
    WritesOnly g (g.setV r m x) vs ss where
  vector k hk := by
    have hne : r ≠ k := fun e => hk (e ▸ hr)
    simp [Group.setV, Group.vreg, List.getElem?_set_ne hne]
  scalar _ _ := rfl
  pending := ⟨[], (List.append_nil _).symm, fun _ h => absurd h List.not_mem_nil⟩
  rest := ⟨_, _, _, rfl⟩

theorem writesOnly_setS (g : Group) {r : Nat} (x : Word) {vs ss : List Nat} (hr : r ∈ ss) :
    WritesOnly g (g.setS r x) vs ss := by
  have hs : ∀ k, k ∉ ss → (g.setS r x).sreg k = g.sreg k := fun k hk => sreg_setS_other g x fun e => hk (e ▸ hr)
  unfold Group.setS at hs ⊢
  split
  · exact .refl g vs ss
  · rename_i h0
    rw [if_neg h0] at hs
    exact ⟨fun _ _ => rfl, hs, ⟨[], (List.append_nil _).symm, fun _ h => absurd h List.not_mem_nil⟩, _, _, _, rfl⟩

theorem WritesOnly.trans {g h k : Group} {vs ss : List Nat} (a : WritesOnly g h vs ss) (b : WritesOnly h k vs ss) :
    WritesOnly g k vs ss where
  vector r hr := (b.vector r hr).trans (a.vector r hr)
  scalar r hr := (b.scalar r hr).trans (a.scalar r hr)
  pending := by
    obtain ⟨m, hm, am⟩ := a.pending
    obtain ⟨n, hn, bn⟩ := b.pending
    exact ⟨m ++ n, by rw [hn, hm, List.append_assoc], fun w hw => (List.mem_append.1 hw).elim (am w) (bn w)⟩
  rest := by
    obtain ⟨_, _, _, rfl⟩ := a.rest
    obtain ⟨v, x, l, rfl⟩ := b.rest
    exact ⟨v, x, l, rfl⟩

theorem writesOnly_setPair (g : Group) {r : Nat} (x : BitVec 64) {vs ss : List Nat} (hr : r ∈ ss) (hr' : r + 1 ∈ ss) :
    WritesOnly g (g.setPair r x) vs ss :=
  (writesOnly_setS g _ hr).trans (writesOnly_setS _ _ hr')

theorem writesOnly_writeV (g : Group) (clk n : Nat) {r : Nat} (x : Vec) {vs ss : List Nat} (hr : r ∈ vs) :
    WritesOnly g (g.writeV clk n r x) vs ss := by
  unfold Group.writeV
  split
  · exact .refl g vs ss
  · split
    · exact writesOnly_setV g _ x hr
    · exact writesOnly_pending g (fun h => Bool.noConfusion h) fun _ => hr

theorem writesOnly_writeS (g : Group) (clk n : Nat) {r : Nat} (x : Word) {vs ss : List Nat} (hr : r ∈ ss) :
    WritesOnly g (g.writeS clk n r x) vs ss := by
  unfold Group.writeS
  split
  · exact writesOnly_setS g x hr
  · split
    · exact .refl g vs ss
    · exact writesOnly_pending g (fun _ => hr) fun h => Bool.noConfusion h

/-- The end of an instruction changes what every issue changes, and no register. -/
theorem WritesOnly.onward {g h : Group} {vs ss : List Nat} (a : WritesOnly g h vs ss) (clk : Nat) (q : Issue) :
    KeepsGroup g (h.onward clk q) vs ss := by
  obtain ⟨hv, hs, hl, _, _, _, rfl⟩ := a
  exact ⟨hv, hs, hl, rfl⟩

/-! ### The shapes of instructions -/

/-- An instruction that passes its checks has its effect, and any other traps. -/
theorem instr_cases {s t : State} {q : Issue} {g : Group} {u : Uses} {more : Issue → Group → Option Nat}
    {eff : Issue → Group → State} (hi : Issues s q g) (h : instr s u more eff = .next t) :
    (∃ c, t = s.trap g c) ∨ t = eff q g := by
  simp only [instr, withGroup_of_issues hi] at h
  injection h with h
  subst h
  split
  · exact .inl ⟨_, rfl⟩
  · split
    · exact .inl ⟨_, rfl⟩
    · exact .inr rfl

/-- Answer a is that of an instruction that writes the vector registers vs and the scalar registers ss and goes on. -/
def WritesRegisters (s : State) (a : Answer) (vs ss : List Nat) : Prop :=
  ∃ (u : Uses) (more : Issue → Group → Option Nat) (eff : Issue → Group → Group),
    a = plain s u more eff ∧ ∀ q g, WritesOnly g (eff q g) vs ss

/-- Such an instruction traps, or changes nothing but those registers. -/
theorem WritesRegisters.frame {s t : State} {q : Issue} {g : Group} {a : Answer} {vs ss : List Nat}
    (h : WritesRegisters s a vs ss) (hi : Issues s q g) (ha : a = .next t) :
    (∃ c, t = s.trap g c) ∨ OnlyGroup s t g.gid ∧ SameBytes s t ∧ ∃ k, t.group? g.gid = some k ∧ KeepsGroup g k vs ss := by
  obtain ⟨u, more, eff, rfl, hw⟩ := h
  refine (instr_cases hi ha).imp_right ?_
  rintro rfl
  have hk := (hw q g).onward s.clk q
  have hg : ((eff q g).onward s.clk q).gid = g.gid := by
    obtain ⟨_, _, _, h⟩ := (hw q g).rest
    rw [h]
    rfl
  refine ⟨hg ▸ onlyGroup_putGroup s _, sameBytes_putGroup s _, _, hg ▸ State.group?_putGroup_same s _, hk⟩

/-- A result for the lanes in exec. -/
theorem writesRegisters_writeV {s : State} {u : Uses} {more : Issue → Group → Option Nat} (n : Nat) {d : Nat}
    (f : Issue → Group → Vec) : WritesRegisters s (plain s u more fun q g => g.writeV s.clk n d (f q g)) [d] [] :=
  ⟨_, _, _, rfl, fun _ g => writesOnly_writeV g _ n _ List.mem_cons_self⟩

/-- A scalar result. -/
theorem writesRegisters_writeS {s : State} {u : Uses} {more : Issue → Group → Option Nat} (n : Nat) {d : Nat}
    (f : Issue → Group → Word) : WritesRegisters s (plain s u more fun q g => g.writeS s.clk n d (f q g)) [] [d] :=
  ⟨_, _, _, rfl, fun _ g => writesOnly_writeS g _ n _ List.mem_cons_self⟩

/-- A scalar register written at once. -/
theorem writesRegisters_setS {s : State} {u : Uses} {more : Issue → Group → Option Nat} {d : Nat} (f : Issue → Group → Word) :
    WritesRegisters s (plain s u more fun q g => g.setS d (f q g)) [] [d] :=
  ⟨_, _, _, rfl, fun _ g => writesOnly_setS g _ List.mem_cons_self⟩

/-- A pair of scalar registers. -/
theorem writesRegisters_setPair {s : State} {u : Uses} {more : Issue → Group → Option Nat} {d : Nat}
    (f : Issue → Group → BitVec 64) : WritesRegisters s (plain s u more fun q g => g.setPair d (f q g)) [] [d, d + 1] :=
  ⟨_, _, _, rfl, fun _ g => writesOnly_setPair g _ List.mem_cons_self (List.mem_cons_of_mem _ List.mem_cons_self)⟩

/-! ### The vector instructions -/

theorem vecBin_writesRegisters (n d a b : Nat) (f : Word → Word → Word) (s : State) :
    WritesRegisters s (vecBin n d a b f s) [d] [] := writesRegisters_writeV n _

theorem vecImm_writesRegisters (n d a : Nat) (imm : Issue → Word) (ok : Bool) (f : Word → Word → Word) (s : State) :
    WritesRegisters s (vecImm n d a imm ok f s) [d] [] := writesRegisters_writeV n _

theorem vecF_writesRegisters (n d a b : Nat) (readsD : Bool) (f : Word → Word → Word → Word → Word) (s : State) :
    WritesRegisters s (vecF n d a b readsD f s) [d] [] := writesRegisters_writeV n _

theorem vecUn_writesRegisters (n d a : Nat) (f : Word → Word → Word) (s : State) :
    WritesRegisters s (vecUn n d a f s) [d] [] := writesRegisters_writeV n _

theorem laneImm_writesRegisters (d a imm : Nat) (src : Nat → Nat) (s : State) :
    WritesRegisters s (laneImm d a imm src s) [d] [] := writesRegisters_writeV 2 _

theorem laneReduce_writesRegisters (d a : Nat) (f : Word → Word → Vec → Vec) (s : State) :
    WritesRegisters s (laneReduce d a f s) [d] [] := writesRegisters_writeV 2 _

theorem vshfl_writesRegisters (d a b : BitVec 7) (s : State) : WritesRegisters s (execVshfl d a b s) [d.toNat] [] :=
  writesRegisters_writeV 2 _

theorem vbcs_writesRegisters (d : BitVec 7) (r : BitVec 6) (s : State) : WritesRegisters s (execVbcs d r s) [d.toNat] [] :=
  writesRegisters_writeV 1 _

theorem vlaneid_writesRegisters (d : BitVec 7) (s : State) : WritesRegisters s (execVlaneid d s) [d.toNat] [] :=
  writesRegisters_writeV 1 _

theorem vmov_writesRegisters (d : BitVec 6) (a : BitVec 5) (s : State) : WritesRegisters s (execVmov d a s) [d.toNat] [] :=
  writesRegisters_writeV 1 _

theorem vnot16_writesRegisters (d : BitVec 6) (a : BitVec 5) (s : State) :
    WritesRegisters s (execVnot16 d a s) [d.toNat] [] := writesRegisters_writeV 1 _

theorem vmovsl_writesRegisters (a : BitVec 7) (r : BitVec 6) (i : BitVec 5) (s : State) :
    WritesRegisters s (execVmovsl a r i s) [] [r.toNat] := writesRegisters_writeS 1 _

/-- Under exec 0 a comparison writes nothing. -/
theorem vecCmp_writesRegisters (d a b : Nat) (test : Word → Word → Word → Bool) (s : State) :
    WritesRegisters s (vecCmp d a b test s) [] [d] := by
  refine ⟨_, _, _, rfl, fun _ g => ?_⟩
  split
  · exact .refl g _ _
  · exact writesOnly_writeS g _ _ _ List.mem_cons_self

/-- VSETL writes nothing where its lane is outside exec. -/
theorem vsetl_writesRegisters (d : BitVec 7) (r : BitVec 6) (i : BitVec 5) (s : State) :
    WritesRegisters s (execVsetl d r i s) [d.toNat] [] := by
  refine ⟨_, _, _, rfl, fun _ g => ?_⟩
  split
  · exact writesOnly_setV g _ _ List.mem_cons_self
  · exact .refl g _ _

/-! ### The scalar instructions -/

theorem scaBin_writesRegisters (n d a b : Nat) (f : Word → Word → Word) (s : State) :
    WritesRegisters s (scaBin n d a b f s) [] [d] := writesRegisters_writeS n _

theorem scaUn_writesRegisters (d a : Nat) (f : Word → Word) (s : State) : WritesRegisters s (scaUn d a f s) [] [d] :=
  writesRegisters_writeS 1 _

theorem scaTern_writesRegisters (d a b : Nat) (f : Word → Word → Word → Word) (s : State) :
    WritesRegisters s (scaTern d a b f s) [] [d] := writesRegisters_writeS 1 _

theorem scaImm_writesRegisters (d a : Nat) (imm : Issue → Word) (f : Word → Word → Word) (s : State) :
    WritesRegisters s (scaImm d a imm f s) [] [d] := writesRegisters_writeS 1 _

theorem scaPair_writesRegisters (d a b : Nat) (f : BitVec 64 → BitVec 64 → BitVec 64) (s : State) :
    WritesRegisters s (scaPair d a b f s) [] [d, d + 1] := writesRegisters_setPair _

theorem scaPairShift_writesRegisters (d a b : Nat) (f : BitVec 64 → Nat → BitVec 64) (s : State) :
    WritesRegisters s (scaPairShift d a b f s) [] [d, d + 1] := writesRegisters_setPair _

theorem slui_writesRegisters (d : BitVec 6) (v : BitVec 18) (s : State) : WritesRegisters s (execSlui d v s) [] [d.toNat] :=
  writesRegisters_writeS 1 _

theorem sgetexec_writesRegisters (d : BitVec 6) (s : State) : WritesRegisters s (execSgetexec d s) [] [d.toNat] :=
  writesRegisters_setS _

theorem fmtget_writesRegisters (d : BitVec 6) (s : State) : WritesRegisters s (execFmtget d s) [] [d.toNat] :=
  writesRegisters_setS _

/-! ### All of them -/

/-- Each instruction of Tables A.10 and A.14 to A.18 has one of these shapes. -/
theorem exec_writesRegisters {i : Instr} {vs ss : List Nat} (h : writtenBy i = some (vs, ss)) (s : State) :
    WritesRegisters s (exec i s) vs ss := by
  cases i
  case vaddI | vsubI | vmullo | vmulhiS | vmulhiZ | vand | vor | vxor | vshl | vshrz | vshrs | vminS | vmaxS | vminZ |
      vmaxZ | vrotl | vaddI16 | vsubI16 | vand16 | vor16 | vxor16 | vshl16 | vshrz16 | vmullo16 | vshrs16 =>
    cases h; unfold exec; exact vecBin_writesRegisters _ _ _ _ _ _
  case vaddF | vsubF | vmulF | vfmaF | vfnmaF | vminF | vmaxF | vcpsgn | vaddH | vmulH | vfmaH | vdot2H | vaddBf | vmulBf
      | vfmaBf | vdot2Bf | vaddF16 | vsubF16 | vmulF16 | vmaxF16 | vminF16 =>
    cases h; unfold exec; exact vecF_writesRegisters _ _ _ _ _ _ _
  case vcmpEqF | vcmpNeF | vcmpLtF | vcmpLeF | vcmpGtF | vcmpGeF | vcmpUnF | vcmpOrF | vcmpEqI | vcmpNeI | vcmpLtS |
      vcmpLeS | vcmpLtZ | vcmpLeZ | vcmpTst | vcmpNtst =>
    cases h; unfold exec; exact vecCmp_writesRegisters _ _ _ _ _
  case vaddi | vandi | vori | vxori | vshli | vshrzi | vshrsi | vmuli =>
    cases h; unfold exec; exact vecImm_writesRegisters _ _ _ _ _ _ _
  case vrcp | vrsq | vsqrt | vexp2 | vlog2 | vsinpi | vcospi | vtanh | vabsF | vnegF | vfloor | vfract | vabsI | vnegI |
      vnot | vpopc | vclz | vbrev =>
    cases h; unfold exec; exact vecUn_writesRegisters _ _ _ _ _
  case vshfl =>
    cases h; unfold exec; exact vshfl_writesRegisters _ _ _ _
  case vshflx | vshflup | vshfldn | vbcast =>
    cases h; unfold exec; exact laneImm_writesRegisters _ _ _ _ _
  case vraddF | vrmaxF | vscanF =>
    cases h; unfold exec; exact laneReduce_writesRegisters _ _ _ _
  case vbcs =>
    cases h; unfold exec; exact vbcs_writesRegisters _ _ _
  case vmovsl =>
    cases h; unfold exec; exact vmovsl_writesRegisters _ _ _ _
  case vlaneid =>
    cases h; unfold exec; exact vlaneid_writesRegisters _ _
  case vsetl =>
    cases h; unfold exec; exact vsetl_writesRegisters _ _ _ _
  case sadd | ssub | smul | smulhs | smulhz | sand | sor | sxor | sandn | sshl | sshrz | sshrs | smins | smaxs | sminz |
      smaxz | sslts | ssltz | sseq | sbfe =>
    cases h; unfold exec; exact scaBin_writesRegisters _ _ _ _ _ _
  case spopc | sctz | sclz =>
    cases h; unfold exec; exact scaUn_writesRegisters _ _ _ _
  case sbfi | ssel =>
    cases h; unfold exec; exact scaTern_writesRegisters _ _ _ _ _
  case sadd64 | ssub64 =>
    cases h; unfold exec; exact scaPair_writesRegisters _ _ _ _ _
  case sshl64 | sshrz64 =>
    cases h; unfold exec; exact scaPairShift_writesRegisters _ _ _ _ _
  case saddi | sandi | sori | sxori =>
    cases h; unfold exec; exact scaImm_writesRegisters _ _ _ _ _
  case slui =>
    cases h; unfold exec; exact slui_writesRegisters _ _ _
  case sgetexec =>
    cases h; unfold exec; exact sgetexec_writesRegisters _ _
  case fmtget =>
    cases h; unfold exec; exact fmtget_writesRegisters _ _
  case vmov =>
    cases h; unfold exec; exact vmov_writesRegisters _ _ _
  case vnot16 =>
    cases h; unfold exec; exact vnot16_writesRegisters _ _ _
  all_goals cases h

/-- Settles O55, by the shape of each instruction. -/
theorem registerFrame : Obligations.RegisterFrame := by
  unfold Obligations.RegisterFrame
  exact fun _ _ _ s _ _ _ hw hi he => (exec_writesRegisters hw s).frame hi he

end Sys2Proof.Machine
end

section
/-!
Ending, committing, launching and guards: the place of an issue (R35, R36), the committed mark, the commit buffer (R103),
and the resolution of a guard (R104).
-/

namespace Sys2Proof.Machine

/-! ### The place of an issue -/

/-- The place of an issue names its clk. -/
theorem issueTurn_div (s : State) (g : Group) : s.issueTurn g / 8 = s.clk := by
  unfold State.issueTurn
  dsimp only
  split <;> split <;> omega

/-- It depends on the clk, on the home core of the team, and on the place of the group. -/
theorem issueTurn_congr {s u : State} {g h : Group} {t t' : Team} (hc : u.clk = s.clk) (ht : s.team? g.tid = some t)
    (hu : u.team? h.tid = some t') (hh : t'.home = t.home) (hd : h.die = g.die) (hk : h.core = g.core) (hs : h.slot = g.slot) :
    u.issueTurn h = s.issueTurn g := by
  simp only [State.issueTurn, ht, hu, hc, hh, hd, hk, hs]

/-! ### The committed mark -/

/-- Team t with the committed mark of the COMMIT of an identity and a place. -/
def Team.marked (t : Team) (turn id : Nat) : Team :=
  { t with committed := true, commitTurn := max t.commitTurn turn, releasing := t.releasing ++ [(turn, id)] }

theorem markCommitted_of_team {s : State} {k : Nat} {t : Team} (ht : s.team? k = some t) (turn id : Nat) :
    s.markCommitted k turn id = { s.putTeam (t.marked turn id) with
      queues := s.queues.map fun q =>
        { q with tents := q.tents.filter (fun x => !(x.tid == k && decide (x.turn < turn))) } } := by
  simp only [State.markCommitted, ht]
  rfl

theorem team?_markCommitted {s : State} {k : Nat} {t : Team} (ht : s.team? k = some t) (turn id : Nat) :
    (s.markCommitted k turn id).team? k = some (t.marked turn id) := by
  obtain rfl := State.tid_of_team? ht
  rw [markCommitted_of_team ht]
  exact State.team?_putTeam_same s (t.marked turn id)

/-- The pops that the team issued before the mark are final. -/
theorem tents_markCommitted {s : State} {k : Nat} {t : Team} (ht : s.team? k = some t) (turn id : Nat) :
    ∀ q ∈ (s.markCommitted k turn id).queues, ∀ e ∈ q.tents, e.tid = k → turn ≤ e.turn := by
  rw [markCommitted_of_team ht]
  intro q hq e he hk
  obtain ⟨p, -, rfl⟩ := List.mem_map.1 hq
  have h := (List.mem_filter.1 he).2
  simpa [hk] using h

theorem sameBytes_markCommitted {s : State} {k : Nat} {t : Team} (ht : s.team? k = some t) (turn id : Nat) :
    SameBytes s (s.markCommitted k turn id) := by
  obtain rfl := State.tid_of_team? ht
  rw [markCommitted_of_team ht]
  exact sameBytes_of_memories rfl rfl rfl (win_putTeam (x := t.marked turn id) ht rfl)

theorem clk_markCommitted {s : State} {k : Nat} {t : Team} (ht : s.team? k = some t) (turn id : Nat) :
    (s.markCommitted k turn id).clk = s.clk := by
  rw [markCommitted_of_team ht]
  rfl

/-- The wait of a COMMIT names the place of its issue, which the mark does not move. -/
theorem commitWait_eq {s m : State} {g : Group} {t t' : Team} (hc : m.clk = s.clk) (ht : s.team? g.tid = some t)
    (hm : m.team? g.tid = some t') (hh : t'.home = t.home) (sc : Nat) (isEnd : Bool) :
    ({ g.stamp m.clk sc with wait := .commit (m.issueTurn (g.stamp m.clk sc)) isEnd } : Group)
      = { g.stamp s.clk sc with wait := .commit (s.issueTurn g) isEnd } := by
  have hturn : m.issueTurn (g.stamp m.clk sc) = s.issueTurn g := issueTurn_congr hc ht hm hh rfl rfl rfl
  rw [hturn, hc]

/-- COMMIT and END mark the team at the place of their issue and wait for what entered the commit buffer before it. -/
theorem commitOp_marks {s : State} {q : Issue} {g : Group} {t : Team} (hi : Issues s q g) (ht : s.team? g.tid = some t)
    (isEnd : Bool) :
    commitOp isEnd s = .next ((s.newId.2.markCommitted g.tid (s.issueTurn g) s.nextId).putGroup
      { g.stamp s.clk (if isEnd then 0 else q.sc) with wait := .commit (s.issueTurn g) isEnd }) := by
  have hn : s.newId.2.team? g.tid = some t := ht
  refine (instr_runs hi (usable_none g) _ rfl).trans (congrArg _ (congrArg (State.putGroup
    (s.newId.2.markCommitted g.tid (s.issueTurn g) s.nextId)) ?_))
  exact commitWait_eq (clk_markCommitted hn _ _) ht (team?_markCommitted hn _ _) rfl _ isEnd

/-- Such a wait is over after its clk, once no earlier operation is held. -/
theorem waitOver_commit {s : State} {g : Group} {t : Team} {turn : Nat} {isEnd : Bool} (hw : g.wait = .commit turn isEnd)
    (ht : s.team? g.tid = some t) : s.waitOver g = true ↔ turn / 8 < s.clk ∧ ∀ e ∈ t.held, turn ≤ e.turn := by
  simp [State.waitOver, hw, ht]

/-! ### The commit buffer -/

/-- An operation that no held one comes after is held last. -/
theorem insertHeld_last {e : HeldEntry} {l : List HeldEntry} (h : ∀ x ∈ l, x.turn ≤ e.turn) : insertHeld e l = l ++ [e] := by
  induction l with
  | nil => rfl
  | cons y r ih =>
    have hy : ¬e.turn < y.turn := Nat.not_lt.2 (h y List.mem_cons_self)
    rw [insertHeld, if_neg hy, ih fun x hx => h x (List.mem_cons_of_mem _ hx), List.cons_append]

theorem hold_of_team {s : State} {g : Group} {t : Team} (ht : s.team? g.tid = some t) (what : Held) :
    s.hold g what = ({ s with nextId := s.nextId + 1 } : State).putTeam { t with held := (insertHeld
      { id := s.nextId, turn := s.issueTurn g, gid := g.gid, pc := g.pc, exec := g.exec, what := what } t.held) } := by
  have hn : ({ s with nextId := s.nextId + 1 } : State).team? g.tid = some t := ht
  simp only [State.hold, State.newId, hn]
  rfl

theorem commitFull_of_team {s : State} {k : Nat} {t : Team} (ht : s.team? k = some t) :
    s.commitFull k = decide (64 ≤ t.held.length) := by
  simp only [State.commitFull, ht]
  rfl

/-! ### Guards -/

theorem guardOf_of_team {s : State} {g : Group} {t : Team} (ht : s.team? g.tid = some t) (k : Nat) :
    s.guardOf g k = t.guards.getD k 0 := by
  simp only [State.guardOf, ht]

/-- Team t with guard k at the value v. -/
def Team.withGuard (t : Team) (k v : Nat) : Team := { t with guards := t.guards.set k v }

theorem setGuard_of_team {s : State} {g : Group} {t : Team} (ht : s.team? g.tid = some t) (k v : Nat) :
    s.setGuard g k v = s.putTeam (t.withGuard k v) := by
  simp only [State.setGuard, ht]
  rfl

theorem team?_withGuard {s : State} {i : Nat} {t : Team} (ht : s.team? i = some t) (k v : Nat) :
    (s.putTeam (t.withGuard k v)).team? i = some (t.withGuard k v) := by
  obtain rfl := State.tid_of_team? ht
  exact State.team?_putTeam_same s (t.withGuard k v)

/-- The state after group g of team t has given guard k the value v: the jobs and the waits that it lets go on have gone
on. -/
def State.resolves (s : State) (q : Issue) (g : Group) (t : Team) (k v : Nat) : State :=
  (((s.putTeam (t.withGuard k v)).pumpJobs g.tid t.jobs.length).putGroup (g.onward s.clk q)).wakeTeam g.tid

/-- A guard takes the values true and false alone. -/
theorem gset_traps_value {s : State} {q : Issue} {g : Group} (hi : Issues s q g) (k : BitVec 4) {v : BitVec 2}
    (hv : v = 0 ∨ v = 3) : Traps s g (.gset k v) cIllegalOperand := by
  refine instr_traps hi (usable_none g) _ ?_
  rcases hv with rfl | rfl <;> rfl

/-- A resolved guard keeps its value: GSET of another traps. -/
theorem gset_traps_resolved {s : State} {q : Issue} {g : Group} {t : Team} (hi : Issues s q g) (ht : s.team? g.tid = some t)
    {k : BitVec 4} {v : BitVec 2} (h0 : t.guards.getD k.toNat 0 ≠ 0) (hv : t.guards.getD k.toNat 0 ≠ v.toNat) :
    Traps s g (.gset k v) cIllegalOperand := by
  refine instr_traps hi (usable_none g) _ ?_
  rw [guardOf_of_team ht]
  generalize t.guards.getD k.toNat 0 = x at h0 hv
  simp [firstCause, h0, hv]

/-- GSET of true or false to a guard that is unresolved or has that value passes its checks. -/
theorem gset_check {s : State} {g : Group} {t : Team} (ht : s.team? g.tid = some t) {k : BitVec 4} {v : BitVec 2}
    (hv : v = 1 ∨ v = 2) (hg : t.guards.getD k.toNat 0 = v.toNat ∨ t.guards.getD k.toNat 0 = 0) :
    firstCause [(v == 0 || v == 3, cIllegalOperand),
      (s.guardOf g k.toNat != 0 && s.guardOf g k.toNat != v.toNat, cIllegalOperand)] = none := by
  rw [guardOf_of_team ht]
  rcases hv with rfl | rfl <;> rcases hg with hg | hg <;> rw [hg] <;> rfl

/-- GSET of a value that the guard has, or of false to an unresolved one, resolves it at once. -/
theorem gset_resolves {s : State} {q : Issue} {g : Group} {t : Team} (hi : Issues s q g) (ht : s.team? g.tid = some t)
    {k : BitVec 4} {v : BitVec 2} (hv : v = 1 ∨ v = 2)
    (hg : t.guards.getD k.toNat 0 = v.toNat ∨ (v = 2 ∧ t.guards.getD k.toNat 0 = 0)) :
    exec (.gset k v) s = .next (s.resolves q g t k.toNat v.toNat) := by
  have hfresh : ¬(v = 1 ∧ s.guardOf g k.toNat = 0) := by
    rw [guardOf_of_team ht]
    rintro ⟨rfl, h0⟩
    rcases hg with hg | ⟨h, -⟩
    · rw [h0] at hg
      exact absurd hg (by decide)
    · exact absurd h (by decide)
  refine (instr_runs hi (usable_none g) _ (gset_check ht hv (hg.imp_right And.right))).trans ?_
  simp only [hfresh, false_and, if_false, hi.group, Option.getD_some, setGuard_of_team ht, team?_withGuard ht]
  rfl

/-- GSET of true to an unresolved guard first performs what the group issued before it at DEVICE, and issues again while that
is not done. -/
theorem gset_true_releases {s r : State} {q : Issue} {g h : Group} {t t' : Team} (hi : Issues s q g)
    (ht : s.team? g.tid = some t) {k : BitVec 4} (h0 : t.guards.getD k.toNat 0 = 0) (hr : s.release g.gid s.nextId 3 = r)
    (hh : r.group? g.gid = some h) (ht' : r.team? h.tid = some t') :
    exec (.gset k 1) s = .next (if r.performedAt g.gid r.nextId 3 then r.resolves q h t' k.toNat 1
      else r.putGroup { h with wait := .retry 3 }) := by
  have hfresh : s.guardOf g k.toNat = 0 := (guardOf_of_team ht k.toNat).trans h0
  refine (instr_runs hi (usable_none g) _ (gset_check ht (.inl rfl) (.inr h0))).trans ?_
  simp only [hfresh, and_self, true_and, if_true, hr, hh, Option.getD_some, State.gid_of_group? hh, setGuard_of_team ht',
    team?_withGuard ht']
  cases r.performedAt g.gid r.nextId 3 <;> rfl

/-- GCLR makes the guard unresolved. -/
theorem gclr_clears {s : State} {q : Issue} {g : Group} {t : Team} (hi : Issues s q g) (ht : s.team? g.tid = some t)
    (k : BitVec 4) : exec (.gclr k) s = .next ((s.putTeam (t.withGuard k.toNat 0)).putGroup (g.onward s.clk q)) := by
  refine (instr_runs (more := noCheck) hi (usable_none g) _ rfl).trans ?_
  rw [setGuard_of_team ht]
  rfl

/-! ### LAUNCH -/

/-- LAUNCH's further checks, in the order of R18. -/
theorem launch_check {s : State} {g : Group} {t : Team} (ht : s.team? g.tid = some t) (a : BitVec 6) :
    firstCause [(decide (a.toNat % 2 = 1), cIllegalOperand), (decide (10 ≤ g.nest), cDepthLimit),
        (s.commitFull g.tid, cCommitFull)]
      = if a.toNat % 2 = 1 then some cIllegalOperand else if 10 ≤ g.nest then some cDepthLimit
        else if 64 ≤ t.held.length then some cCommitFull else none := by
  simp only [firstCause, commitFull_of_team ht, decide_eq_true_eq]

/-- LAUNCH that passes them holds its kick-register write and goes on. -/
theorem launch_holds {s : State} {q : Issue} {g : Group} {t : Team} (hi : Issues s q g) (ht : s.team? g.tid = some t)
    {a b : BitVec 6} (hu : Usable g (usesS [] (pairRegs a.toNat ++ [b.toNat]))) (ha : ¬a.toNat % 2 = 1) (hn : ¬10 ≤ g.nest)
    (hf : ¬64 ≤ t.held.length) :
    exec (.launch a b) s = .next ((s.hold g (.kick [((g.pair a.toNat).toNat, g.sreg b.toNat)] g.nest)).putGroup
      (g.onward s.clk q)) := by
  refine (instr_runs hi hu _ ((launch_check ht a).trans (by rw [if_neg ha, if_neg hn, if_neg hf]))).trans ?_
  rw [hold_of_team ht]
  rfl

/-- LAUNCH that fails one of them traps. -/
theorem launch_traps {s : State} {q : Issue} {g : Group} {t : Team} (hi : Issues s q g) (ht : s.team? g.tid = some t)
    {a b : BitVec 6} (hu : Usable g (usesS [] (pairRegs a.toNat ++ [b.toNat]))) {c : Nat}
    (h : (if a.toNat % 2 = 1 then some cIllegalOperand else if 10 ≤ g.nest then some cDepthLimit
      else if 64 ≤ t.held.length then some cCommitFull else none) = some c) : Traps s g (.launch a b) c :=
  instr_traps hi hu _ ((launch_check ht a).trans h)

/-- Settles O28: each clause is one of the lemmas above. -/
theorem endAndCommit : Obligations.EndAndCommit := by
  unfold Obligations.EndAndCommit
  refine ⟨fun s q g t hi ht isEnd => ?_, fun s q g t a b k v hi ht => ⟨fun hu => ?_, fun e l => insertHeld_last,
    gclr_clears hi ht k, gset_traps_value hi k, fun _ => gset_traps_resolved hi ht, gset_resolves hi ht,
    fun h t' h0 => ?_⟩⟩
  · have hn : s.newId.2.team? g.tid = some t := ht
    have hx : exec (if isEnd then .endI else .commit) s = commitOp isEnd s := by cases isEnd <;> rfl
    refine ⟨_, hx.trans (commitOp_marks hi ht isEnd), ⟨_, team?_markCommitted hn _ _, rfl, rfl, rfl, rfl⟩,
      tents_markCommitted hn _ _, fun p => (sameBytes_putGroup _ _ p).trans (sameBytes_markCommitted hn _ _ p),
      State.group?_putGroup_same _ _, fun v k t' _ hw ht' => ?_⟩
    rw [waitOver_commit hw ht', issueTurn_div]
  · split
    case isTrue ha => exact launch_traps hi ht hu (if_pos ha)
    case isFalse ha =>
      split
      case isTrue hn => exact launch_traps hi ht hu (by rw [if_neg ha, if_pos hn])
      case isFalse hn =>
        split
        case isTrue hf => exact launch_traps hi ht hu (by rw [if_neg ha, if_neg hn, if_pos hf])
        case isFalse hf => rw [launch_holds hi ht hu ha hn hf, hold_of_team ht]
  · intro r hh htid ht'
    have hx := gset_true_releases hi ht h0 rfl hh (htid ▸ ht')
    rw [← htid]
    split
    case isTrue hp => exact hx.trans (congrArg _ (if_pos hp))
    case isFalse hp => exact hx.trans (congrArg _ (if_neg hp))

end Sys2Proof.Machine
end

section
/-!
The shapes of the vector instructions, each said once: what an instruction of the shape answers when its group may use
its registers, and when a further check refuses it (R18, R109).
-/

namespace Sys2Proof.Machine

/-! ### One further check -/

theorem firstCause_of_false {b : Bool} {c : Nat} (h : b = false) : firstCause [(b, c)] = none := by rw [h]; rfl

theorem firstCause_of_true {b : Bool} {c : Nat} (h : b = true) : firstCause [(b, c)] = some c := by rw [h]; rfl

/-- The check that b holds. -/
theorem firstCause_not_of_true {b : Bool} {c : Nat} (h : b = true) : firstCause [(!b, c)] = none :=
  firstCause_of_false (by rw [h]; rfl)

theorem firstCause_not_of_not {b : Bool} {c : Nat} (h : ¬b = true) : firstCause [(!b, c)] = some c :=
  firstCause_of_true (by rw [Bool.not_eq_true] at h; rw [h]; rfl)

section
variable {s : State} {q : Issue} {g : Group} (hi : Issues s q g)
include hi

/-! ### One result for the lanes in exec -/

theorem vecBin_runs {n d a b : Nat} {f : Word → Word → Word} (hu : Usable g (usesV [d] [a, b])) :
    vecBin n d a b f s
      = .next (s.putGroup ((g.writeV s.clk n d (vmk fun l => f (g.vlane a l) (g.vlane b l))).onward s.clk q)) :=
  plain_runs hi hu _ rfl

theorem vecImm_runs {n d a : Nat} {imm : Issue → Word} {ok : Bool} {f : Word → Word → Word}
    (hu : Usable g (usesV [d] [a])) (hok : ok = true) :
    vecImm n d a imm ok f s
      = .next (s.putGroup ((g.writeV s.clk n d (vmk fun l => f (g.vlane a l) (imm q))).onward s.clk q)) :=
  plain_runs hi hu _ (firstCause_not_of_true hok)

theorem vecImm_traps {n d a : Nat} {imm : Issue → Word} {ok : Bool} {f : Word → Word → Word}
    (hu : Usable g (usesV [d] [a])) (hok : ¬ok = true) : vecImm n d a imm ok f s = .next (s.trap g cIllegalOperand) :=
  plain_traps hi hu _ (firstCause_not_of_not hok)

/-- A floating-point function of two sources. -/
theorem vecF_runs {n d a b : Nat} {f : Word → Word → Word → Word → Word} (hu : Usable g (usesV [d] [a, b])) :
    vecF n d a b false f s = .next (s.putGroup
      ((g.writeV s.clk n d (vmk fun l => f g.fmt (g.vlane a l) (g.vlane b l) (g.vlane d l))).onward s.clk q)) :=
  plain_runs hi hu _ rfl

/-- One whose third source is its destination. -/
theorem vecF_runs_third {n d a b : Nat} {f : Word → Word → Word → Word → Word}
    (hu : Usable g (usesV [d] [d, a, b])) :
    vecF n d a b true f s = .next (s.putGroup
      ((g.writeV s.clk n d (vmk fun l => f g.fmt (g.vlane a l) (g.vlane b l) (g.vlane d l))).onward s.clk q)) :=
  plain_runs hi hu _ rfl

theorem vecUn_runs {n d a : Nat} {f : Word → Word → Word} (hu : Usable g (usesV [d] [a])) :
    vecUn n d a f s = .next (s.putGroup ((g.writeV s.clk n d (vmk fun l => f g.fmt (g.vlane a l))).onward s.clk q)) :=
  plain_runs hi hu _ rfl

theorem laneImm_runs {d a imm : Nat} {src : Nat → Nat} (hu : Usable g (usesV [d] [a])) (him : imm ≤ 31) :
    laneImm d a imm src s
      = .next (s.putGroup ((g.writeV s.clk 2 d (vmk fun l => g.vlane a (src l))).onward s.clk q)) :=
  plain_runs hi hu _ (firstCause_of_false (decide_eq_false (Nat.not_lt.2 him)))

theorem laneImm_traps {d a imm : Nat} {src : Nat → Nat} (hu : Usable g (usesV [d] [a])) (him : ¬imm ≤ 31) :
    laneImm d a imm src s = .next (s.trap g cIllegalOperand) :=
  plain_traps hi hu _ (firstCause_of_true (decide_eq_true (Nat.lt_of_not_le him)))

theorem laneReduce_runs {d a : Nat} {f : Word → Word → Vec → Vec} (hu : Usable g (usesV [d] [a])) :
    laneReduce d a f s = .next (s.putGroup ((g.writeV s.clk 2 d (f g.fmt g.exec (g.vreg a))).onward s.clk q)) :=
  plain_runs hi hu _ rfl

/-! ### Conversions -/

/-- A conversion whose check passes writes its registers three beats later, with SEED advanced as R75 says. -/
theorem vecConv_runs {d a : Nat} {m n : Group → Nat} {more : Group → Option Nat} {f : Group → Word → List Vec}
    (hu : Usable g (usesV (regsFrom d (m g)) (regsFrom a (n g)))) (hm : more g = none) :
    vecConv d a m n more f s
      = .next (s.putGroup (({ g with seed := g.seedFor }.writeVs s.clk 3 d (f g g.seedFor)).onward s.clk q)) := by
  simp only [vecConv, withGroup_of_issues hi, common_of_usable hu, hm]
  rfl

theorem vecConv_traps {d a : Nat} {m n : Group → Nat} {more : Group → Option Nat} {f : Group → Word → List Vec}
    (hu : Usable g (usesV (regsFrom d (m g)) (regsFrom a (n g)))) {c : Nat} (hm : more g = some c) :
    vecConv d a m n more f s = .next (s.trap g c) := by
  simp only [vecConv, withGroup_of_issues hi, common_of_usable hu, hm]

/-- A conversion that takes only some formats completes for those and traps ILLEGAL_OPERAND for any other. -/
theorem vecConv_checked {i : Instr} {d a : Nat} {m n : Group → Nat} {ok : Group → Bool} {f : Group → Word → List Vec}
    {P : Prop} [Decidable P]
    (hx : exec i s = vecConv d a m n (fun g => firstCause [(!ok g, cIllegalOperand)]) f s) (hok : ok g = true ↔ P)
    (hu : Usable g (usesV (regsFrom d (m g)) (regsFrom a (n g)))) :
    if P then Completes s q i ({ g with seed := g.seedFor }.writeVs s.clk 3 d (f g g.seedFor))
    else Traps s g i cIllegalOperand := by
  split
  case isTrue h => exact hx.trans (vecConv_runs hi hu (firstCause_not_of_true (hok.2 h)))
  case isFalse h => exact hx.trans (vecConv_traps hi hu (firstCause_not_of_not (mt hok.1 h)))

end

end Sys2Proof.Machine
end

section
/-!
The vector arithmetic of VI3A, VI3B, VVI, VF3A and VF3H (R111 to R114).
-/

namespace Sys2Proof.Machine

/-! ### Immediates of seven bits -/

/-- The immediate of Table A.23: imm7 alone, or below the 24 bits of the EXT. -/
theorem imm7_eq_immediate (q : Issue) (i : BitVec 7) :
    q.imm7 i = q.immediate (i.signExtend 32) (fun x => (x ++ i).signExtend 32) := by
  unfold Issue.imm7 Issue.immediate Issue.x
  cases q.ext with
  | none => rfl
  | some x =>
    have hx : BitVec.ofNat 31 (x.toNat * 2 ^ 7 + i.toNat) = x ++ i := by
      apply BitVec.eq_of_toNat_eq
      have h1 := x.isLt
      have h2 := i.isLt
      rw [BitVec.toNat_append, ← Nat.shiftLeft_add_eq_or_of_lt h2, Nat.shiftLeft_eq, BitVec.toNat_ofNat]
      omega
    simp only [Option.isSome_some, if_true, Option.getD_some, hx]

/-- A shift amount below 32 is taken as it stands. -/
theorem shiftAmount_of_lt {i : BitVec 7} (h : i.toNat < 32) : (i.zeroExtend 32).toNat % 32 = i.toNat := by
  have ht : (i.zeroExtend 32).toNat = i.toNat % 2 ^ 32 := BitVec.toNat_setWidth 32 i
  omega

/-! ### The statements -/

/-- Settles O10: each is a lane function of two registers. -/
theorem vectorIntegerResults : Obligations.VectorIntegerResults := by
  unfold Obligations.VectorIntegerResults
  intro s q g d a b hi hu
  and_intros <;> exact vecBin_runs hi hu

/-- Settles O11: a shift alone has a check of its immediate. -/
theorem vectorImmediateResults : Obligations.VectorImmediateResults := by
  unfold Obligations.VectorImmediateResults
  refine fun s q g d a i hi hu => ⟨?_, ?_⟩
  · rintro w rfl
    rw [← imm7_eq_immediate]
    and_intros <;> exact vecImm_runs hi hu rfl
  · split
    case isTrue h =>
      rw [← shiftAmount_of_lt h]
      and_intros <;> exact vecImm_runs hi hu (decide_eq_true h)
    case isFalse h => and_intros <;> exact vecImm_traps hi hu (mt of_decide_eq_true h)

/-- Settles O13: each is a lane function under fmt, of two registers or of three. -/
theorem vectorFloatResults : Obligations.VectorFloatResults := by
  unfold Obligations.VectorFloatResults
  refine fun s q g d a b hi => ⟨fun hu => ?_, fun hu => ?_⟩
  · and_intros <;> unfold Completes exec <;> exact vecF_runs hi hu
  · and_intros <;> unfold Completes exec <;> exact vecF_runs_third hi hu

end Sys2Proof.Machine
end

section
/-!
The compares of VCMP (R115), and the one-operand functions of VUN that round nothing by SEED (R122, R123).
-/

namespace Sys2Proof.Machine

/-! ### Lane masks -/

/-- The mask of one lane. -/
theorem getLsbD_laneBit (l : Nat) {b : Nat} (hb : b < 32) : (BitVec.ofNat 32 (2 ^ l)).getLsbD b = decide (b = l) := by
  rw [BitVec.getLsbD_ofNat, Nat.testBit_two_pow, decide_eq_true hb, Bool.true_and]
  exact decide_eq_decide.2 eq_comm

theorem getLsbD_setLane (c : Bool) (m : Word) (l : Nat) {b : Nat} (hb : b < 32) :
    (if c then m ||| BitVec.ofNat 32 (2 ^ l) else m).getLsbD b = (m.getLsbD b || (decide (b = l) && c)) := by
  cases c
  · rw [if_neg Bool.false_ne_true, Bool.and_false, Bool.or_false]
  · rw [if_pos rfl, BitVec.getLsbD_or, getLsbD_laneBit l hb, Bool.and_true]

/-- Bit b of a mask built lane by lane: one that was set, or one of the lanes for which the test holds. -/
theorem getLsbD_foldl_setLane (p : Nat → Bool) (ls : List Nat) (m : Word) {b : Nat} (hb : b < 32) :
    (ls.foldl (fun m l => if p l then m ||| BitVec.ofNat 32 (2 ^ l) else m) m).getLsbD b
      = (m.getLsbD b || (decide (b ∈ ls) && p b)) := by
  induction ls generalizing m with
  | nil => simp
  | cons l ls ih =>
    rw [List.foldl_cons, ih, getLsbD_setLane _ _ _ hb]
    by_cases hl : b = l
    · subst hl
      cases p b <;> simp
    · simp [hl]

/-- A mask holds the lanes of exec for which the test holds. -/
theorem getLsbD_maskOf (e : Word) (p : Nat → Bool) {b : Nat} (hb : b < 32) :
    (maskOf e p).getLsbD b = (e.getLsbD b && p b) := by
  rw [maskOf, getLsbD_foldl_setLane (fun l => e.getLsbD l && p l) _ _ hb]
  simp [lanes32, hb]

/-! ### Compares -/

/-- With exec not 0 a compare writes, two beats later, the mask of the lanes in exec where its test holds. -/
theorem vecCmp_writes_mask {s : State} {q : Issue} {g : Group} (hi : Issues s q g) {d a b : Nat}
    (hu : Usable g { vN := [a, b], sN := [d], vR := [a, b], sR := [] }) (he : g.exec ≠ 0)
    {test : Word → Word → Word → Bool} {p : Nat → Bool}
    (hp : ∀ l, test g.fmt (g.vlane a l) (g.vlane b l) = p l) :
    ∃ m : Word, (∀ l, l < 32 → m.getLsbD l = (g.exec.getLsbD l && p l))
      ∧ vecCmp d a b test s = .next (s.putGroup ((g.writeS s.clk 2 d m).onward s.clk q)) := by
  refine ⟨maskOf g.exec fun l => test g.fmt (g.vlane a l) (g.vlane b l),
    fun l hl => (getLsbD_maskOf _ _ hl).trans (by rw [hp]), (plain_runs (more := noCheck) hi hu _ rfl).trans ?_⟩
  rw [if_neg he]

/-- With exec 0 it writes nothing. -/
theorem vecCmp_writes_nothing {s : State} {q : Issue} {g : Group} (hi : Issues s q g) {d a b : Nat}
    (hu : Usable g { vN := [a, b], sN := [d], vR := [a, b], sR := [] }) (he : g.exec = 0)
    {test : Word → Word → Word → Bool} :
    vecCmp d a b test s = .next (s.putGroup (g.onward s.clk q)) := by
  refine (plain_runs (more := noCheck) hi hu _ rfl).trans ?_
  rw [if_pos he]

/-- Settles O14: each compare has the shape of vecCmp, with its test of Table A.47. -/
theorem compareMasks : Obligations.CompareMasks := by
  unfold Obligations.CompareMasks
  refine fun s q g d a b hi hu => ⟨fun he => ?_, fun he => ?_⟩
  · unfold Completes exec
    refine ⟨?_, ?_, ?_, ?_, ?_, ?_, ?_, ?_, ?_, ?neI, ?_, ?_, ?_, ?_, ?tst, ?_⟩
    case neI | tst => exact vecCmp_writes_mask hi hu he fun l => decide_not.symm
    all_goals exact vecCmp_writes_mask hi hu he fun l => rfl
  · unfold Completes exec
    and_intros <;> exact vecCmp_writes_nothing hi hu he

/-! ### Counts of zero bits, and bit reversal -/

theorem clz32_of_ne_zero {x : Word} (h : x ≠ 0) : clz32 x = 31 - Nat.log2 x.toNat := if_neg h

theorem word_toNat_ne_zero {x : Word} (h : x ≠ 0) : x.toNat ≠ 0 := fun h0 => h (BitVec.eq_of_toNat_eq h0)

/-- The highest set bit of a word. -/
theorem log2_word_le {x : Word} (h : x ≠ 0) : Nat.log2 x.toNat ≤ 31 :=
  Nat.le_of_lt_succ ((Nat.log2_lt (word_toNat_ne_zero h)).2 x.isLt)

theorem clz32_le (x : Word) : clz32 x ≤ 32 := by
  unfold clz32
  split <;> omega

/-- The bits that VCLZ counts are 0. -/
theorem getLsbD_counted_by_clz32 (x : Word) {i : Nat} (h : i < clz32 x) : x.getLsbD (31 - i) = false := by
  by_cases h0 : x = 0
  · rw [h0]
    exact BitVec.getLsbD_zero
  · rw [clz32_of_ne_zero h0] at h
    exact Nat.testBit_lt_two_pow (Nat.lt_of_lt_of_le Nat.lt_log2_self (Nat.pow_le_pow_right (by decide) (by omega)))

/-- The bit below them, when there is one, is 1. -/
theorem getLsbD_below_clz32 {x : Word} (h : clz32 x < 32) : x.getLsbD (31 - clz32 x) = true := by
  have h0 : x ≠ 0 := by
    rintro rfl
    exact absurd h (by decide)
  have hl := log2_word_le h0
  rw [clz32_of_ne_zero h0, show 31 - (31 - Nat.log2 x.toNat) = Nat.log2 x.toNat by omega]
  exact Nat.testBit_log2 (word_toNat_ne_zero h0)

/-- Bit b of the reversed word is bit 31 − b. -/
theorem getLsbD_brev32 (x : Word) {b : Nat} (hb : b < 32) : (brev32 x).getLsbD b = x.getLsbD (31 - b) := by
  have hall : (0xFFFFFFFF : Word).getLsbD b = true := (BitVec.getLsbD_allOnes (v := 32)).trans (decide_eq_true hb)
  rw [brev32, getLsbD_maskOf _ _ hb, hall, Bool.true_and]

/-- Settles O15: each is a lane function of one register; the count of zeros and the reversed word are those of the
lemmas above. -/
theorem oneOperandResults : Obligations.OneOperandResults := by
  unfold Obligations.OneOperandResults
  intro s q g d a hi hu
  unfold Completes exec
  refine ⟨?_, ?_, ?_, ?_, ?_, ?_, ?_, ?_, ?_, ?_, ?_, ?_, ?_, ?_, ?_, ?_,
    ⟨fun l => clz32 (g.vlane a.toNat l), ?clz, ?_⟩, ⟨fun l => brev32 (g.vlane a.toNat l), ?brev, ?_⟩⟩
  case clz => exact fun l => ⟨clz32_le _, fun i => getLsbD_counted_by_clz32 _, getLsbD_below_clz32⟩
  case brev => exact fun l b => getLsbD_brev32 _
  all_goals exact vecUn_runs hi hu

end Sys2Proof.Machine
end

section
/-!
Lane movement, reductions over the lanes, and the moves between scalars and lanes (R124 to R126).
-/

namespace Sys2Proof.Machine

/-- Settles O17: each is one of the lane shapes, or writes what its effect says. -/
theorem laneMoves : Obligations.LaneMoves := by
  unfold Obligations.LaneMoves
  refine ⟨fun s q g d a b i r k hi => ⟨fun hu => ?shfl, fun hu => ?imm, fun hu => ⟨?bcs, ?setl⟩, fun hu => ?movsl,
    fun hu => ?laneid⟩, ?reduce⟩
  case shfl => exact (exec_vshfl d a b s).trans (plain_runs (more := noCheck) hi hu _ rfl)
  case imm =>
    split
    case isTrue h => and_intros <;> exact laneImm_runs hi hu h
    case isFalse h => and_intros <;> exact laneImm_traps hi hu h
  case bcs => exact (exec_vbcs d r s).trans (plain_runs (more := noCheck) hi hu _ rfl)
  case setl => exact (exec_vsetl d r k s).trans (plain_runs (more := noCheck) hi hu _ rfl)
  case movsl => exact (exec_vmovsl a r k s).trans (plain_runs (more := noCheck) hi hu _ rfl)
  case laneid => exact (exec_vlaneid d s).trans (plain_runs (more := noCheck) hi hu _ rfl)
  case reduce =>
    rintro s q g d a t m hi hu rfl rfl
    exact ⟨(exec_vraddF d a s).trans (laneReduce_runs hi hu), (exec_vrmaxF d a s).trans (laneReduce_runs hi hu),
      (exec_vscanF d a s).trans (laneReduce_runs hi hu)⟩

end Sys2Proof.Machine
end

section
/-!
The conversions, packs and unpacks of VUN, and SEED (R75, R116 to R121).
-/

namespace Sys2Proof.Machine

/-! ### SEED, checks and registers -/

/-- SEED stays under exec 0. -/
theorem withSeed_of_exec_zero {g : Group} (he : g.exec = 0) : ({ g with seed := g.seedFor } : Group) = g := by
  rw [Group.seedFor, if_pos he]

/-- The two FP8 formats. -/
theorem fp8Code_iff (c : Nat) : (c == 3 || c == 4) = true ↔ c = 3 ∨ c = 4 := by
  rw [Bool.or_eq_true, beq_iff_eq, beq_iff_eq]

/-- Exec holds lanes of a block, but not all of them (R120). -/
def SplitsBlock (bx8 : Bool) (e : Word) : Prop :=
  ∃ k, k < bxBlocks bx8 ∧ blockAny bx8 e k = true ∧ blockAll bx8 e k = false

theorem any_split_iff (bx8 : Bool) (e : Word) :
    (List.range (bxBlocks bx8)).any (fun k => blockAny bx8 e k && !blockAll bx8 e k) = true ↔ SplitsBlock bx8 e := by
  simp only [SplitsBlock, List.any_eq_true, List.mem_range, Bool.and_eq_true, Bool.not_eq_true']

/-- The check of a pack. -/
theorem splitCheck_passes {bx8 : Bool} {e : Word} (h : ¬SplitsBlock bx8 e) :
    firstCause [((List.range (bxBlocks bx8)).any (fun k => blockAny bx8 e k && !blockAll bx8 e k), cIllegalOperand)] = none :=
  firstCause_of_false (eq_false_of_ne_true (mt (any_split_iff bx8 e).1 h))

section
variable {s : State} {q : Issue} {g : Group} (hi : Issues s q g)
include hi

/-! ### Conversions of one register -/

theorem vecCvt32_runs {d a : Nat} {f : RMode → Bool → Bool → Word → Word} (hu : Usable g (usesV [d] [a])) :
    vecCvt32 d a f s = .next (s.putGroup (({ g with seed := g.seedFor }.writeV s.clk 3 d (vmk fun l =>
      f (convMode g.fmt g.seedFor l 0) (fmtSAT g.fmt) (fmtFTZ g.fmt) (g.vlane a l))).onward s.clk q)) :=
  vecConv_runs hi hu rfl

/-! ### BX packs -/

theorem vecPack_traps {bx8 : Bool} {d a : Nat} (hu : Usable g (usesV [d, d + 1] (regsFrom a (bxBlocks bx8))))
    (h : SplitsBlock bx8 g.exec) : vecPack bx8 d a s = .next (s.trap g cIllegalOperand) :=
  instr_traps hi hu _ (firstCause_of_true ((any_split_iff bx8 g.exec).2 h))

/-- A pack that splits no block writes the elements and the headers of the blocks in exec. -/
theorem vecPack_runs {bx8 : Bool} {d a : Nat} (hu : Usable g (usesV [d, d + 1] (regsFrom a (bxBlocks bx8))))
    (h : ¬SplitsBlock bx8 g.exec) (he : g.exec ≠ 0) {r : Vec × Vec}
    (hr : bxPack bx8 g.fmt g.seedFor g.exec (fun k => g.vreg (a + k)) [] [] = r) :
    vecPack bx8 d a s = .next (s.putGroup (((({ g with seed := g.seedFor } : Group).writeLanes s.clk 3 d
      (bxElemLanes bx8 g.exec) r.1).writeLanes s.clk 3 (d + 1) (bxHdrLanes bx8 g.exec) r.2).onward s.clk q)) := by
  refine (instr_runs hi hu _ (splitCheck_passes h)).trans ?_
  dsimp only
  rw [if_neg he, hr]
  rfl

/-- Under exec 0 it writes nothing, and SEED stays. -/
theorem vecPack_writes_nothing {bx8 : Bool} {d a : Nat} (hu : Usable g (usesV [d, d + 1] (regsFrom a (bxBlocks bx8))))
    (h : ¬SplitsBlock bx8 g.exec) (he : g.exec = 0) : vecPack bx8 d a s = .next (s.putGroup (g.onward s.clk q)) := by
  refine (instr_runs hi hu _ (splitCheck_passes h)).trans ?_
  dsimp only
  rw [if_pos he, withSeed_of_exec_zero he]
  rfl

end

/-- The answer of VPKBX8 or of VPKBX4. -/
theorem exec_vecPack (bx8 : Bool) (d a : BitVec 7) (s : State) :
    exec (if bx8 then .vpkbx8 d a else .vpkbx4 d a) s = vecPack bx8 d.toNat a.toNat s := by
  cases bx8 <;> rfl

theorem exec_vecUnpack (bx8 : Bool) (d a : BitVec 7) (s : State) :
    exec (if bx8 then .vupbx8 d a else .vupbx4 d a) s = vecUnpack bx8 d.toNat a.toNat s := by
  cases bx8 <;> rfl

/-- Settles O16: each has the shape of a conversion but the packs, which check the blocks that exec splits. -/
theorem conversionResults : Obligations.ConversionResults := by
  unfold Obligations.ConversionResults
  refine ⟨fun s q g d a sd hi hu hsd => ?cvt32, fun s q g d a sd hi hsd => ?formats⟩ <;>
    obtain rfl : sd = g.seedFor := hsd
  case cvt32 =>
    unfold Completes exec
    exact ⟨vecCvt32_runs hi hu, vecCvt32_runs hi hu, vecCvt32_runs hi hu, vecCvt32_runs hi hu⟩
  case formats =>
    refine ⟨vecConv_checked hi (exec_vpkf8 d a s) (fp8Code_iff _), vecConv_checked hi (exec_vupf8 d a s) (fp8Code_iff _),
      vecConv_checked hi (exec_vcvt d a s) (Bool.and_eq_true _ _).to_iff, fun bx8 hu => ?pack,
      fun bx8 hu => (exec_vecUnpack bx8 d a s).trans (vecConv_runs hi hu rfl)⟩
    case pack =>
      intro i r
      have hx : exec i s = vecPack bx8 d.toNat a.toNat s := exec_vecPack bx8 d a s
      split
      case isTrue h => exact hx.trans (vecPack_traps hi hu h)
      case isFalse h =>
        split
        case isTrue he => exact hx.trans (vecPack_writes_nothing hi hu h he)
        case isFalse he => exact hx.trans (vecPack_runs hi hu h he rfl)

end Sys2Proof.Machine
end
